-- ==== Sys2Proof/Word.lean ====
section
/-! DEFINITION. The words that cross the OL416's boundary: characters and frame fields. -/

namespace Sys2Proof

/-- One byte of a command frame, or one character of a line. -/
abbrev Byte := BitVec 8

/-- A two-byte field. -/
abbrev Half := BitVec 16

/-- A three-byte field (Lmax of SET_PROFILE, R171). -/
abbrev Triple := BitVec 24

/-- The six-byte uid field. -/
abbrev UidField := BitVec 48

end Sys2Proof
end

