-- ==== Sys2Proof/Syntax.lean ====
section
/-! DEFINITION. The commands and events of the OL416: one constructor for each row of spec/opcode_table.json,
with the row's operands. A host command carries its payload fields at the width of the frame (R171), so every value
a host can send is a term. -/

namespace Sys2Proof

/-- The two lighting lines. -/
inductive Line where
  | a
  | b
  deriving DecidableEq, Repr

/-- The numeric fields of SET_PROFILE in the order of R20, at the widths of R171. -/
structure RawProfile where
  kp : Half
  f2 : Half
  f3 : Half
  f4 : Half
  f5 : Half
  f6 : Half
  lmax1 : Triple
  lmax2 : Triple
  lmax3 : Triple
  lmax4 : Triple
  lmax5 : Triple
  lmax6 : Triple
  lin : Half
  dmin : Half
  w : Byte
  lfb : Half
  hold : Byte
  boost : Half
  deriving DecidableEq, Repr

/-- The answer codes of R167. -/
inductive Answer where
  | ok
  | clamped
  | badCheck
  | badLength
  | unknownCommand
  | badValue
  | badSlot
  | slotOccupied
  | slotVacant
  | outsidePlan
  | addressInUse
  | uidInUse
  | recordBusy
  | notFound
  | noLine
  | lineBusy
  | portalRunning
  | portalHalted
  | notManual
  | emergencyActive
  | notEmergency
  | stillAsserted
  | planOverlap
  | planOccupied
  | badPlan
  | badProfile
  | badCoupling
  | meterLimit
  deriving DecidableEq, Repr

/-- The levels that two input pins have when RESET_N is released; true is high. CS_N is low when a transfer is in progress
then (R162). -/
structure PinLevels where
  emergN : Bool
  csN : Bool
  deriving DecidableEq, Repr

/-- The rows of spec/opcode_table.json. -/
inductive Instr where
  /-- RESTART, R168. -/
  | restart
  /-- READ_IDENT, R170. -/
  | readIdent
  /-- SET_METER, R2, R3. -/
  | setMeter (meter operation address portal : Byte)
  /-- READ_PORTAL, R17, R33, R34, R54, R60. -/
  | readPortal (portal : Byte)
  /-- SET_PROFILE, R20 to R22. -/
  | setProfile (portal flags : Byte) (values : RawProfile)
  /-- START, R37. -/
  | start (portal mode : Byte)
  /-- HALT, R38. -/
  | halt (portal : Byte)
  /-- SET_RAMP, R42: the ramp period is a count of 50 ms steps. -/
  | setRamp (portal steps : Byte) (up down deadband refresh : Half)
  /-- REQUEST_MODE, R43. -/
  | requestMode (portal mode : Byte)
  /-- SET_STAGE_LEVEL, R45. -/
  | setStageLevel (portal stage : Byte) (level : Half)
  /-- SET_COUPLING, R47. -/
  | setCoupling (follower leader : Byte)
  /-- SET_EMERGENCY_ENABLE, R50. -/
  | setEmergencyEnable (portal setting : Byte)
  /-- RELEASE, R53. -/
  | release (portal : Byte)
  /-- SET_PLAN, R58, R59. -/
  | setPlan (portal stages rows positions : Byte) (base rowStride stageStride : Half)
  /-- ADMIT, R65, R66. -/
  | admitRecord (slot : Half) (line address : Byte) (uid : UidField) (m : Half) (override : Byte)
  /-- AMEND, R67, R68. -/
  | amend (slot : Half) (selection : Byte) (m : Half) (override : Byte) (pinned : Half) (uid : UidField)
  /-- MOVE, R70, R71. -/
  | move (slot newSlot : Half)
  /-- RETIRE, R72, R73. -/
  | retire (slot : Half)
  /-- CLEAR_FAULT, R75. -/
  | clearFault (slot : Half)
  /-- READ_RECORD, R76. -/
  | readRecord (slot : Half)
  /-- FIND, R77. -/
  | find (line address : Byte)
  /-- FIND_UID, R78. -/
  | findUid (uid : UidField)
  /-- LIST, R79. -/
  | list (start : Half) (portal states changed : Byte)
  /-- RESWEEP, R110. -/
  | resweep (portal : Byte)
  /-- SET_LINE, R131. -/
  | setLine (line limit : Byte)
  /-- READ_LINE, R132. -/
  | readLine (line : Byte)
  /-- READ_STRAYS, R145. -/
  | readStrays (line : Byte)
  /-- ADMIT_STRAY, R146. -/
  | admitStray (line address : Byte) (slot m : Half) (override : Byte)
  /-- REJECT_STRAY, R147. -/
  | rejectStray (line address : Byte)
  /-- CLEAR_IGNORE, R148. -/
  | clearIgnore (line : Byte)
  /-- SET_PRIORITY, R150. -/
  | setPriority (cls priority : Byte)
  /-- MASK, R151. -/
  | mask (cls setting : Byte)
  /-- TAKE_NOTICE, R154. -/
  | takeNotice
  /-- FINISH_NOTICE, R155. -/
  | finishNotice
  /-- SET_AUTO_FINISH, R156. -/
  | setAutoFinish (setting : Byte)
  /-- READ_NOTICES, R157. -/
  | readNotices
  /-- SNAPSHOT, R160. -/
  | snapshot (portals parts : Byte)
  /-- READ_SNAPSHOT, R161. -/
  | readSnapshot (portal : Byte)
  /-- BAD_COMMAND_FRAME, R163: the bytes that follow the selector 0xA5. -/
  | badCommandFrame (frame : List Byte)
  /-- DISCARDED_COMMAND_TRANSFER, R165: the bytes that follow the selector 0xA5. -/
  | discardedCommandTransfer (frame : List Byte)
  /-- IGNORED_TRANSFER, R162: every whole byte of the transfer. -/
  | ignoredTransfer (bytes : List Byte)
  /-- REPLY_READ, R166: how many whole bytes are clocked out after the selector byte. -/
  | replyRead (clocked : Nat)
  /-- RESET_N_ASSERTED, R169. -/
  | resetNAsserted
  /-- RESET_N_RELEASE, R169, R162: STRAP3 to STRAP0 as bits 3 to 0, and the levels of EMERG_N and CS_N (log 26). -/
  | resetNRelease (straps : BitVec 4) (pins : PinLevels)
  /-- EMERG_N_ASSERTION, R49. -/
  | emergNAssertion
  /-- EMERG_N_RELEASE, R49. -/
  | emergNRelease
  /-- RAMP_EXPIRY of a portal's ramp timer, R40. -/
  | rampExpiry (portal : Fin 4)
  /-- REFRESH_TIMER_EXPIRY of a portal, R46. -/
  | refreshTimerExpiry (portal : Fin 4)
  /-- HOLD_TIMER_EXPIRY of a meter, R9. -/
  | holdTimerExpiry (meter : Fin 8)
  /-- POLL_DUE of a meter, R4. -/
  | pollDue (meter : Fin 8)
  /-- POLL_START, R4, R5. -/
  | pollStart
  /-- POLL_COMPLETION, R5: the first five characters of the reply window. -/
  | pollCompletion (c0 c1 c2 c3 c4 : Byte)
  /-- POLL_WINDOW_CLOSE, R5. -/
  | pollWindowClose
  /-- QUIET_PERIOD_END of a line, R115. -/
  | quietPeriodEnd (line : Line)
  /-- ARBITER_GRANT of a line, R128. -/
  | arbiterGrant (line : Line)
  /-- FRAME_END on a line, R115. -/
  | frameEnd (line : Line)
  /-- REPLY_WINDOW_CLOSE on a line, R115. -/
  | replyWindowClose (line : Line)
  /-- REPLY_RECEIVED on a line, R117: the characters that bring the reply to the length its code calls for. -/
  | replyReceived (line : Line) (chars : List Byte)
  /-- REPLY_GAP_TIMEOUT on a line, R115. -/
  | replyGapTimeout (line : Line)
  /-- EXCHANGE_COMPLETION on a line, R118: the characters received in the request slot. -/
  | exchangeCompletion (line : Line) (chars : List Byte)
  /-- REPLY_BEGUN on a line, R115: the first character of a reply, or a further one. -/
  | replyBegun (line : Line) (char : Byte)
  /-- READY_RISE, R165. -/
  | readyRise
  deriving DecidableEq, Repr

end Sys2Proof
end

