-- ==== Sys2Proof/Decode.lean ====
section
/-! DEFINITION. The wire form of a command frame: the CRC of R164, the command index of section 10.9, the checks of
R163 and the frame of each host command (R171); and the host's decodeTableWord. -/

namespace Sys2Proof

/-! ## The check byte (R164) -/

/-- The bits of a byte, most significant first. -/
def bitsOf (b : Byte) : List Bool :=
  [b.getLsbD 7, b.getLsbD 6, b.getLsbD 5, b.getLsbD 4, b.getLsbD 3, b.getLsbD 2, b.getLsbD 1, b.getLsbD 0]

/-- One step of the long division by x⁸ + x² + x + 1: the next bit enters the remainder, and the divisor is taken
away when the bit that leaves at the top is 1. -/
def crcShift (r : Byte) (bit : Bool) : Byte :=
  let shifted := (r <<< 1) ||| (if bit then 1 else 0)
  if r.getLsbD 7 then shifted ^^^ 0x07 else shifted

/-- R164: the string of bits, followed by eight zero bits, divided with initial value 0; the remainder. -/
def crc8 (bytes : List Byte) : Byte :=
  (bytes.flatMap bitsOf ++ List.replicate 8 false).foldl crcShift 0

/-! ## Fields -/

/-- The byte at an offset. -/
def u8 (p : List Byte) (at' : Nat) : Byte := p.getD at' 0

/-- The two-byte field at an offset, most significant byte first. -/
def u16 (p : List Byte) (at' : Nat) : Half := u8 p at' ++ u8 p (at' + 1)

/-- The three-byte field at an offset, most significant byte first. -/
def u24 (p : List Byte) (at' : Nat) : Triple := u8 p at' ++ u16 p (at' + 1)

/-- The six-byte field at an offset, most significant byte first. -/
def u48 (p : List Byte) (at' : Nat) : UidField := u24 p at' ++ u24 p (at' + 3)

/-- The bytes of a two-byte field. -/
def put16 (x : Half) : List Byte := [x.extractLsb' 8 8, x.extractLsb' 0 8]

/-- The bytes of a three-byte field. -/
def put24 (x : Triple) : List Byte := [x.extractLsb' 16 8, x.extractLsb' 8 8, x.extractLsb' 0 8]

/-- The bytes of a six-byte field. -/
def put48 (x : UidField) : List Byte :=
  [x.extractLsb' 40 8, x.extractLsb' 32 8, x.extractLsb' 24 8, x.extractLsb' 16 8, x.extractLsb' 8 8, x.extractLsb' 0 8]

/-- The forty bytes of a profile, from an offset (R171, SET_PROFILE widths). -/
def profileAt (p : List Byte) (o : Nat) : RawProfile where
  kp := u16 p o
  f2 := u16 p (o + 2)
  f3 := u16 p (o + 4)
  f4 := u16 p (o + 6)
  f5 := u16 p (o + 8)
  f6 := u16 p (o + 10)
  lmax1 := u24 p (o + 12)
  lmax2 := u24 p (o + 15)
  lmax3 := u24 p (o + 18)
  lmax4 := u24 p (o + 21)
  lmax5 := u24 p (o + 24)
  lmax6 := u24 p (o + 27)
  lin := u16 p (o + 30)
  dmin := u16 p (o + 32)
  w := u8 p (o + 34)
  lfb := u16 p (o + 35)
  hold := u8 p (o + 37)
  boost := u16 p (o + 38)

/-- The forty bytes of a profile. -/
def putProfile (v : RawProfile) : List Byte :=
  put16 v.kp ++ put16 v.f2 ++ put16 v.f3 ++ put16 v.f4 ++ put16 v.f5 ++ put16 v.f6
    ++ put24 v.lmax1 ++ put24 v.lmax2 ++ put24 v.lmax3 ++ put24 v.lmax4 ++ put24 v.lmax5 ++ put24 v.lmax6
    ++ put16 v.lin ++ put16 v.dmin ++ [v.w] ++ put16 v.lfb ++ [v.hold] ++ put16 v.boost

/-! ## The command index (section 10.9) and the frame checks (R163) -/

/-- One command of the index: its code, its payload length and its payload's reading. -/
structure CommandRow where
  code : Nat
  length : Nat
  build : List Byte → Instr

/-- Section 10.9: every command with its code and payload length; each field in the order of the command's rule. -/
def commandIndex : List CommandRow := [
  ⟨0x01, 0, fun _ => .restart⟩,
  ⟨0x02, 0, fun _ => .readIdent⟩,
  ⟨0x10, 4, fun p => .setMeter (u8 p 0) (u8 p 1) (u8 p 2) (u8 p 3)⟩,
  ⟨0x11, 1, fun p => .readPortal (u8 p 0)⟩,
  ⟨0x12, 42, fun p => .setProfile (u8 p 0) (u8 p 1) (profileAt p 2)⟩,
  ⟨0x13, 2, fun p => .start (u8 p 0) (u8 p 1)⟩,
  ⟨0x14, 1, fun p => .halt (u8 p 0)⟩,
  ⟨0x15, 10, fun p => .setRamp (u8 p 0) (u8 p 1) (u16 p 2) (u16 p 4) (u16 p 6) (u16 p 8)⟩,
  ⟨0x16, 2, fun p => .requestMode (u8 p 0) (u8 p 1)⟩,
  ⟨0x17, 4, fun p => .setStageLevel (u8 p 0) (u8 p 1) (u16 p 2)⟩,
  ⟨0x18, 2, fun p => .setCoupling (u8 p 0) (u8 p 1)⟩,
  ⟨0x19, 2, fun p => .setEmergencyEnable (u8 p 0) (u8 p 1)⟩,
  ⟨0x1A, 1, fun p => .release (u8 p 0)⟩,
  ⟨0x20, 10, fun p => .setPlan (u8 p 0) (u8 p 1) (u8 p 2) (u8 p 3) (u16 p 4) (u16 p 6) (u16 p 8)⟩,
  ⟨0x21, 13, fun p => .admitRecord (u16 p 0) (u8 p 2) (u8 p 3) (u48 p 4) (u16 p 10) (u8 p 12)⟩,
  ⟨0x22, 14, fun p => .amend (u16 p 0) (u8 p 2) (u16 p 3) (u8 p 5) (u16 p 6) (u48 p 8)⟩,
  ⟨0x23, 4, fun p => .move (u16 p 0) (u16 p 2)⟩,
  ⟨0x24, 2, fun p => .retire (u16 p 0)⟩,
  ⟨0x25, 2, fun p => .clearFault (u16 p 0)⟩,
  ⟨0x26, 2, fun p => .readRecord (u16 p 0)⟩,
  ⟨0x27, 2, fun p => .find (u8 p 0) (u8 p 1)⟩,
  ⟨0x28, 6, fun p => .findUid (u48 p 0)⟩,
  ⟨0x29, 5, fun p => .list (u16 p 0) (u8 p 2) (u8 p 3) (u8 p 4)⟩,
  ⟨0x30, 1, fun p => .resweep (u8 p 0)⟩,
  ⟨0x31, 2, fun p => .setLine (u8 p 0) (u8 p 1)⟩,
  ⟨0x32, 1, fun p => .readLine (u8 p 0)⟩,
  ⟨0x33, 1, fun p => .readStrays (u8 p 0)⟩,
  ⟨0x34, 7, fun p => .admitStray (u8 p 0) (u8 p 1) (u16 p 2) (u16 p 4) (u8 p 6)⟩,
  ⟨0x35, 2, fun p => .rejectStray (u8 p 0) (u8 p 1)⟩,
  ⟨0x36, 1, fun p => .clearIgnore (u8 p 0)⟩,
  ⟨0x40, 2, fun p => .setPriority (u8 p 0) (u8 p 1)⟩,
  ⟨0x41, 2, fun p => .mask (u8 p 0) (u8 p 1)⟩,
  ⟨0x42, 0, fun _ => .takeNotice⟩,
  ⟨0x43, 0, fun _ => .finishNotice⟩,
  ⟨0x44, 1, fun p => .setAutoFinish (u8 p 0)⟩,
  ⟨0x45, 0, fun _ => .readNotices⟩,
  ⟨0x46, 2, fun p => .snapshot (u8 p 0) (u8 p 1)⟩,
  ⟨0x47, 1, fun p => .readSnapshot (u8 p 0)⟩]

/-- R163: the bytes that follow the selector 0xA5, checked in the order of the table. Bytes after the check byte are
ignored. -/
def Frame.parse : List Byte → Except Answer Instr
  | [] => .error .badCheck
  | count :: rest =>
    let n := count.toNat
    let body := rest.take n
    if rest.length < n + 1 ∨ crc8 (count :: body) ≠ u8 rest n then .error .badCheck
    else match body with
      | [] => .error .badLength
      | code :: payload =>
        match commandIndex.find? fun row => row.code == code.toNat with
        | none => .error .unknownCommand
        | some row => if n ≠ row.length + 1 then .error .badLength else .ok (row.build payload)

/-- The code and payload of a host command; none for a row that is no command of the index. -/
def Frame.body : Instr → Option (List Byte)
  | .restart => some [0x01]
  | .readIdent => some [0x02]
  | .setMeter m o a p => some [0x10, m, o, a, p]
  | .readPortal p => some [0x11, p]
  | .setProfile p f v => some ([0x12, p, f] ++ putProfile v)
  | .start p m => some [0x13, p, m]
  | .halt p => some [0x14, p]
  | .setRamp p st u d db rf => some ([0x15, p, st] ++ put16 u ++ put16 d ++ put16 db ++ put16 rf)
  | .requestMode p m => some [0x16, p, m]
  | .setStageLevel p st l => some ([0x17, p, st] ++ put16 l)
  | .setCoupling f l => some [0x18, f, l]
  | .setEmergencyEnable p e => some [0x19, p, e]
  | .release p => some [0x1A, p]
  | .setPlan p s r q b rs ss => some ([0x20, p, s, r, q] ++ put16 b ++ put16 rs ++ put16 ss)
  | .admitRecord sl l a u m o => some ([0x21] ++ put16 sl ++ [l, a] ++ put48 u ++ put16 m ++ [o])
  | .amend sl sel m o pin u => some ([0x22] ++ put16 sl ++ [sel] ++ put16 m ++ [o] ++ put16 pin ++ put48 u)
  | .move a b => some ([0x23] ++ put16 a ++ put16 b)
  | .retire a => some ([0x24] ++ put16 a)
  | .clearFault a => some ([0x25] ++ put16 a)
  | .readRecord a => some ([0x26] ++ put16 a)
  | .find l a => some [0x27, l, a]
  | .findUid u => some ([0x28] ++ put48 u)
  | .list st p sf cf => some ([0x29] ++ put16 st ++ [p, sf, cf])
  | .resweep p => some [0x30, p]
  | .setLine l m => some [0x31, l, m]
  | .readLine l => some [0x32, l]
  | .readStrays l => some [0x33, l]
  | .admitStray l a sl m o => some ([0x34, l, a] ++ put16 sl ++ put16 m ++ [o])
  | .rejectStray l a => some [0x35, l, a]
  | .clearIgnore l => some [0x36, l]
  | .setPriority c p => some [0x40, c, p]
  | .mask c m => some [0x41, c, m]
  | .takeNotice => some [0x42]
  | .finishNotice => some [0x43]
  | .setAutoFinish v => some [0x44, v]
  | .readNotices => some [0x45]
  | .snapshot ps qs => some [0x46, ps, qs]
  | .readSnapshot p => some [0x47, p]
  | .badCommandFrame _ => none
  | .discardedCommandTransfer _ => none
  | .ignoredTransfer _ => none
  | .replyRead _ => none
  | .resetNAsserted => none
  | .resetNRelease _ _ => none
  | .emergNAssertion => none
  | .emergNRelease => none
  | .rampExpiry _ => none
  | .refreshTimerExpiry _ => none
  | .holdTimerExpiry _ => none
  | .pollDue _ => none
  | .pollStart => none
  | .pollCompletion _ _ _ _ _ => none
  | .pollWindowClose => none
  | .quietPeriodEnd _ => none
  | .arbiterGrant _ => none
  | .frameEnd _ => none
  | .replyWindowClose _ => none
  | .replyReceived _ _ => none
  | .replyGapTimeout _ => none
  | .exchangeCompletion _ _ => none
  | .replyBegun _ _ => none
  | .readyRise => none

/-- The bytes that follow the selector 0xA5 when the host sends a command: count, code, payload and check byte
(R163). -/
def Frame.encode (i : Instr) : Option (List Byte) :=
  (Frame.body i).map fun body =>
    let counted := BitVec.ofNat 8 body.length :: body
    counted ++ [crc8 counted]

/-- No row of spec/opcode_table.json gives a command any bits (every row's "fields" is empty and none has "fixed"), so
no word spells one (log 23). -/
def decodeTableWord (_nbits _w : Nat) : Option Instr := none

end Sys2Proof
end

