-- ==== Sys2Proof/Config.lean ====
section
/-! DEFINITION. What the part fixes: capacities, ranges and identity. The spec leaves no value open, so there
is no free value here. -/

namespace Sys2Proof.Config

/-- R56: the roster's record slots. -/
def slots : Nat := 512

/-- R140: entries of an admin queue. -/
def adminCapacity : Nat := 16

/-- R138: addresses of a service set. -/
def serviceCapacity : Nat := 32

/-- R141: entries of a stray queue. -/
def strayCapacity : Nat := 8

/-- R144: addresses of an ignore set. -/
def ignoreCapacity : Nat := 8

/-- R130: the fairness count stays at this value. -/
def fairnessLimit : Nat := 4

/-- Full drive, in units of 0.01 % (00_scope.md section 7). -/
def fullDrive : Nat := 10000

/-- R7: the largest reading kept, in cd/m². -/
def readingMax : Nat := 12000

/-- R5: the largest luminance a VALID reply may carry. -/
def luminanceMax : Nat := 16383

/-- R122: the largest lowest level kept for a driver. -/
def lminMax : Nat := 3000

/-- R170: the part code. -/
def partCode : Nat := 0x0416

/-- R170: the revision. -/
def revision : Nat := 1

end Sys2Proof.Config
end

