-- ==== Sys2Proof/Machine/State.lean ====
section
/-! DEFINITION. Everything the spec gives the OL416 to hold, as plain data, and its power-on values. -/

namespace Sys2Proof.Machine

/-! ## Meter line unit (R1) -/

/-- R1: the four states of a meter table entry. -/
inductive MeterState where
  | unconfigured
  | awaiting
  | online
  | lost
  deriving DecidableEq, Repr

/-- R1, R171: the status a meter's reply carries. -/
inductive MeterStatus where
  | valid
  | warming
  | fault
  deriving DecidableEq, Repr

/-- R1: the address and portal of a configured entry. -/
structure MeterSite where
  address : Nat
  portal : Fin 4
  deriving DecidableEq, Repr

/-- R1: one entry of the meter table. `hold` is the length in seconds of a running hold timer; `due` is R4's mark. -/
structure Meter where
  site : Option MeterSite
  state : MeterState
  reading : Option Nat
  status : Option MeterStatus
  lost : Bool
  hold : Option Nat
  due : Bool
  deriving DecidableEq, Repr

/-- R1: an entry at power-on reset. -/
def Meter.unconfigured : Meter :=
  { site := none, state := .unconfigured, reading := none, status := none, lost := false, hold := none, due := false }

/-! ## Portal controllers (R13, R19, R36) -/

/-- R13: where a portal's Lf comes from. -/
inductive Condition where
  | unset
  | live
  | borrowed
  | fallback
  deriving DecidableEq, Repr

/-- R36: the mode of a portal. -/
inductive Mode where
  | halted
  | auto
  | manual
  | emergency
  deriving DecidableEq, Repr

/-- R36: a return mode, which is never EMERGENCY. -/
inductive ReturnMode where
  | halted
  | auto
  | manual
  deriving DecidableEq, Repr

/-- R36: a mode that START and REQUEST_MODE name. -/
inductive RunMode where
  | auto
  | manual
  deriving DecidableEq, Repr

/-- R19: the fields of a profile. f1 is always 1000 and is not stored. -/
structure Profile where
  kp : Nat
  f2 : Nat
  f3 : Nat
  f4 : Nat
  f5 : Nat
  f6 : Nat
  lmax : Vector Nat 6
  lin : Nat
  dmin : Nat
  w : Nat
  lfb : Nat
  hold : Nat
  boost : Nat
  deriving DecidableEq, Repr

/-- R19: the power-on profile. -/
def Profile.powerOn : Profile :=
  { kp := 60, f2 := 500, f3 := 250, f4 := 120, f5 := 60, f6 := 30, lmax := Vector.replicate 6 20000, lin := 400,
    dmin := 1000, w := 4, lfb := 8000, hold := 10, boost := 200 }

/-- R36: the five settings that SET_RAMP writes. The ramp period is a count of 50 ms steps. -/
structure RampSettings where
  steps : Nat
  up : Nat
  down : Nat
  deadband : Nat
  refresh : Nat
  deriving DecidableEq, Repr

/-- One portal controller: photometry (R13), profiles (R19), the result of the last STAGE_SHORT evaluation (R31) and
the items of R36. `rampTimer` and `refreshTimer` are the length of the running timer, none when it is stopped. -/
structure Portal where
  condition : Condition
  lf : Option Nat
  active : Profile
  pendingProfile : Option Profile
  stageShort : Bool
  mode : Mode
  returnMode : Option ReturnMode
  pendingMode : Option RunMode
  levels : Vector Nat 6
  manual : Vector Nat 6
  ramp : RampSettings
  rampTimer : Option Nat
  refreshTimer : Option Nat
  leader : Option (Fin 4)
  emergencyEnable : Bool
  deriving DecidableEq, Repr

/-- R13, R19, R31, R36: a portal at power-on reset. -/
def Portal.powerOn : Portal :=
  { condition := .unset, lf := none, active := .powerOn, pendingProfile := none, stageShort := false,
    mode := .halted, returnMode := none, pendingMode := none,
    levels := Vector.replicate 6 Config.fullDrive, manual := Vector.replicate 6 Config.fullDrive,
    ramp := { steps := 10, up := 2000, down := 100, deadband := 20, refresh := 60 },
    rampTimer := none, refreshTimer := none, leader := none, emergencyEnable := true }

/-! ## Roster (R56, R61) -/

/-- R56: the fields of a present plan. -/
structure Plan where
  base : Nat
  stages : Nat
  rows : Nat
  positions : Nat
  rowStride : Nat
  stageStride : Nat
  deriving DecidableEq, Repr

/-- R62: the six record states. -/
inductive RecordState where
  | vacant
  | probation
  | active
  | dark
  | silent
  | retiring
  deriving DecidableEq, Repr

/-- R61: the compensation override. -/
inductive Override where
  | auto
  | forceOn
  | forceOff
  deriving DecidableEq, Repr

/-- R61: the fault reasons. -/
inductive FaultReason where
  | open
  | short
  | thermal
  | supply
  deriving DecidableEq, Repr

/-- R63: a place on a lighting line. -/
structure Place where
  line : Line
  address : Nat
  deriving DecidableEq, Repr

/-- R61: one luminaire record. Line and address are absent together, in a VACANT record. -/
structure Record where
  state : RecordState
  place : Option Place
  uid : Nat
  confirmed : Bool
  m : Nat
  override : Override
  capability : Option Bool
  lmin : Nat
  pinned : Option Nat
  fault : Option FaultReason
  misses : Nat
  lastSent : Option Nat
  lastAcked : Option Nat
  changed : Bool
  deriving DecidableEq, Repr

/-- R61: a VACANT record with its changed mark as given. -/
def Record.vacant (changed : Bool) : Record :=
  { state := .vacant, place := none, uid := 0, confirmed := false, m := 1000, override := .auto, capability := none,
    lmin := 0, pinned := none, fault := none, misses := 0, lastSent := none, lastAcked := none, changed := changed }

/-- The 512 record slots as slot and record pairs: slots strictly rising and below 512, and no pair whose record is the
VACANT record with a clear mark, which every unlisted slot holds (log 17). -/
abbrev Roster := List (Nat × Record)

/-! ## Sweep unit (R96) -/

/-- R96: the class of a sweep. -/
inductive SweepClass where
  | normal
  | emergency
  deriving DecidableEq, Repr

/-- R96: a cursor's phase. ON_LINE keeps the slot of its exchange (R102). `onLineRestarted` is ON_LINE after a restart
has placed the cursor at the first slot: the exchange completes without moving it (R107). -/
inductive CursorPhase where
  | waiting
  | onLine (slot : Nat)
  | onLineRestarted
  | passed
  deriving DecidableEq, Repr

/-- R96: a cursor; a position of none is END. -/
structure Cursor where
  position : Option Nat
  phase : CursorPhase
  deriving DecidableEq, Repr

/-- R96: what a RUNNING sweep holds. -/
structure Walk where
  cls : SweepClass
  cursorA : Cursor
  cursorB : Cursor
  deriving DecidableEq, Repr

/-- R96: the sweep of one portal; RUNNING when `running` is present. -/
structure Sweep where
  running : Option Walk
  owed : Bool
  done : Bool
  deriving DecidableEq, Repr

/-- R96: a sweep at power-on reset. -/
def Sweep.powerOn : Sweep := { running := none, owed := false, done := false }

/-! ## Line controllers (R113, R138 to R144) -/

/-- R116: a frame kind, LEVEL with the level it carries. -/
inductive LineFrame where
  | level (value : Nat)
  | identify
  | query
  | forget
  deriving DecidableEq, Repr

/-- R113: who was granted the exchange in flight. -/
inductive Origin where
  | cursor (portal : Fin 4)
  | admin
  | service
  deriving DecidableEq, Repr

/-- R115: the phase of an exchange, with the characters of the reply and of the request slot received so far. -/
inductive Phase where
  | frame
  | window
  | reply (received : List Byte)
  | slot (reply request : List Byte)
  deriving DecidableEq, Repr

/-- R113: an exchange in flight. -/
structure Exchange where
  frame : LineFrame
  address : Nat
  origin : Origin
  phase : Phase
  deriving DecidableEq, Repr

/-- R113: the line state; BUSY while an exchange is in flight. -/
inductive LineState where
  | quiet
  | idle
  | busy (x : Exchange)
  deriving DecidableEq, Repr

/-- R140: the kind of an admin queue entry. -/
inductive AdminKind where
  | identify
  | forget
  deriving DecidableEq, Repr

/-- R140: an admin queue entry. -/
structure AdminEntry where
  kind : AdminKind
  address : Nat
  deriving DecidableEq, Repr

/-- R141: a stray queue entry. -/
structure Stray where
  address : Nat
  uid : Option Nat
  capability : Option Bool
  lmin : Option Nat
  deriving DecidableEq, Repr

/-- R113: one line controller. Queues and sets have their head, or oldest entry, first. -/
structure LineCtl where
  state : LineState
  missLimit : Nat
  fairness : Nat
  normalPointer : Fin 4
  emergencyPointer : Fin 4
  admin : List AdminEntry
  service : List Nat
  strays : List Stray
  ignored : List Nat
  deriving DecidableEq, Repr

/-- R113, R138, R140, R141, R144: a line controller at power-on reset. -/
def LineCtl.powerOn : LineCtl :=
  { state := .quiet, missLimit := 3, fairness := 0, normalPointer := 3, emergencyPointer := 3, admin := [],
    service := [], strays := [], ignored := [] }

/-! ## Notice unit (R150, R153, R156) -/

/-- R150: the settings and marks of a notice class. An event class's holds mark stays clear. -/
structure NoticeClass where
  priority : Nat
  masked : Bool
  pending : Bool
  holds : Bool
  deriving DecidableEq, Repr

/-- R153: an entry of the in-service stack. -/
structure StackEntry where
  cls : Fin 32
  priority : Nat
  deriving DecidableEq, Repr

/-- The notice unit; the stack has its TOP entry first. -/
structure Notices where
  classes : Vector NoticeClass 32
  stack : List StackEntry
  autoFinish : Bool
  deriving DecidableEq, Repr

/-- R158: the notice unit at power-on reset. -/
def Notices.powerOn : Notices :=
  { classes := Vector.replicate 32 { priority := 8, masked := true, pending := false, holds := false },
    stack := [], autoFinish := false }

/-! ## Snapshot buffers (R159) -/

/-- R17, R159: the report of one meter. -/
structure MeterReport where
  meter : Fin 8
  address : Nat
  state : MeterState
  reading : Option Nat
  status : Option MeterStatus
  lost : Bool
  deriving DecidableEq, Repr

/-- R159: the PHOTO part. -/
structure Photo where
  condition : Condition
  lf : Option Nat
  la : Option Nat
  reports : List MeterReport
  deriving DecidableEq, Repr

/-- R159: the OUTPUT part. -/
structure Output where
  mode : Mode
  targets : Vector Nat 6
  levels : Vector Nat 6
  done : Bool
  owed : Bool
  deriving DecidableEq, Repr

/-- R159: the two parts of a portal's snapshot; none is free. -/
structure Snapshot where
  photo : Option Photo
  output : Option Output
  deriving DecidableEq, Repr

/-! ## Command port (R165, R166) -/

/-- R167: a reply's answer code and payload. -/
structure Reply where
  answer : Answer
  payload : List Byte
  deriving DecidableEq, Repr

/-- R165: the port. `preparing` is the reply of a command that is being carried out while READY is low. `ignoring` holds
from a release of RESET_N inside a transfer to the end of that transfer, which is ignored whole (R162; log 26). `miso` is
the model's own record of what MISO carried in the latest transfer, byte by byte (log 7). -/
structure Port where
  ready : Bool
  held : Option Reply
  preparing : Option Reply
  ignoring : Bool
  miso : List Byte
  deriving DecidableEq, Repr

/-! ## The block -/

/-- The whole state of the OL416, and the queue of commands that wait in front of it. -/
structure State where
  /-- The level of RESET_N: false while it is low (R169). -/
  resetN : Bool
  /-- The sampled STRAP3 to STRAP0 as bits 3 to 0 (R169, R170). -/
  straps : BitVec 4
  /-- The level of EMERG_N: true is high (R49). -/
  emergN : Bool
  /-- The meter table (R1). -/
  meters : Vector Meter 8
  /-- The most recently polled meter number (R4). -/
  lastPolled : Option (Fin 8)
  /-- The address of the poll in progress (R4, R5). -/
  poll : Option Nat
  /-- The four portal controllers (R36). -/
  portals : Vector Portal 4
  /-- The four plans (R56). -/
  plans : Vector (Option Plan) 4
  /-- The 512 record slots (R56, R61). -/
  roster : Roster
  /-- The four sweeps (R96). -/
  sweeps : Vector Sweep 4
  /-- Line controller A (R113). -/
  lineA : LineCtl
  /-- Line controller B (R113). -/
  lineB : LineCtl
  /-- The notice unit (R149 to R158). -/
  notices : Notices
  /-- The snapshot buffers (R159). -/
  snapshots : Vector Snapshot 4
  /-- The command port (R165). -/
  port : Port
  /-- The commands that wait, first in first out (log 3). -/
  pending : List Instr
  deriving DecidableEq, Repr

/-- The OL416 while RESET_N is held low: every block at the power-on values its chapter gives (R169; log 4). The straps
are not yet sampled, and EMERG_N is not yet examined: their values here are named in log 5 and log 6. -/
def State.reset : State :=
  { resetN := false, straps := 0, emergN := false,
    meters := Vector.replicate 8 .unconfigured, lastPolled := none, poll := none,
    portals := Vector.replicate 4 .powerOn, plans := Vector.replicate 4 none, roster := [],
    sweeps := Vector.replicate 4 .powerOn, lineA := .powerOn, lineB := .powerOn, notices := .powerOn,
    snapshots := Vector.replicate 4 { photo := none, output := none },
    port := { ready := false, held := none, preparing := none, ignoring := false, miso := [] }, pending := [] }

/-- Why a step stops. The spec names nothing that stops the OL416, so there is no fault: the type is empty, and no
meaning can answer one. -/
inductive Fault where
  deriving DecidableEq, Repr

/-- Why a step is refused. -/
inductive Refusal where
  /-- Raised by exec for a row without a meaning; no arm of this model raises it. Safe: the machine stops. -/
  | notModelled (mnemonic : String)
  deriving DecidableEq, Repr

end Sys2Proof.Machine
end

