-- ==== Sys2Proof/Machine/Ops.lean ====
section
/-! DEFINITION. The named operations over State: one read and one write for each table, the record roster, rounding, and
the bytes of reply fields. -/

namespace Sys2Proof.Machine

/-! ## Reads and writes of the tables -/

/-- A portal controller. -/
def State.portal (s : State) (p : Fin 4) : Portal := s.portals[p]

/-- Write a portal controller. -/
def State.setPortal (s : State) (p : Fin 4) (x : Portal) : State := { s with portals := s.portals.set p x }

/-- A meter table entry. -/
def State.meter (s : State) (m : Fin 8) : Meter := s.meters[m]

/-- Write a meter table entry. -/
def State.setMeter (s : State) (m : Fin 8) (x : Meter) : State := { s with meters := s.meters.set m x }

/-- A portal's plan. -/
def State.plan (s : State) (p : Fin 4) : Option Plan := s.plans[p]

/-- Write a portal's plan. -/
def State.setPlan (s : State) (p : Fin 4) (x : Option Plan) : State := { s with plans := s.plans.set p x }

/-- A portal's sweep. -/
def State.sweep (s : State) (p : Fin 4) : Sweep := s.sweeps[p]

/-- Write a portal's sweep. -/
def State.setSweep (s : State) (p : Fin 4) (x : Sweep) : State := { s with sweeps := s.sweeps.set p x }

/-- A line controller. -/
def State.line (s : State) : Line → LineCtl
  | .a => s.lineA
  | .b => s.lineB

/-- Write a line controller. -/
def State.setLine (s : State) (l : Line) (x : LineCtl) : State :=
  match l with
  | .a => { s with lineA := x }
  | .b => { s with lineB := x }

/-- A notice class. -/
def State.noticeClass (s : State) (c : Fin 32) : NoticeClass := s.notices.classes[c]

/-- Write a notice class. -/
def State.setNoticeClass (s : State) (c : Fin 32) (x : NoticeClass) : State :=
  { s with notices := { s.notices with classes := s.notices.classes.set c x } }

/-- A portal's snapshot buffers. -/
def State.snapshotOf (s : State) (p : Fin 4) : Snapshot := s.snapshots[p]

/-- Write a portal's snapshot buffers. -/
def State.setSnapshot (s : State) (p : Fin 4) (x : Snapshot) : State := { s with snapshots := s.snapshots.set p x }

/-- The portals 0 to 3. -/
def allPortals : List (Fin 4) := [0, 1, 2, 3]

/-- The meter numbers 0 to 7. -/
def allMeters : List (Fin 8) := [0, 1, 2, 3, 4, 5, 6, 7]

/-- The notice classes 0 to 31. -/
def allClasses : List (Fin 32) := List.finRange 32

/-- The two lighting lines. -/
def allLines : List Line := [.a, .b]

/-- Do something for every member of a list, in turn. -/
def forEach {α : Type} (xs : List α) (f : α → State → State) (s : State) : State :=
  xs.foldl (fun s x => f x s) s

/-- Six values, stage 1 first. -/
def six (f : Fin 6 → Nat) : Vector Nat 6 := #v[f 0, f 1, f 2, f 3, f 4, f 5]

/-! ## The record roster (R56, R61) -/

/-- The record of a slot. -/
def rosterGet : Roster → Nat → Record
  | [], _ => .vacant false
  | (k, r) :: rest, n => if k = n then r else rosterGet rest n

/-- Put a record behind a slot in rising order; the VACANT record with a clear mark is not listed. -/
def rosterSet : Roster → Nat → Record → Roster
  | [], n, x => if x = .vacant false then [] else [(n, x)]
  | (k, r) :: rest, n, x =>
    if n < k then (if x = .vacant false then (k, r) :: rest else (n, x) :: (k, r) :: rest)
    else if n = k then (if x = .vacant false then rest else (n, x) :: rest)
    else (k, r) :: rosterSet rest n x

/-- Slots strictly rising, above a bound, and below 512; no listed VACANT record with a clear mark. -/
def rosterWfFrom : Nat → Roster → Bool
  | _, [] => true
  | low, (k, r) :: rest =>
    decide (low ≤ k) && decide (k < Config.slots) && decide (r ≠ Record.vacant false) && rosterWfFrom (k + 1) rest

/-- The canonical form of a roster (log 17). -/
def rosterWf (t : Roster) : Bool := rosterWfFrom 0 t

/-- The record of a slot. -/
def State.record (s : State) (n : Nat) : Record := rosterGet s.roster n

/-- Write the record of a slot; a number above 511 is no slot. -/
def State.setRecord (s : State) (n : Nat) (x : Record) : State :=
  if n < Config.slots then { s with roster := rosterSet s.roster n x } else s

/-- R62: every state other than VACANT. -/
def Record.nonVacant (r : Record) : Bool := r.state != .vacant

/-- The record stands on this line at this address. -/
def Record.at (r : Record) (l : Line) (address : Nat) : Bool := r.nonVacant && r.place == some ⟨l, address⟩

/-- The record stands on this line. -/
def Record.onLine (r : Record) (l : Line) : Bool :=
  match r.place with
  | some q => q.line == l
  | none => false

/-- R118, R77: the slot of the non-vacant record that holds a line and address. -/
def State.lookup (s : State) (l : Line) (address : Nat) : Option Nat :=
  (s.roster.find? fun e => e.2.at l address).map (·.1)

/-- R78: the slot of the non-vacant record that holds a uid. -/
def State.lookupUid (s : State) (uid : Nat) : Option Nat :=
  (s.roster.find? fun e => e.2.nonVacant && e.2.uid == uid).map (·.1)

/-- Some non-vacant record of another slot holds the uid (R124, R67). -/
def State.uidElsewhere (s : State) (n uid : Nat) : Bool :=
  s.roster.any fun e => e.1 != n && e.2.nonVacant && e.2.uid == uid

/-! ## Rounding (00_scope.md section 7) -/

/-- A quotient rounded to the nearest whole number, halves upward. -/
def roundDiv (a b : Nat) : Nat := (2 * a + b) / (2 * b)

/-! ## Reply fields (R171) -/

/-- A number in one byte. -/
def put1 (n : Nat) : List Byte := [BitVec.ofNat 8 n]

/-- A number in two bytes, most significant first. -/
def put2 (n : Nat) : List Byte := put1 (n / 256) ++ put1 n

/-- A number in three bytes, most significant first. -/
def put3 (n : Nat) : List Byte := put1 (n / 65536) ++ put2 n

/-- A number in four bytes, most significant first. -/
def put4 (n : Nat) : List Byte := put2 (n / 65536) ++ put2 n

/-- A number in six bytes, most significant first. -/
def put6 (n : Nat) : List Byte := put2 (n / 4294967296) ++ put4 n

/-- R171: an optional number: a presence byte, then the value at its full width, zeros when absent. -/
def putOpt (width : Nat) (put : Nat → List Byte) : Option Nat → List Byte
  | none => List.replicate (width + 1) 0
  | some n => put1 1 ++ put n

/-- R171: marks and flags. -/
def putFlag (b : Bool) : List Byte := if b then [1] else [0]

/-- R171: the code of a line. -/
def lineCode : Line → Nat
  | .a => 0
  | .b => 1

/-- R171: the code of a record state. -/
def RecordState.code : RecordState → Nat
  | .vacant => 0
  | .probation => 1
  | .active => 2
  | .dark => 3
  | .silent => 4
  | .retiring => 5

/-- R171: the code of a fault reason, 0 when absent. -/
def faultCode : Option FaultReason → Nat
  | none => 0
  | some .open => 1
  | some .short => 2
  | some .thermal => 3
  | some .supply => 4

/-- R171: the code of an override. -/
def Override.code : Override → Nat
  | .auto => 0
  | .forceOn => 1
  | .forceOff => 2

/-- R171: the code of a reported capability. -/
def capabilityCode : Option Bool → Nat
  | none => 0
  | some false => 1
  | some true => 2

/-- R171: the code of a mode. -/
def Mode.code : Mode → Nat
  | .halted => 1
  | .auto => 2
  | .manual => 3
  | .emergency => 4

/-- The mode that a return mode names. -/
def ReturnMode.mode : ReturnMode → Mode
  | .halted => .halted
  | .auto => .auto
  | .manual => .manual

/-- The mode that START or REQUEST_MODE names. -/
def RunMode.mode : RunMode → Mode
  | .auto => .auto
  | .manual => .manual

/-- The return mode that REQUEST_MODE sets in EMERGENCY (R43). -/
def RunMode.returnMode : RunMode → ReturnMode
  | .auto => .auto
  | .manual => .manual

/-- R171: the code of an optional mode, 0 when absent. -/
def modeCode : Option Mode → Nat
  | none => 0
  | some m => m.code

/-- R171: the code of a photometry condition. -/
def Condition.code : Condition → Nat
  | .unset => 0
  | .live => 1
  | .borrowed => 2
  | .fallback => 3

/-- R171: the code of a meter state. -/
def MeterState.code : MeterState → Nat
  | .unconfigured => 0
  | .awaiting => 1
  | .online => 2
  | .lost => 3

/-- R171: the code of a meter's reply status, 0 when absent. -/
def statusCode : Option MeterStatus → Nat
  | none => 0
  | some .valid => 1
  | some .warming => 2
  | some .fault => 3

/-- R167: the answer codes. -/
def answerCode : Answer → Byte
  | .ok => 0x00
  | .clamped => 0x01
  | .badCheck => 0x10
  | .badLength => 0x11
  | .unknownCommand => 0x12
  | .badValue => 0x13
  | .badSlot => 0x20
  | .slotOccupied => 0x21
  | .slotVacant => 0x22
  | .outsidePlan => 0x23
  | .addressInUse => 0x24
  | .uidInUse => 0x25
  | .recordBusy => 0x26
  | .notFound => 0x27
  | .noLine => 0x28
  | .lineBusy => 0x29
  | .portalRunning => 0x30
  | .portalHalted => 0x31
  | .notManual => 0x32
  | .emergencyActive => 0x33
  | .notEmergency => 0x34
  | .stillAsserted => 0x35
  | .planOverlap => 0x36
  | .planOccupied => 0x37
  | .badPlan => 0x38
  | .badProfile => 0x39
  | .badCoupling => 0x3A
  | .meterLimit => 0x3B

/-! ## What a host command gives -/

/-- The outcome of a command's own rule: its reply and the state it leaves. -/
structure Answered where
  reply : Reply
  state : State
  deriving DecidableEq, Repr

/-- R167: a refusal carries no payload and changes no state. -/
def refuse (a : Answer) (s : State) : Answered := { reply := { answer := a, payload := [] }, state := s }

/-- Carried out without a payload; CLAMPED when a value was brought into its range (R167). -/
def done (clamped : Bool) (s : State) : Answered :=
  { reply := { answer := if clamped then .clamped else .ok, payload := [] }, state := s }

/-- Answered OK with a payload. -/
def answer (payload : List Byte) (s : State) : Answered := { reply := { answer := .ok, payload := payload }, state := s }

end Sys2Proof.Machine
end

