-- ==== Sys2Proof/Machine/Operands.lean ====
section
/-! DEFINITION. The operand forms of the host commands: identifiers that are refused outside their ranges and numeric
settings that are clamped (00_scope.md section 7). -/

namespace Sys2Proof.Machine

/-- A portal number 0 to 3. -/
def portalOf (b : Byte) : Option (Fin 4) := if h : b.toNat < 4 then some ⟨b.toNat, h⟩ else none

/-- A meter number 0 to 7. -/
def meterOf (b : Byte) : Option (Fin 8) := if h : b.toNat < 8 then some ⟨b.toNat, h⟩ else none

/-- A stage number 1 to 6, as an index from 0. -/
def stageOf (b : Byte) : Option (Fin 6) :=
  if h : 1 ≤ b.toNat ∧ b.toNat ≤ 6 then some ⟨b.toNat - 1, by omega⟩ else none

/-- A mode byte of START and REQUEST_MODE: 0 = AUTO, 1 = MANUAL. -/
def runModeOf (b : Byte) : Option RunMode :=
  if b = 0 then some .auto else if b = 1 then some .manual else none

/-- A byte that is 0 = off or 1 = on. -/
def switchOf (b : Byte) : Option Bool := if b = 0 then some false else if b = 1 then some true else none

/-- A line byte: 0 = A, 1 = B. -/
def lineOf (b : Byte) : Option Line := if b = 0 then some .a else if b = 1 then some .b else none

/-- A driver address 1 to 254. -/
def addressOf (b : Byte) : Option Nat := if b = 0 ∨ b = 255 then none else some b.toNat

/-- An override byte: 0 = AUTO, 1 = FORCE_ON, 2 = FORCE_OFF. -/
def overrideOf (b : Byte) : Option Override :=
  if b = 0 then some .auto else if b = 1 then some .forceOn else if b = 2 then some .forceOff else none

/-- A slot number 0 to 511. -/
def slotOf (h : Half) : Option Nat := if h.toNat < Config.slots then some h.toNat else none

/-- A value brought to the nearest end of a range. -/
def clamp (low high n : Nat) : Nat := if n < low then low else if high < n then high else n

/-- The value lies outside the range, so that it is clamped. -/
def outside (low high n : Nat) : Bool := decide (n < low) || decide (high < n)

/-- R169: STRAP2 selects whether line B is present. Line A always is. -/
def State.linePresent (s : State) : Line → Bool
  | .a => true
  | .b => s.straps.getLsbD 2

/-- R114, R170: the code of the line rate that STRAP1 and STRAP0 select: 0 is 19200, 1 is 38400, 2 is 9600 bit/s. -/
def State.lineRate (s : State) : Nat :=
  match s.straps.getLsbD 1, s.straps.getLsbD 0 with
  | false, false => 0
  | false, true => 1
  | true, false => 2
  | true, true => 0

/-- R49, R169: EMERG_N is at its active level, which STRAP3 selects (0: low, 1: high). -/
def State.emergAsserted (s : State) : Bool := s.emergN == s.straps.getLsbD 3

/-- R77, R131, R145: a line operand: above 1 is BAD_VALUE, line B while absent is NO_LINE. -/
def presentLine (s : State) (b : Byte) : Except Answer Line :=
  match lineOf b with
  | none => .error .badValue
  | some l => if s.linePresent l then .ok l else .error .noLine

/-! ## Profile values (R19, R21) -/

/-- The values of SET_PROFILE as numbers. -/
def plainProfile (v : RawProfile) : Profile :=
  { kp := v.kp.toNat, f2 := v.f2.toNat, f3 := v.f3.toNat, f4 := v.f4.toNat, f5 := v.f5.toNat, f6 := v.f6.toNat,
    lmax := #v[v.lmax1.toNat, v.lmax2.toNat, v.lmax3.toNat, v.lmax4.toNat, v.lmax5.toNat, v.lmax6.toNat],
    lin := v.lin.toNat, dmin := v.dmin.toNat, w := v.w.toNat, lfb := v.lfb.toNat, hold := v.hold.toNat,
    boost := v.boost.toNat }

/-- R21: every value brought into its range of R19. -/
def Profile.clamped (v : Profile) : Profile :=
  { kp := clamp 20 120 v.kp, f2 := clamp 0 1000 v.f2, f3 := clamp 0 1000 v.f3, f4 := clamp 0 1000 v.f4,
    f5 := clamp 0 1000 v.f5, f6 := clamp 0 1000 v.f6, lmax := six fun i => clamp 100 200000 v.lmax[i],
    lin := clamp 0 2000 v.lin, dmin := clamp 0 3000 v.dmin, w := clamp 1 16 v.w, lfb := clamp 0 12000 v.lfb,
    hold := clamp 2 60 v.hold, boost := clamp 0 500 v.boost }

/-- R20 check 3: no fraction of the list f1 to f6 is greater than the one before it. -/
def Profile.fractionsFall (v : Profile) : Bool :=
  decide (v.f2 ≤ 1000) && decide (v.f3 ≤ v.f2) && decide (v.f4 ≤ v.f3) && decide (v.f5 ≤ v.f4) && decide (v.f6 ≤ v.f5)

/-- R33, R171: the forty bytes of a stored profile, in the order SET_PROFILE carries them. -/
def Profile.bytes (v : Profile) : List Byte :=
  put2 v.kp ++ put2 v.f2 ++ put2 v.f3 ++ put2 v.f4 ++ put2 v.f5 ++ put2 v.f6
    ++ put3 v.lmax[0] ++ put3 v.lmax[1] ++ put3 v.lmax[2] ++ put3 v.lmax[3] ++ put3 v.lmax[4] ++ put3 v.lmax[5]
    ++ put2 v.lin ++ put2 v.dmin ++ put1 v.w ++ put2 v.lfb ++ put1 v.hold ++ put2 v.boost

end Sys2Proof.Machine
end

