-- ==== Sys2Proof/Machine/Flags.lean ====
section
/-! DEFINITION. The block's flags: the notice classes with their marks (R149 to R153), and the assertion of
NOTIFY_N. -/

namespace Sys2Proof.Machine

/-! ## Class numbers (R149) -/

/-- R149: class 6p + k belongs to portal p. -/
def portalClass (p : Fin 4) (k : Fin 6) : Fin 32 := ⟨6 * p.val + k.val, by omega⟩

/-- R149: class 24 + 4l + k belongs to line l. -/
def lineClass (l : Line) (k : Fin 4) : Fin 32 :=
  match l with
  | .a => ⟨24 + k.val, by omega⟩
  | .b => ⟨28 + k.val, by omega⟩

/-- PHOTOMETRY of a portal, a condition. -/
def photometryClass (p : Fin 4) : Fin 32 := portalClass p 0

/-- METER_LOST of a portal, an event. -/
def meterLostClass (p : Fin 4) : Fin 32 := portalClass p 1

/-- STAGE_SHORT of a portal, a condition. -/
def stageShortClass (p : Fin 4) : Fin 32 := portalClass p 2

/-- SWEEP_DONE of a portal, an event. -/
def sweepDoneClass (p : Fin 4) : Fin 32 := portalClass p 3

/-- MODE_SETTLED of a portal, an event. -/
def modeSettledClass (p : Fin 4) : Fin 32 := portalClass p 4

/-- EMERGENCY of a portal, a condition. -/
def emergencyClass (p : Fin 4) : Fin 32 := portalClass p 5

/-- STRAY of a line, a condition. -/
def strayClass (l : Line) : Fin 32 := lineClass l 0

/-- The event classes of a line. -/
inductive LineEvent where
  | replaced
  | fault
  | silent
  deriving DecidableEq, Repr

/-- REPLACED, FAULT or SILENT of a line. -/
def lineEventClass (l : Line) : LineEvent → Fin 32
  | .replaced => lineClass l 1
  | .fault => lineClass l 2
  | .silent => lineClass l 3

/-- R149: the class is a condition class. -/
def isCondition (c : Fin 32) : Bool :=
  if c.val < 24 then c.val % 6 == 0 || c.val % 6 == 2 || c.val % 6 == 5 else c.val % 4 == 0

/-! ## What a block hands to the notice unit (R152) -/

/-- R152: an event makes its class pending; a pending class merges it. -/
def handEvent (c : Fin 32) (s : State) : State := s.setNoticeClass c { s.noticeClass c with pending := true }

/-- R152: a condition handed as true sets the holds mark and makes the class pending; handed while the holds mark is
set already, it changes nothing further. -/
def handTrue (c : Fin 32) (s : State) : State :=
  if (s.noticeClass c).holds then s
  else s.setNoticeClass c { s.noticeClass c with holds := true, pending := true }

/-- R152: a condition handed as false clears the holds mark and withdraws the pending mark. -/
def handFalse (c : Fin 32) (s : State) : State :=
  s.setNoticeClass c { s.noticeClass c with holds := false, pending := false }

/-- A condition handed as true or as false. -/
def handCondition (c : Fin 32) (holds : Bool) (s : State) : State := if holds then handTrue c s else handFalse c s

/-! ## Eligibility and NOTIFY_N (R153) -/

/-- R153: the priority of the top entry, and 0 when the stack is empty. -/
def topPriority (s : State) : Nat :=
  match s.notices.stack with
  | [] => 0
  | e :: _ => e.priority

/-- R153: an entry of the class is on the stack. -/
def inService (s : State) (c : Fin 32) : Bool := s.notices.stack.any fun e => e.cls == c

/-- R153: pending, unmasked, not in service and of a priority above the top taken priority. -/
def eligible (s : State) (c : Fin 32) : Bool :=
  (s.noticeClass c).pending && !(s.noticeClass c).masked && !inService s c
    && decide (topPriority s < (s.noticeClass c).priority)

/-- R153: NOTIFY_N is asserted while at least one class is eligible. -/
def notifyAsserted (s : State) : Bool := allClasses.any fun c => eligible s c

/-- R154: of two eligible classes, the one of higher priority; of equal ones, the lower number. -/
def betterClass (s : State) (best : Option (Fin 32)) (c : Fin 32) : Option (Fin 32) :=
  if eligible s c then
    match best with
    | none => some c
    | some b => if (s.noticeClass b).priority < (s.noticeClass c).priority then some c else some b
  else best

/-- R154: the eligible class of highest priority, and of those the lowest number. -/
def pickClass (s : State) : Option (Fin 32) := allClasses.foldl (betterClass s) none

end Sys2Proof.Machine
end

