-- ==== Sys2Proof/Machine/Plans.lean ====
section
/-! DEFINITION. Plans, footprints and coordinates (R56, R57), and the neighbours of a record (R91). Stages are counted
from 0 here; stage index 0 is the manual's stage 1. -/

namespace Sys2Proof.Machine

/-- Where a slot hangs: stage index, row and position. -/
structure Coords where
  stage : Nat
  row : Nat
  position : Nat
  deriving DecidableEq, Repr

/-- R56: base + (s − 1) × stage stride + r × row stride + p. -/
def Plan.slotAt (q : Plan) (c : Coords) : Nat :=
  q.base + c.stage * q.stageStride + c.row * q.rowStride + c.position

/-- R57: the stage, row and position whose slot of R56 is n, if the plan's footprint holds it. Strides are never below
their minimums, so quotients and remainders find them. -/
def Plan.coords (q : Plan) (n : Nat) : Option Coords :=
  if n < q.base then none
  else
    let stage := (n - q.base) / q.stageStride
    let inStage := (n - q.base) % q.stageStride
    let row := inStage / q.rowStride
    let position := inStage % q.rowStride
    if stage < q.stages ∧ row < q.rows ∧ position < q.positions then some ⟨stage, row, position⟩ else none

/-- R56: the least stage stride. -/
def Plan.leastStageStride (q : Plan) : Nat := (q.rows - 1) * q.rowStride + q.positions

/-- R57: the highest slot of the footprint. -/
def Plan.highest (q : Plan) : Nat :=
  q.base + (q.stages - 1) * q.stageStride + (q.rows - 1) * q.rowStride + (q.positions - 1)

/-- R58 check 4, for S from 1 to 6: the geometry of a plan that SET_PLAN takes. -/
def Plan.wf (q : Plan) : Bool :=
  decide (1 ≤ q.stages) && decide (q.stages ≤ 6) && decide (1 ≤ q.rows) && decide (q.rows ≤ 8)
    && decide (1 ≤ q.positions) && decide (q.positions ≤ 64) && decide (q.base < Config.slots)
    && decide (q.positions ≤ q.rowStride) && decide (q.leastStageStride ≤ q.stageStride)
    && decide (q.highest < Config.slots)

/-- The slot lies in the plan's footprint. -/
def Plan.holds (q : Plan) (n : Nat) : Bool := (q.coords n).isSome

/-- R58 check 5: the footprints share a slot. -/
def Plan.overlaps (q r : Plan) : Bool := (List.range Config.slots).any fun n => q.holds n && r.holds n

/-- R57: the slot lies in the footprint of the portal's plan. -/
def inFootprint (s : State) (p : Fin 4) (n : Nat) : Bool :=
  match s.plan p with
  | none => false
  | some q => q.holds n

/-- R57: the portal whose footprint holds the slot. -/
def portalOfSlot (s : State) (n : Nat) : Option (Fin 4) := allPortals.find? fun p => inFootprint s p n

/-- R57: a slot's portal and coordinates. -/
def placeOfSlot (s : State) (n : Nat) : Option (Fin 4 × Coords) :=
  match portalOfSlot s n with
  | none => none
  | some p =>
    match s.plan p with
    | none => none
    | some q => (q.coords n).map fun c => (p, c)

/-- R56: the stage count S of a portal, 0 when its plan is absent. -/
def stageCount (s : State) (p : Fin 4) : Nat :=
  match s.plan p with
  | none => 0
  | some q => q.stages

/-- R60: the number of non-vacant records in a portal's footprint. -/
def occupied (s : State) (p : Fin 4) : Nat :=
  (s.roster.filter fun e => e.2.nonVacant && inFootprint s p e.1).length

/-- R60: the number of ACTIVE records in a portal's footprint. -/
def activeCount (s : State) (p : Fin 4) : Nat :=
  (s.roster.filter fun e => e.2.state == .active && inFootprint s p e.1).length

/-! ## Neighbours (R91) -/

/-- R91: the non-vacant record at the highest position below the record's own in its row. -/
def lowerNeighbour (s : State) (q : Plan) (c : Coords) : Option Record :=
  ((List.range c.position).reverse.map fun p => s.record (q.slotAt { c with position := p })).find? Record.nonVacant

/-- R91: the non-vacant record at the lowest position above the record's own in its row. -/
def upperNeighbour (s : State) (q : Plan) (c : Coords) : Option Record :=
  ((List.range (q.positions - (c.position + 1))).map fun k =>
    s.record (q.slotAt { c with position := c.position + 1 + k })).find? Record.nonVacant

/-- R90: DARK, SILENT and RETIRING count as dark for neighbours. -/
def RecordState.countsDark : RecordState → Bool
  | .dark => true
  | .silent => true
  | .retiring => true
  | .vacant => false
  | .probation => false
  | .active => false

/-- R90: at least one neighbour counts as dark. -/
def hasDarkNeighbour (s : State) (q : Plan) (c : Coords) : Bool :=
  [lowerNeighbour s q c, upperNeighbour s q c].any fun n =>
    match n with
    | none => false
    | some r => r.state.countsDark

end Sys2Proof.Machine
end

