-- ==== Sys2Proof/Machine/Drive.lean ====
section
/-! DEFINITION. The drive computation (R25 to R29), the STAGE_SHORT condition (R30, R31), the commit of a pending profile
(R23) and the ramp step (R41). Stage index 0 is the manual's stage 1. -/

namespace Sys2Proof.Machine

/-- R19: the stage fraction fs; f1 is 1000. -/
def Profile.fraction (v : Profile) (i : Fin 6) : Nat := #v[1000, v.f2, v.f3, v.f4, v.f5, v.f6][i]

/-- R26: Lth = Lf × kp / 10, rounded. -/
def threshold (v : Profile) (lf : Nat) : Nat := roundDiv (lf * v.kp) 10

/-- R27: Ls = Lth × fs / 1000, rounded, or Lin if that is larger. -/
def stageLuminance (v : Profile) (lf : Nat) (i : Fin 6) : Nat :=
  max (roundDiv (threshold v lf * v.fraction i) 1000) v.lin

/-- R28: the unclamped drive u = Ls × 10000 / Lmax_s, rounded. -/
def unclampedDrive (v : Profile) (lf : Nat) (i : Fin 6) : Nat :=
  roundDiv (stageLuminance v lf i * 10000) v.lmax[i]

/-- R28: u raised to dmin and lowered to 10000. -/
def drive (v : Profile) (lf : Nat) (i : Fin 6) : Nat := clamp v.dmin Config.fullDrive (unclampedDrive v lf i)

/-- R25, R28, R29: the stage target ds of a portal as its inputs stand. -/
def Portal.target (x : Portal) (i : Fin 6) : Nat :=
  match x.lf with
  | none => Config.fullDrive
  | some lf => drive x.active lf i

/-- R30: stage index i is short, for a plan of S stages. -/
def Portal.stageIsShort (x : Portal) (stages : Nat) (i : Fin 6) : Bool :=
  match x.lf with
  | none => false
  | some lf => decide (i.val < stages) && decide (Config.fullDrive < unclampedDrive x.active lf i)

/-- The six stages, by index. -/
def allStages : List (Fin 6) := [0, 1, 2, 3, 4, 5]

/-- R30: the STAGE_SHORT condition of a portal. -/
def shortHolds (s : State) (p : Fin 4) : Bool :=
  allStages.any fun i => (s.portal p).stageIsShort (stageCount s p) i

/-- R31: evaluate STAGE_SHORT again; a result that differs from the one before is handed to the notice unit. -/
def evalStageShort (p : Fin 4) (s : State) : State :=
  let now := shortHolds s p
  if now = (s.portal p).stageShort then s
  else handCondition (stageShortClass p) now (s.setPortal p { s.portal p with stageShort := now })

/-- R23, R24: the pending profile, if there is one, becomes the active profile, and STAGE_SHORT is evaluated again. -/
def commitProfile (p : Fin 4) (s : State) : State :=
  match (s.portal p).pendingProfile with
  | none => s
  | some v => evalStageShort p (s.setPortal p { s.portal p with active := v, pendingProfile := none })

/-! ## The ramp step (R41) -/

/-- R41: the new level of a stage. `low` and 10000 are the range ends. -/
def stepLevel (r : RampSettings) (low target level : Nat) : Nat :=
  if target ≠ low ∧ target ≠ Config.fullDrive ∧ level - target + (target - level) ≤ r.deadband then level
  else if level < target then min target (level + r.up)
  else if target < level then max target (level - r.down)
  else level

/-- R41: the target and the lower range end of stage index i in the portal's mode. -/
def Portal.rampTarget (x : Portal) (i : Fin 6) : Nat × Nat :=
  if x.mode = .manual then (x.manual[i], 0) else (x.target i, x.active.dmin)

/-- R41: the six levels after one step. -/
def Portal.steppedLevels (x : Portal) : Vector Nat 6 :=
  six fun i => stepLevel x.ramp (x.rampTarget i).2 (x.rampTarget i).1 x.levels[i]

end Sys2Proof.Machine
end

