-- ==== Sys2Proof/Machine/Sweeps.lean ====
section
/-! DEFINITION. The sweep unit (R96 to R109): requests, starts, restarts, the walk, ends and abandonment. -/

namespace Sys2Proof.Machine

/-! ## The walk (R100, R101) -/

/-- The frame a sweep sends (R101). -/
inductive SweepFrame where
  | identify
  | level
  deriving DecidableEq, Repr

/-- R101: the frame that a record's state calls for; none when the record is passed over. -/
def Record.sweepFrame (r : Record) : Option SweepFrame :=
  match r.state with
  | .probation => some .identify
  | .active => some .level
  | .silent => some .level
  | .dark =>
    match r.fault with
    | some .thermal => some .level
    | some .supply => some .level
    | some .open => none
    | some .short => none
    | none => none
  | .retiring => none
  | .vacant => none

/-- R101: the record is eligible for the cursor of a line. -/
def Record.eligibleOn (r : Record) (l : Line) : Bool := r.onLine l && r.sweepFrame.isSome

/-- R100: the first slot of the footprint, at or ahead of a position, that holds an eligible record of the line. The
roster lists its slots in rising order, which is walk order. -/
def waitingSlot (s : State) (p : Fin 4) (l : Line) (position : Nat) : Option Nat :=
  (s.roster.find? fun e => decide (position ≤ e.1) && e.2.eligibleOn l && inFootprint s p e.1).map (·.1)

/-- R103: the slot that follows in walk order, or END. -/
def nextPosition (s : State) (p : Fin 4) (slot : Nat) : Option Nat :=
  (List.range Config.slots).find? fun n => decide (slot < n) && inFootprint s p n

/-- R100: a cursor that has passed the last slot. -/
def Cursor.passed : Cursor := { position := none, phase := .passed }

/-- A cursor that looks for its next record from a position (R100); from END it is PASSED. -/
def Cursor.from : Option Nat → Cursor
  | none => .passed
  | some n => { position := some n, phase := .waiting }

/-- The cursor of a line. -/
def Walk.cursor (w : Walk) : Line → Cursor
  | .a => w.cursorA
  | .b => w.cursorB

/-- Write the cursor of a line. -/
def Walk.setCursor (w : Walk) (l : Line) (c : Cursor) : Walk :=
  match l with
  | .a => { w with cursorA := c }
  | .b => { w with cursorB := c }

/-- R100: a WAITING cursor with no waiting slot becomes PASSED. -/
def settledCursor (s : State) (p : Fin 4) (l : Line) (c : Cursor) : Cursor :=
  match c.phase with
  | .waiting =>
    match c.position with
    | none => .passed
    | some n => if (waitingSlot s p l n).isSome then c else .passed
  | .onLine _ => c
  | .onLineRestarted => c
  | .passed => c

/-- R100: find the phases of both cursors of a RUNNING sweep from the roster as it stands. -/
def settleCursors (p : Fin 4) (s : State) : State :=
  match (s.sweep p).running with
  | none => s
  | some w =>
    s.setSweep p { s.sweep p with
      running := some { w with cursorA := settledCursor s p .a w.cursorA, cursorB := settledCursor s p .b w.cursorB } }

/-- R106: both cursors of a RUNNING sweep are PASSED. -/
def bothPassed (s : State) (p : Fin 4) : Bool :=
  match (s.sweep p).running with
  | none => false
  | some w => w.cursorA.phase == .passed && w.cursorB.phase == .passed

/-! ## Start, restart and end (R99, R106, R107) -/

/-- The first slot of the walk, END for a portal with no plan. -/
def firstPosition (s : State) (p : Fin 4) : Option Nat :=
  match s.plan p with
  | none => none
  | some q => some q.base

/-- R99 step 4, R107: a cursor placed at the first slot. A cursor that is ON_LINE keeps its exchange, which will not
move it. -/
def placedCursor (first : Option Nat) (old : Option Cursor) : Cursor :=
  match old with
  | none => .from first
  | some c =>
    match c.phase with
    | .onLine _ => { position := first, phase := .onLineRestarted }
    | .onLineRestarted => { position := first, phase := .onLineRestarted }
    | .waiting => .from first
    | .passed => .from first

/-- R99 steps 1 to 4, and R107 for a sweep that is RUNNING: class, sweep-done flag, refresh timer and cursors. -/
def beginSweep (cls : SweepClass) (p : Fin 4) (s : State) : State :=
  let first := firstPosition s p
  let old := (s.sweep p).running
  let walk : Walk := { cls := cls, cursorA := placedCursor first (old.map (·.cursorA)),
                       cursorB := placedCursor first (old.map (·.cursorB)) }
  let timed := s.setPortal p { s.portal p with refreshTimer := some (s.portal p).ramp.refresh }
  settleCursors p (timed.setSweep p { s.sweep p with running := some walk, done := false })

/-- R106 steps 1 and 2: the sweep becomes IDLE, the sweep-done flag is set and SWEEP_DONE is handed over. -/
def closeSweep (p : Fin 4) (s : State) : State :=
  handEvent (sweepDoneClass p) (s.setSweep p { s.sweep p with running := none, done := true })

/-- R106 for a sweep whose owed flag is clear: it ends if both cursors are PASSED. -/
def closeIfPassed (p : Fin 4) (s : State) : State := if bothPassed s p then closeSweep p s else s

/-- R106 step 3: an owed flag is cleared, and a NORMAL sweep starts at once unless the portal is HALTED; it may end as
it starts (R99 step 5). -/
def startOwed (p : Fin 4) (s : State) : State :=
  if (s.sweep p).owed then
    let cleared := s.setSweep p { s.sweep p with owed := false }
    if (s.portal p).mode = .halted then cleared else closeIfPassed p (beginSweep .normal p cleared)
  else s

/-- R106: the end of a RUNNING sweep whose cursors are both PASSED. -/
def endIfPassed (p : Fin 4) (s : State) : State := if bothPassed s p then startOwed p (closeSweep p s) else s

/-- R99: start a sweep. -/
def startSweep (cls : SweepClass) (p : Fin 4) (s : State) : State := endIfPassed p (beginSweep cls p s)

/-- R107: restart a RUNNING sweep as an EMERGENCY sweep, its owed flag cleared. -/
def restartSweep (p : Fin 4) (s : State) : State :=
  endIfPassed p (beginSweep .emergency p (s.setSweep p { s.sweep p with owed := false }))

/-! ## Requests (R98) -/

/-- R98: a request without the emergency mark. -/
def requestSweep (p : Fin 4) (s : State) : State :=
  if (s.portal p).mode = .halted then s
  else match (s.sweep p).running with
    | none => startSweep .normal p s
    | some _ => s.setSweep p { s.sweep p with owed := true }

/-- R98: a request with the emergency mark. -/
def requestEmergencySweep (p : Fin 4) (s : State) : State :=
  match (s.sweep p).running with
  | none => startSweep .emergency p s
  | some _ => restartSweep p s

/-- R97: a request that arises from a record is made to the portal whose footprint holds the record's slot. -/
def requestForSlot (n : Nat) (s : State) : State :=
  match portalOfSlot s n with
  | none => s
  | some p => requestSweep p s

/-- R100, R106: after the roster has changed, the cursors of every RUNNING sweep follow at once, and a sweep whose cursors
are both PASSED ends. A sweep request of the same change has been taken before (R104; log 10). -/
def settleSweeps (s : State) : State := forEach allPortals (fun p s => endIfPassed p (settleCursors p s)) s

/-! ## Completion and abandonment (R103, R107, R108) -/

/-- R103, R107: the cursor of a portal on a line at the completion of its exchange: one that is ON_LINE moves to the slot
after the slot of its exchange; one that a restart placed anew has its phase found from there; any other stays. -/
def cursorCompleted (p : Fin 4) (l : Line) (s : State) : State :=
  match (s.sweep p).running with
  | none => s
  | some w =>
    let c := w.cursor l
    match c.phase with
    | .onLine slot =>
      s.setSweep p { s.sweep p with running := some (w.setCursor l (.from (nextPosition s p slot))) }
    | .onLineRestarted =>
      s.setSweep p { s.sweep p with running := some (w.setCursor l (.from c.position)) }
    | .waiting => s
    | .passed => s

/-- R108: abandon a RUNNING sweep. -/
def abandonSweep (p : Fin 4) (s : State) : State :=
  match (s.sweep p).running with
  | none => s
  | some _ => s.setSweep p { s.sweep p with running := none, owed := false }

end Sys2Proof.Machine
end

