-- ==== Sys2Proof/Machine/Photometry.lean ====
section
/-! DEFINITION. The combination and smoothing of readings (R11, R12) and the photometry condition with its entry actions
(R13 to R16). -/

namespace Sys2Proof.Machine

/-- The entry is configured and its portal field names the portal. -/
def Meter.owns (x : Meter) (p : Fin 4) : Bool :=
  match x.site with
  | some q => q.portal == p
  | none => false

/-- Chapter 1.1: a portal's own meters, in increasing meter number. -/
def ownMeters (s : State) (p : Fin 4) : List (Fin 8) := allMeters.filter fun m => (s.meter m).owns p

/-- At least one own meter is in the state. -/
def anyOwn (s : State) (p : Fin 4) (st : MeterState) : Bool := (ownMeters s p).any fun m => (s.meter m).state == st

/-- The larger of two readings, of which either may be absent. -/
def maxReading : Option Nat → Option Nat → Option Nat
  | none, r => r
  | some a, none => some a
  | some a, some b => some (max a b)

/-- R11: La, the largest latest valid reading among the portal's ONLINE meters; absent when there is none. -/
def approach (s : State) (p : Fin 4) : Option Nat :=
  (ownMeters s p).foldl
    (fun best m => if (s.meter m).state = .online then maxReading best (s.meter m).reading else best) none

/-- R12: Lf after one filter step toward La with smoothing weight w. -/
def filterStep (w : Nat) (lf : Option Nat) (la : Nat) : Nat :=
  match lf with
  | none => la
  | some lf => if lf ≤ la then lf + ((la - lf) * w + 8) / 16 else lf - ((lf - la) * w + 8) / 16

/-- R13: the portal is a follower and its leader is LIVE. -/
def leaderLive (s : State) (p : Fin 4) : Bool :=
  match (s.portal p).leader with
  | none => false
  | some q => (s.portal q).condition == .live

/-- R13: the first row of the table that applies. -/
def conditionNow (s : State) (p : Fin 4) : Condition :=
  if anyOwn s p .online then .live
  else if leaderLive s p then .borrowed
  else if anyOwn s p .awaiting then .unset
  else .fallback

/-- R15: the leader's Lf. -/
def leaderLf (s : State) (p : Fin 4) : Option Nat :=
  match (s.portal p).leader with
  | none => none
  | some q => (s.portal q).lf

/-- R14 to R16: Lf after the entry into a condition. -/
def lfOnEntry (s : State) (p : Fin 4) : Condition → Option Nat
  | .live => (s.portal p).lf
  | .unset => none
  | .borrowed =>
    match (s.portal p).lf with
    | some lf => some lf
    | none => leaderLf s p
  | .fallback =>
    match (s.portal p).lf with
    | some lf => some (max lf (s.portal p).active.lfb)
    | none => some (s.portal p).active.lfb

/-- R16: entry into FALLBACK hands PHOTOMETRY as true, leaving FALLBACK hands it as false. -/
def handPhotometry (p : Fin 4) (old new : Condition) (s : State) : State :=
  if new = .fallback then handTrue (photometryClass p) s
  else if old = .fallback then handFalse (photometryClass p) s
  else s

/-- R13: evaluate a portal's condition; a result that differs from the condition held is entered (R14 to R16), and
STAGE_SHORT is evaluated again (R31). -/
def evalOwnCondition (p : Fin 4) (s : State) : State :=
  let now := conditionNow s p
  let old := (s.portal p).condition
  if now = old then s
  else
    evalStageShort p
      (handPhotometry p old now (s.setPortal p { s.portal p with condition := now, lf := lfOnEntry s p now }))

/-- R47: the portals whose coupling leader is p. -/
def followers (s : State) (p : Fin 4) : List (Fin 4) := allPortals.filter fun q => (s.portal q).leader == some p

/-- R13: a change of a leader's condition evaluates each of its followers. -/
def evalFollowers (p : Fin 4) (s : State) : State := forEach (followers s p) evalOwnCondition s

/-- R13: evaluate a portal, and its followers when its condition changed. -/
def evalCondition (p : Fin 4) (s : State) : State :=
  let s' := evalOwnCondition p s
  if (s'.portal p).condition = (s.portal p).condition then s' else evalFollowers p s'

/-- R12, R15: revise a portal's Lf toward a reading La with the portal's own w, and evaluate STAGE_SHORT (R31). -/
def revise (p : Fin 4) (la : Option Nat) (s : State) : State :=
  match la with
  | none => s
  | some la =>
    evalStageShort p
      (s.setPortal p { s.portal p with lf := some (filterStep (s.portal p).active.w (s.portal p).lf la) })

/-- R15: the followers that are BORROWED filter toward the leader's La. -/
def reviseFollowers (p : Fin 4) (la : Option Nat) (s : State) : State :=
  forEach (followers s p) (fun q s => if (s.portal q).condition = .borrowed then revise q la s else s) s

/-- R7: a valid reading arrival at a portal: its condition is evaluated, its Lf filtered while it is LIVE, then its
followers are evaluated when its condition changed, and the BORROWED ones filter from the same arrival. -/
def readingArrival (p : Fin 4) (s : State) : State :=
  let s₁ := evalOwnCondition p s
  let la := approach s₁ p
  let s₂ := if (s₁.portal p).condition = .live then revise p la s₁ else s₁
  let s₃ := if (s₁.portal p).condition = (s.portal p).condition then s₂ else evalFollowers p s₂
  reviseFollowers p la s₃

/-- R17: the report of one meter. -/
def meterReport (s : State) (m : Fin 8) : MeterReport :=
  let x := s.meter m
  { meter := m, address := (x.site.map (·.address)).getD 0, state := x.state, reading := x.reading, status := x.status,
    lost := x.lost }

/-- R17, R159: the photometric part of a portal. -/
def photoOf (s : State) (p : Fin 4) : Photo :=
  { condition := (s.portal p).condition, lf := (s.portal p).lf, la := approach s p,
    reports := (ownMeters s p).map (meterReport s) }

/-- R171: the bytes of a meter report. -/
def MeterReport.bytes (r : MeterReport) : List Byte :=
  put1 r.meter.val ++ put1 r.address ++ put1 r.state.code ++ putOpt 2 put2 r.reading ++ put1 (statusCode r.status)
    ++ putFlag r.lost

/-- R171: the bytes of a photometric part. -/
def Photo.bytes (x : Photo) : List Byte :=
  put1 x.condition.code ++ putOpt 2 put2 x.lf ++ putOpt 2 put2 x.la ++ put1 x.reports.length
    ++ x.reports.flatMap MeterReport.bytes

/-- R10: clear the sticky lost flags of the meters that a photometric part reports set. -/
def clearReported (x : Photo) (s : State) : State :=
  forEach x.reports (fun r s => if r.lost then s.setMeter r.meter { s.meter r.meter with lost := false } else s) s

end Sys2Proof.Machine
end

