-- ==== Sys2Proof/Machine/Port.lean ====
section
/-! DEFINITION. The command port (R162 to R166): taking a command, the held reply, READY and MISO. -/

namespace Sys2Proof.Machine

/-- R169: while RESET_N is low every block holds its power-on values, so nothing but its release changes the state
(log 4). -/
def powered (s : State) (f : State → State) : State := if s.resetN then f s else s

/-- The bytes MISO carries in a command transfer and in an ignored transfer (R162). -/
def zeros (n : Nat) : List Byte := List.replicate n 0

/-- R162: an ignored transfer changes neither the held reply nor READY; MISO carries 0x00. Its end is the rise of CS_N,
with which a transfer that was in progress at the release of RESET_N is over. -/
def ignoreTransfer (length : Nat) (s : State) : State :=
  { s with port := { s.port with ignoring := false, miso := zeros length } }

/-- R162: a transfer of so many bytes, with what it does at the rise of CS_N; one that was already in progress when
RESET_N was released is ignored whole (log 26). -/
def transfer (length : Nat) (f : State → State) (s : State) : State :=
  powered s fun s => if s.port.ignoring then ignoreTransfer length s else f s

/-- R165: a command transfer begun while READY is low is discarded whole; MISO carries 0x00. -/
def discard (length : Nat) (s : State) : State := { s with port := { s.port with miso := zeros length } }

/-- R165: the port after a command transfer that is taken: READY is low, the earlier reply is discarded, and the
command's reply is in preparation. -/
def prepare (length : Nat) (r : Answered) : State :=
  { r.state with
    port := { ready := false, held := none, preparing := some r.reply, ignoring := false, miso := zeros length } }

/-- R165: a command transfer of so many bytes: taken while READY is high, discarded while it is low. -/
def takeTransfer (length : Nat) (work : State → Answered) (s : State) : State :=
  transfer length (fun s => if s.port.ready then prepare length (work s) else discard length s) s

/-- The bytes of a command transfer: the selector, the count, the code, the payload and the check byte (R162, R163). -/
def transferLength (payload : Nat) : Nat := payload + 4

/-- A host command whose whole frame has been taken: its own rule gives the answer (R163, R165). -/
def takeCommand (payload : Nat) (work : State → Answered) (s : State) : Host.Outcome State Fault Refusal :=
  .next (takeTransfer (transferLength payload) work s)

/-- An event of the block itself: it runs while RESET_N is high. -/
def event (f : State → State) (s : State) : Host.Outcome State Fault Refusal := .next (powered s f)

/-- R166: the bytes of a reply frame: count, answer code, payload and check byte (R164). -/
def Reply.bytes (r : Reply) : List Byte :=
  let counted := BitVec.ofNat 8 (r.payload.length + 1) :: answerCode r.answer :: r.payload
  counted ++ [crc8 counted]

/-- R166: what a reply read sends after the selector byte, so many bytes of it: the frame, then 0x00. -/
def misoAfter (frame : List Byte) (clocked : Nat) : List Byte := (frame ++ zeros clocked).take clocked

/-- R166: what a reply read does. The held reply is discarded once its whole check byte has been clocked out; with no held reply,
or with READY low, the empty reply is sent. -/
def replyReadPort (clocked : Nat) (s : State) : State :=
  match s.port.ready, s.port.held with
  | true, some r =>
    { s with port := { s.port with held := if r.bytes.length ≤ clocked then none else some r,
                                   miso := 0 :: misoAfter r.bytes clocked } }
  | _, _ => { s with port := { s.port with miso := zeros (clocked + 1) } }

/-- R165: READY rises when the command's reply is held. -/
def raiseReady (s : State) : State :=
  match s.port.ready, s.port.preparing with
  | false, some r => { s with port := { s.port with ready := true, held := some r, preparing := none } }
  | _, _ => s

/-- R162, R166: a reply read, with the bytes clocked out after the selector. -/
def replyTransfer (clocked : Nat) (s : State) : State := transfer (clocked + 1) (replyReadPort clocked) s

/-- REPLY_READ (R166). -/
def execReplyRead (clocked : Nat) (s : State) : Host.Outcome State Fault Refusal := .next (replyTransfer clocked s)

/-- READY_RISE (R165). -/
def execReadyRise (s : State) : Host.Outcome State Fault Refusal := event raiseReady s

/-- R170: the seven bytes of READ_IDENT. -/
def identBytes (s : State) : List Byte :=
  put2 Config.partCode ++ put1 Config.revision ++ put1 s.straps.toNat ++ put1 s.lineRate ++ putFlag (s.linePresent .b)
    ++ putFlag (s.straps.getLsbD 3)

/-- READ_IDENT's own rule (R170). -/
def readIdent (s : State) : Answered := answer (identBytes s) s

/-- READ_IDENT (R170). -/
def execReadIdent (s : State) : Host.Outcome State Fault Refusal := takeCommand 0 readIdent s

end Sys2Proof.Machine
end

