-- ==== Sys2Proof/Machine/Meters.lean ====
section
/-! DEFINITION. The meter line unit: SET_METER, hold timers and polling (R2 to R9). -/

namespace Sys2Proof.Machine

/-- Another configured entry holds the address (R2 check 5). -/
def meterAddressUsed (s : State) (m : Fin 8) (address : Nat) : Bool :=
  allMeters.any fun k => k != m && (s.meter k).site.any fun q => q.address == address

/-- R2 check 6: two other configured entries already name the portal. -/
def meterLimitReached (s : State) (m : Fin 8) (p : Fin 4) : Bool :=
  decide (2 ≤ ((ownMeters s p).filter fun k => k != m).length)

/-- R2: what CONFIGURE writes into an entry; the hold timer starts with H of the named portal's active profile. -/
def configuredMeter (s : State) (address : Nat) (p : Fin 4) : Meter :=
  { site := some { address := address, portal := p }, state := .awaiting, reading := none, status := none, lost := false,
    hold := some (s.portal p).active.hold, due := true }

/-- R2, R3: evaluate the portal an entry belonged to, unless it is the portal named now. -/
def evalFormer (former : Option MeterSite) (now : Option (Fin 4)) (s : State) : State :=
  match former with
  | none => s
  | some q => if now = some q.portal then s else evalCondition q.portal s

/-- R2: CONFIGURE of an entry that has passed the checks; the portal it leaves is evaluated first (log 14). -/
def configureMeter (m : Fin 8) (address : Nat) (p : Fin 4) (s : State) : State :=
  let former := (s.meter m).site
  evalCondition p (evalFormer former (some p) (s.setMeter m (configuredMeter s address p)))

/-- R3: REMOVE of a configured entry. -/
def removeMeter (m : Fin 8) (s : State) : State :=
  let former := (s.meter m).site
  evalFormer former none (s.setMeter m .unconfigured)

/-- SET_METER's own rule (R2, R3), its checks in order. -/
def setMeter (meter operation address portal : Byte) (s : State) : Answered :=
  match meterOf meter with
  | none => refuse .badValue s
  | some m =>
    if operation = 1 then done false (removeMeter m s)
    else if operation ≠ 0 then refuse .badValue s
    else if address.toNat = 0 ∨ 31 < address.toNat then refuse .badValue s
    else match portalOf portal with
      | none => refuse .badValue s
      | some p =>
        if meterAddressUsed s m address.toNat then refuse .addressInUse s
        else if meterLimitReached s m p then refuse .meterLimit s
        else done false (configureMeter m address.toNat p s)

/-- SET_METER (R2, R3). -/
def execSetMeter (meter operation address portal : Byte) (s : State) : Host.Outcome State Fault Refusal :=
  takeCommand 4 (setMeter meter operation address portal) s

/-! ## Hold timers (R9) -/

/-- R9: the expiry of a running hold timer on an AWAITING or ONLINE entry: LOST, sticky flag, METER_LOST, and the
portal's condition evaluated again. -/
def holdExpired (m : Fin 8) (s : State) : State :=
  let x := s.meter m
  match x.hold, x.site with
  | some _, some q =>
    if x.state = .awaiting ∨ x.state = .online then
      evalCondition q.portal
        (handEvent (meterLostClass q.portal) (s.setMeter m { x with state := .lost, lost := true, hold := none }))
    else s
  | _, _ => s

/-- HOLD_TIMER_EXPIRY (R9). -/
def execHoldTimerExpiry (m : Fin 8) (s : State) : Host.Outcome State Fault Refusal := event (holdExpired m) s

/-! ## Polling (R4 to R8) -/

/-- R4: 1000 ms have passed since the entry's previous poll began; a configured entry becomes due. -/
def pollDue (m : Fin 8) (s : State) : State :=
  if (s.meter m).site.isSome then s.setMeter m { s.meter m with due := true } else s

/-- POLL_DUE (R4). -/
def execPollDue (m : Fin 8) (s : State) : Host.Outcome State Fault Refusal := event (pollDue m) s

/-- R4: the meter numbers in the order polling takes them: after the most recently polled one, counting on from 7
to 0; from 0 when none counts. -/
def pollOrder (s : State) : List (Fin 8) :=
  match s.lastPolled with
  | none => allMeters
  | some k => (allMeters.filter fun m => k < m) ++ allMeters.filter fun m => m ≤ k

/-- R4: the due entry that is polled next, with its address. -/
def nextPoll (s : State) : Option (Fin 8 × Nat) :=
  (pollOrder s).findSome? fun m =>
    match (s.meter m).site with
    | some q => if (s.meter m).due then some (m, q.address) else none
    | none => none

/-- R4, R5: start a poll, while none is in progress and an entry is due. -/
def pollStart (s : State) : State :=
  match s.poll, nextPoll s with
  | none, some (m, address) =>
    { s.setMeter m { s.meter m with due := false } with lastPolled := some m, poll := some address }
  | _, _ => s

/-- POLL_START (R4). -/
def execPollStart (s : State) : Host.Outcome State Fault Refusal := event pollStart s

/-- R171: the three characters of a poll frame. -/
def pollFrame (address : Nat) : List Byte :=
  let front := [BitVec.ofNat 8 address, 0x50]
  front ++ [crc8 front]

/-- R5: what the characters of a reply say; none is a miss. -/
def readMeterReply (address : Nat) (c0 c1 c2 c3 c4 : Byte) : Option (MeterStatus × Nat) :=
  let luminance := c2.toNat * 256 + c3.toNat
  if crc8 [c0, c1, c2, c3] ≠ c4 ∨ c0.toNat ≠ address then none
  else if c1 = 1 then (if luminance ≤ Config.luminanceMax then some (.valid, luminance) else none)
  else if c1 = 2 then some (.warming, luminance)
  else if c1 = 3 then some (.fault, luminance)
  else none

/-- R6: the configured entry that holds an address. -/
def meterAt (s : State) (address : Nat) : Option (Fin 8) :=
  allMeters.find? fun m => (s.meter m).site.any fun q => q.address == address

/-- R7: a VALID reply applied to an entry: the reading clamped and stored, ONLINE, the hold timer started again, and a
reading arrival at its portal. -/
def applyValid (m : Fin 8) (p : Fin 4) (luminance : Nat) (s : State) : State :=
  readingArrival p
    (s.setMeter m { s.meter m with
      reading := some (min luminance Config.readingMax), status := some .valid, state := .online,
      hold := some (s.portal p).active.hold })

/-- R8: a WARMING or FAULT reply, or a miss, writes only the latest reply status. -/
def applyStatus (m : Fin 8) (status : Option MeterStatus) (s : State) : State :=
  s.setMeter m { s.meter m with status := status }

/-- R6: the result of a completed poll of an address, applied to the entry that holds the address now. -/
def applyPoll (address : Nat) (result : Option (MeterStatus × Nat)) (s : State) : State :=
  match meterAt s address with
  | none => s
  | some m =>
    match (s.meter m).site, result with
    | some q, some (.valid, luminance) => applyValid m q.portal luminance s
    | _, some (status, _) => applyStatus m (some status) s
    | _, none => applyStatus m none s

/-- R5: the fifth character of the reply completes the poll in progress. -/
def pollCompletion (c0 c1 c2 c3 c4 : Byte) (s : State) : State :=
  match s.poll with
  | none => s
  | some address => applyPoll address (readMeterReply address c0 c1 c2 c3 c4) { s with poll := none }

/-- POLL_COMPLETION (R5 to R8). -/
def execPollCompletion (c0 c1 c2 c3 c4 : Byte) (s : State) : Host.Outcome State Fault Refusal :=
  event (pollCompletion c0 c1 c2 c3 c4) s

/-- R5: the window closes with fewer than five characters: the poll completes as a miss. -/
def pollWindowClose (s : State) : State :=
  match s.poll with
  | none => s
  | some address => applyPoll address none { s with poll := none }

/-- POLL_WINDOW_CLOSE (R5, R8). -/
def execPollWindowClose (s : State) : Host.Outcome State Fault Refusal := event pollWindowClose s

end Sys2Proof.Machine
end

