-- ==== Sys2Proof/Machine/Portals.lean ====
section
/-! DEFINITION. The portal controllers: profiles, modes, ramps, coupling, emergency lighting and READ_PORTAL (R17, R20 to
R60). -/

namespace Sys2Proof.Machine

/-! ## Profiles (R20 to R22) -/

/-- SET_PROFILE's own rule (R20 to R22). -/
def setProfile (portal flags : Byte) (values : RawProfile) (s : State) : Answered :=
  match portalOf portal with
  | none => refuse .badValue s
  | some p =>
    match switchOf flags with
    | none => refuse .badValue s
    | some atOnce =>
      let v := (plainProfile values).clamped
      if v.fractionsFall then
        let written := s.setPortal p { s.portal p with pendingProfile := some v }
        done (decide (v ≠ plainProfile values)) (if atOnce then commitProfile p written else written)
      else refuse .badProfile s

/-- SET_PROFILE (R20 to R22). -/
def execSetProfile (portal flags : Byte) (values : RawProfile) (s : State) : Host.Outcome State Fault Refusal :=
  takeCommand 42 (setProfile portal flags values) s

/-! ## START and HALT (R37, R38) -/

/-- The portal is in AUTO or MANUAL. -/
def Portal.running (x : Portal) : Bool :=
  match x.mode with
  | .auto => true
  | .manual => true
  | .halted => false
  | .emergency => false

/-- R37 steps 2 to 5: mode, manual targets and timers. -/
def Portal.started (x : Portal) (mode : RunMode) : Portal :=
  { x with mode := mode.mode, manual := if mode = .manual then x.levels else x.manual,
           rampTimer := some x.ramp.steps, refreshTimer := some x.ramp.refresh }

/-- R37: the six steps of START. -/
def startPortal (p : Fin 4) (mode : RunMode) (s : State) : State :=
  let s := commitProfile p s
  requestSweep p (s.setPortal p ((s.portal p).started mode))

/-- START's own rule (R37). -/
def startCommand (portal mode : Byte) (s : State) : Answered :=
  match portalOf portal, runModeOf mode with
  | some p, some m =>
    match (s.portal p).mode with
    | .halted => done false (startPortal p m s)
    | .auto => refuse .portalRunning s
    | .manual => refuse .portalRunning s
    | .emergency => refuse .emergencyActive s
  | _, _ => refuse .badValue s

/-- START (R37). -/
def execStart (portal mode : Byte) (s : State) : Host.Outcome State Fault Refusal :=
  takeCommand 2 (startCommand portal mode) s

/-- R38: a running portal becomes HALTED; its sweep is abandoned (R108). -/
def haltPortal (p : Fin 4) (s : State) : State :=
  abandonSweep p
    (s.setPortal p { s.portal p with mode := .halted, rampTimer := none, refreshTimer := none, pendingMode := none })

/-- HALT's own rule (R38). -/
def haltCommand (portal : Byte) (s : State) : Answered :=
  match portalOf portal with
  | none => refuse .badValue s
  | some p =>
    match (s.portal p).mode with
    | .auto => done false (haltPortal p s)
    | .manual => done false (haltPortal p s)
    | .halted => done false s
    | .emergency => refuse .emergencyActive s

/-- HALT (R38). -/
def execHalt (portal : Byte) (s : State) : Host.Outcome State Fault Refusal := takeCommand 1 (haltCommand portal) s

/-! ## Ramp settings and mode requests (R42 to R45) -/

/-- SET_RAMP's own rule (R42). -/
def setRamp (portal steps : Byte) (up down deadband refresh : Half) (s : State) : Answered :=
  match portalOf portal with
  | none => refuse .badValue s
  | some p =>
    let plain : RampSettings :=
      { steps := steps.toNat, up := up.toNat, down := down.toNat, deadband := deadband.toNat, refresh := refresh.toNat }
    let kept : RampSettings :=
      { steps := clamp 2 40 plain.steps, up := clamp 1 10000 plain.up, down := clamp 1 10000 plain.down,
        deadband := clamp 0 500 plain.deadband, refresh := clamp 10 600 plain.refresh }
    done (decide (kept ≠ plain)) (s.setPortal p { s.portal p with ramp := kept })

/-- SET_RAMP (R42). -/
def execSetRamp (portal steps : Byte) (up down deadband refresh : Half) (s : State) : Host.Outcome State Fault Refusal :=
  takeCommand 10 (setRamp portal steps up down deadband refresh) s

/-- R43: the effect of a request on the portal. -/
def Portal.requested (x : Portal) (m : RunMode) : Portal :=
  if x.mode = .emergency then { x with returnMode := some m.returnMode }
  else if m.mode = x.mode then { x with pendingMode := none }
  else { x with pendingMode := some m }

/-- REQUEST_MODE's own rule (R43). -/
def requestMode (portal mode : Byte) (s : State) : Answered :=
  match portalOf portal, runModeOf mode with
  | some p, some m =>
    if (s.portal p).mode = .halted then refuse .portalHalted s
    else done false (s.setPortal p ((s.portal p).requested m))
  | _, _ => refuse .badValue s

/-- REQUEST_MODE (R43). -/
def execRequestMode (portal mode : Byte) (s : State) : Host.Outcome State Fault Refusal :=
  takeCommand 2 (requestMode portal mode) s

/-- SET_STAGE_LEVEL's own rule (R45). -/
def setStageLevel (portal stage : Byte) (level : Half) (s : State) : Answered :=
  match portalOf portal with
  | none => refuse .badValue s
  | some p =>
    match stageOf stage with
    | none => refuse .badValue s
    | some i =>
      if (s.portal p).mode ≠ .manual then refuse .notManual s
      else
        let kept := clamp 0 Config.fullDrive level.toNat
        done (outside 0 Config.fullDrive level.toNat)
          (s.setPortal p { s.portal p with manual := (s.portal p).manual.set i kept })

/-- SET_STAGE_LEVEL (R45). -/
def execSetStageLevel (portal stage : Byte) (level : Half) (s : State) : Host.Outcome State Fault Refusal :=
  takeCommand 4 (setStageLevel portal stage level) s

/-! ## Coupling (R47) -/

/-- R47: the portal's coupling leader becomes the one named; the follower's condition is evaluated when it changed. -/
def couple (p : Fin 4) (leader : Option (Fin 4)) (s : State) : State :=
  if (s.portal p).leader = leader then s
  else evalCondition p (s.setPortal p { s.portal p with leader := leader })

/-- R47: a coupling is refused when the leader is the follower itself, or is a follower, or the follower is a leader. -/
def badCoupling (s : State) (p leader : Fin 4) : Bool :=
  p == leader || (s.portal leader).leader.isSome || (followers s p).any fun _ => true

/-- SET_COUPLING's own rule (R47). -/
def setCoupling (follower leader : Byte) (s : State) : Answered :=
  match portalOf follower with
  | none => refuse .badValue s
  | some p =>
    if leader = 255 then done false (couple p none s)
    else match portalOf leader with
      | none => refuse .badValue s
      | some q => if badCoupling s p q then refuse .badCoupling s else done false (couple p (some q) s)

/-- SET_COUPLING (R47). -/
def execSetCoupling (follower leader : Byte) (s : State) : Host.Outcome State Fault Refusal :=
  takeCommand 2 (setCoupling follower leader) s

/-! ## Emergency lighting (R49 to R53) -/

/-- R51 step 1: the return mode that a mode becomes at the entry. -/
def Mode.asReturn : Mode → Option ReturnMode
  | .halted => some .halted
  | .auto => some .auto
  | .manual => some .manual
  | .emergency => none

/-- R51 steps 1 to 3: return mode, mode, ramp timer and stage levels. -/
def Portal.inEmergency (x : Portal) : Portal :=
  { x with returnMode := x.mode.asReturn, pendingMode := none, mode := .emergency, rampTimer := none,
           levels := Vector.replicate 6 Config.fullDrive }

/-- R51: entry into EMERGENCY, its five steps in order. -/
def enterEmergency (p : Fin 4) (s : State) : State :=
  handEvent (modeSettledClass p)
    (handTrue (emergencyClass p)
      (requestEmergencySweep p (s.setPortal p (s.portal p).inEmergency)))

/-- R49: a portal whose emergency enable is on and whose mode is not EMERGENCY enters it. -/
def enterIfEnabled (p : Fin 4) (s : State) : State :=
  if (s.portal p).emergencyEnable ∧ (s.portal p).mode ≠ .emergency then enterEmergency p s else s

/-- R49: every portal that an assertion, or the examination of an active pin, puts into EMERGENCY. -/
def enterAll (s : State) : State := forEach allPortals enterIfEnabled s

/-- R49: the pin passes from its inactive to its active level; a pin that is active already is no assertion. -/
def emergNAsserted (s : State) : State :=
  if s.emergAsserted then s else enterAll { s with emergN := s.straps.getLsbD 3 }

/-- EMERG_N_ASSERTION (R49). -/
def execEmergNAssertion (s : State) : Host.Outcome State Fault Refusal := event emergNAsserted s

/-- R49: the pin passes back to its inactive level; no portal's mode changes. -/
def emergNReleased (s : State) : State := { s with emergN := !s.straps.getLsbD 3 }

/-- EMERG_N_RELEASE (R49). -/
def execEmergNRelease (s : State) : Host.Outcome State Fault Refusal := event emergNReleased s

/-- SET_EMERGENCY_ENABLE's own rule (R50). -/
def setEmergencyEnable (portal setting : Byte) (s : State) : Answered :=
  match portalOf portal, switchOf setting with
  | some p, some on =>
    let s := s.setPortal p { s.portal p with emergencyEnable := on }
    done false (if on ∧ s.emergAsserted ∧ (s.portal p).mode ≠ .emergency then enterEmergency p s else s)
  | _, _ => refuse .badValue s

/-- SET_EMERGENCY_ENABLE (R50). -/
def execSetEmergencyEnable (portal setting : Byte) (s : State) : Host.Outcome State Fault Refusal :=
  takeCommand 2 (setEmergencyEnable portal setting) s

/-- R53: the portal after RELEASE into a mode. -/
def Portal.released (x : Portal) (back : ReturnMode) : Portal :=
  { x with mode := back.mode, returnMode := none,
           rampTimer := if back = .halted then none else some x.ramp.steps,
           refreshTimer := if back = .halted then none else x.refreshTimer }

/-- R53: RELEASE that is accepted: the mode becomes the return mode. -/
def releasePortal (p : Fin 4) (back : ReturnMode) (s : State) : State :=
  handEvent (modeSettledClass p)
    (handFalse (emergencyClass p) (s.setPortal p ((s.portal p).released back)))

/-- RELEASE's own rule (R53). A portal in EMERGENCY holds a return mode; were it absent, HALTED (log 16). -/
def releaseCommand (portal : Byte) (s : State) : Answered :=
  match portalOf portal with
  | none => refuse .badValue s
  | some p =>
    if (s.portal p).mode ≠ .emergency then refuse .notEmergency s
    else if s.emergAsserted then refuse .stillAsserted s
    else done false (releasePortal p ((s.portal p).returnMode.getD .halted) s)

/-- RELEASE (R53). -/
def execRelease (portal : Byte) (s : State) : Host.Outcome State Fault Refusal :=
  takeCommand 1 (releaseCommand portal) s

/-! ## Ramp and refresh expiries (R39, R40, R44, R46, R48) -/

/-- R44: a pending mode request takes effect: mode, manual targets on a change into MANUAL, MODE_SETTLED. -/
def takeModeRequest (p : Fin 4) (s : State) : State :=
  match (s.portal p).pendingMode with
  | none => s
  | some m =>
    let x := s.portal p
    handEvent (modeSettledClass p)
      (s.setPortal p { x with mode := m.mode, pendingMode := none,
                              manual := if m = .manual then x.levels else x.manual })

/-- R40 phases 3 and 4: the levels step, and a sweep is asked for when at least one changed. -/
def stepStages (p : Fin 4) (s : State) : State :=
  let x := s.portal p
  if x.steppedLevels = x.levels then s else requestSweep p (s.setPortal p { x with levels := x.steppedLevels })

/-- R39, R40: a ramp expiry of one portal: its timer is started again, then the four phases. -/
def rampPhases (p : Fin 4) (s : State) : State :=
  stepStages p
    (takeModeRequest p
      (commitProfile p (s.setPortal p { s.portal p with rampTimer := some (s.portal p).ramp.steps })))

/-- R48: a leader's expiry is also an expiry of a follower in AUTO or MANUAL. -/
def followerExpiry (q : Fin 4) (s : State) : State := if (s.portal q).running then rampPhases q s else s

/-- R39, R40, R48: the expiry of a portal's running ramp timer. -/
def rampExpired (p : Fin 4) (s : State) : State :=
  if (s.portal p).rampTimer.isSome ∧ (s.portal p).running then
    forEach (followers s p) followerExpiry (rampPhases p s)
  else s

/-- RAMP_EXPIRY (R40, R48). -/
def execRampExpiry (p : Fin 4) (s : State) : Host.Outcome State Fault Refusal := event (rampExpired p) s

/-- R46: the expiry of a running refresh timer: it stops, and a sweep is asked for. -/
def refreshExpired (p : Fin 4) (s : State) : State :=
  if (s.portal p).refreshTimer.isSome then requestSweep p (s.setPortal p { s.portal p with refreshTimer := none }) else s

/-- REFRESH_TIMER_EXPIRY (R46). -/
def execRefreshTimerExpiry (p : Fin 4) (s : State) : Host.Outcome State Fault Refusal := event (refreshExpired p) s

/-! ## READ_PORTAL (R17, R33, R34, R54, R60) -/

/-- R34, R171: the set of short stages, stage s at bit s − 1. -/
def shortStages (s : State) (p : Fin 4) : Nat :=
  allStages.foldl
    (fun acc i => if (s.portal p).stageIsShort (stageCount s p) i then acc + 2 ^ i.val else acc) 0

/-- R33: the profile part. -/
def profilePart (x : Portal) : List Byte :=
  x.active.bytes ++
    match x.pendingProfile with
    | none => List.replicate 41 0
    | some v => put1 1 ++ v.bytes

/-- Six numbers of two bytes, stage 1 first. -/
def putSix (f : Fin 6 → Nat) : List Byte := allStages.flatMap fun i => put2 (f i)

/-- R34: the computed part. -/
def computedPart (s : State) (p : Fin 4) : List Byte :=
  putOpt 3 put3 ((s.portal p).lf.map (threshold (s.portal p).active)) ++ putSix (s.portal p).target
    ++ put1 (shortStages s p)

/-- R54: the mode part. -/
def modePart (s : State) (p : Fin 4) : List Byte :=
  let x := s.portal p
  put1 x.mode.code ++ put1 (modeCode (x.returnMode.map ReturnMode.mode)) ++ put1 (modeCode (x.pendingMode.map RunMode.mode))
    ++ putSix (fun i => x.levels[i]) ++ putSix (fun i => x.manual[i])
    ++ put1 x.ramp.steps ++ put2 x.ramp.up ++ put2 x.ramp.down ++ put2 x.ramp.deadband ++ put2 x.ramp.refresh
    ++ put1 ((x.leader.map fun q => q.val).getD 255) ++ putFlag x.emergencyEnable ++ putFlag s.emergAsserted
    ++ putFlag (s.sweep p).done ++ putFlag (s.sweep p).owed

/-- R60: the plan part. -/
def planPart (s : State) (p : Fin 4) : List Byte :=
  (match s.plan p with
    | none => List.replicate 10 0
    | some q =>
      put1 1 ++ put1 q.stages ++ put1 q.rows ++ put1 q.positions ++ put2 q.base ++ put2 q.rowStride ++ put2 q.stageStride)
    ++ put2 (occupied s p) ++ put2 (activeCount s p)

/-- R17, R33, R34, R54, R60, R171: the whole reply of READ_PORTAL. -/
def portalBytes (s : State) (p : Fin 4) : List Byte :=
  (photoOf s p).bytes ++ profilePart (s.portal p) ++ computedPart s p ++ modePart s p ++ planPart s p

/-- READ_PORTAL's own rule (R17): after the reply is prepared, the reported sticky flags are cleared (R10). -/
def readPortal (portal : Byte) (s : State) : Answered :=
  match portalOf portal with
  | none => refuse .badValue s
  | some p => answer (portalBytes s p) (clearReported (photoOf s p) s)

/-- READ_PORTAL (R17). -/
def execReadPortal (portal : Byte) (s : State) : Host.Outcome State Fault Refusal := takeCommand 1 (readPortal portal) s

end Sys2Proof.Machine
end

