-- ==== Sys2Proof/Machine/Rosters.lean ====
section
/-! DEFINITION. The luminaire roster's commands (R58 to R79). -/

namespace Sys2Proof.Machine

/-! ## Plans (R58, R59) -/

/-- The plan that the fields of SET_PLAN spell. -/
def planOf (stages rows positions : Byte) (base rowStride stageStride : Half) : Plan :=
  { base := base.toNat, stages := stages.toNat, rows := rows.toNat, positions := positions.toNat,
    rowStride := rowStride.toNat, stageStride := stageStride.toNat }

/-- R58 check 2: the portal runs, or its sweep does. -/
def planBusy (s : State) (p : Fin 4) : Bool := (s.portal p).mode != .halted || (s.sweep p).running.isSome

/-- R58 check 5: another portal's footprint shares a slot with a new plan. -/
def overlapsOther (s : State) (p : Fin 4) (q : Plan) : Bool :=
  allPortals.any fun k => k != p && (s.plan k).any fun r => q.overlaps r

/-- R59: write or remove the plan, and evaluate STAGE_SHORT. -/
def writePlan (p : Fin 4) (q : Option Plan) (s : State) : State := evalStageShort p (s.setPlan p q)

/-- SET_PLAN's own rule (R58, R59), its checks in order. -/
def setPlanCommand (portal stages rows positions : Byte) (base rowStride stageStride : Half) (s : State) : Answered :=
  match portalOf portal with
  | none => refuse .badValue s
  | some p =>
    let q := planOf stages rows positions base rowStride stageStride
    if planBusy s p then refuse .portalRunning s
    else if occupied s p ≠ 0 then refuse .planOccupied s
    else if q.stages = 0 then done false (writePlan p none s)
    else if !q.wf then refuse .badPlan s
    else if overlapsOther s p q then refuse .planOverlap s
    else done false (writePlan p (some q) s)

/-- SET_PLAN (R58, R59). -/
def execSetPlan (portal stages rows positions : Byte) (base rowStride stageStride : Half) (s : State) :
    Host.Outcome State Fault Refusal :=
  takeCommand 10 (setPlanCommand portal stages rows positions base rowStride stageStride) s

/-! ## Admission (R65, R66) -/

/-- What an admission gives a slot. -/
structure Admission where
  slot : Nat
  place : Place
  uid : Nat
  m : Nat
  override : Override
  deriving DecidableEq, Repr

/-- R65: the seven checks of ADMIT, in order. `uid` is the uid of check 7. -/
def admissionChecks (slot : Half) (line address : Byte) (uid : Nat) (m : Half) (override : Byte) (s : State) :
    Except Answer Admission :=
  match slotOf slot with
  | none => .error .badSlot
  | some n =>
    if (portalOfSlot s n).isNone then .error .outsidePlan
    else if (s.record n).nonVacant then .error .slotOccupied
    else if line = 1 ∧ !s.linePresent .b then .error .noLine
    else match lineOf line, addressOf address, overrideOf override with
      | some l, some a, some o =>
        if (s.lookup l a).isSome then .error .addressInUse
        else if uid ≠ 0 ∧ (s.lookupUid uid).isSome then .error .uidInUse
        else .ok { slot := n, place := { line := l, address := a }, uid := uid, m := m.toNat, override := o }
      | _, _, _ => .error .badValue

/-- R66, R146: the record that an admission makes. -/
def admittedRecord (x : Admission) (capability : Option Bool) (lmin : Nat) : Record :=
  { Record.vacant false with
    state := .probation, place := some x.place, uid := x.uid, m := clamp 500 1000 x.m, override := x.override,
    capability := capability, lmin := lmin }

/-- R143: take an entry out of the stray queue; STRAY is handed as false when the last one leaves. -/
def removeStray (l : Line) (address : Nat) (s : State) : State :=
  let c := s.line l
  let kept := c.strays.filter fun e => e.address != address
  let s' := s.setLine l { c with strays := kept }
  if kept.isEmpty ∧ !c.strays.isEmpty then handFalse (strayClass l) s' else s'

/-- R66, R144: the address leaves the ignore set. -/
def removeIgnored (l : Line) (address : Nat) (s : State) : State :=
  s.setLine l { s.line l with ignored := (s.line l).ignored.filter fun a => a != address }

/-- R66, R146: fill the slot, free the address's stray entry and ignore-set place, and ask the portal for a sweep. -/
def fillSlot (x : Admission) (capability : Option Bool) (lmin : Nat) (s : State) : State :=
  settleSweeps
    (requestForSlot x.slot
      (removeIgnored x.place.line x.place.address
        (removeStray x.place.line x.place.address
          (s.setRecord x.slot (admittedRecord x capability lmin)))))

/-- ADMIT's own rule (R65, R66). -/
def admitCommand (slot : Half) (line address : Byte) (uid : UidField) (m : Half) (override : Byte) (s : State) : Answered :=
  match admissionChecks slot line address uid.toNat m override s with
  | .error a => refuse a s
  | .ok x => done (outside 500 1000 x.m) (fillSlot x none 0 s)

/-- ADMIT (R65, R66). -/
def execAdmit (slot : Half) (line address : Byte) (uid : UidField) (m : Half) (override : Byte) (s : State) :
    Host.Outcome State Fault Refusal :=
  takeCommand 13 (admitCommand slot line address uid m override) s

/-! ## Amending (R67, R68) -/

/-- R171: the changes an AMEND selects. -/
structure Selection where
  m : Bool
  override : Bool
  setPin : Bool
  clearPin : Bool
  uid : Bool
  deriving DecidableEq, Repr

/-- R171: the selection byte; none when it names a change outside the five. -/
def selectionOf (b : Byte) : Option Selection :=
  if b.toNat < 32 then
    some { m := b.getLsbD 0, override := b.getLsbD 1, setPin := b.getLsbD 2, clearPin := b.getLsbD 3, uid := b.getLsbD 4 }
  else none

/-- R67 check 2: the selection is one AMEND takes, and a selected override is one of the three. -/
def selectionTaken (b override : Byte) : Option Selection :=
  match selectionOf b with
  | none => none
  | some x =>
    if (x.setPin ∧ x.clearPin) ∨ (x.override ∧ (overrideOf override).isNone) then none else some x

/-- R68: the record with the selected changes made together. -/
def amended (x : Selection) (m : Half) (override : Byte) (pinned : Half) (uid : UidField) (r : Record) : Record :=
  { r with
    m := if x.m then clamp 500 1000 m.toNat else r.m
    override := if x.override then (overrideOf override).getD r.override else r.override
    pinned := if x.setPin then some (clamp 0 Config.fullDrive pinned.toNat) else if x.clearPin then none else r.pinned
    uid := if x.uid then uid.toNat else r.uid }

/-- R68: a new m or a new pinned level was clamped. -/
def amendClamped (x : Selection) (m pinned : Half) : Bool :=
  (x.m && outside 500 1000 m.toNat) || (x.setPin && outside 0 Config.fullDrive pinned.toNat)

/-- R68: the selection names a change that can change the level. -/
def Selection.asksSweep (x : Selection) : Bool := x.m || x.override || x.setPin || x.clearPin

/-- AMEND's own rule (R67, R68). -/
def amendCommand (slot : Half) (selection : Byte) (m : Half) (override : Byte) (pinned : Half) (uid : UidField)
    (s : State) : Answered :=
  match slotOf slot with
  | none => refuse .badSlot s
  | some n =>
    match selectionTaken selection override with
    | none => refuse .badValue s
    | some x =>
      let r := s.record n
      if r.state = .vacant then refuse .slotVacant s
      else if r.state = .retiring ∨ (x.uid ∧ r.state ≠ .probation) then refuse .recordBusy s
      else if x.uid ∧ uid.toNat ≠ 0 ∧ s.uidElsewhere n uid.toNat then refuse .uidInUse s
      else
        let written := s.setRecord n (amended x m override pinned uid r)
        done (amendClamped x m pinned) (if x.asksSweep then requestForSlot n written else written)

/-- AMEND (R67, R68). -/
def execAmend (slot : Half) (selection : Byte) (m : Half) (override : Byte) (pinned : Half) (uid : UidField) (s : State) :
    Host.Outcome State Fault Refusal :=
  takeCommand 14 (amendCommand slot selection m override pinned uid) s

/-! ## Moving (R70, R71) -/

/-- R71: both portals are asked for a sweep, once when they are the same. -/
def requestForMove (old new : Nat) (s : State) : State :=
  if portalOfSlot s old = portalOfSlot s new then requestForSlot new s else requestForSlot new (requestForSlot old s)

/-- R71: carry the record to the new slot and leave the old one VACANT with its mark clear. -/
def moveRecord (old new : Nat) (s : State) : State :=
  let moved := (s.setRecord new (s.record old)).setRecord old (.vacant false)
  settleSweeps (requestForMove old new moved)

/-- MOVE's own rule (R70, R71). -/
def moveCommand (slot newSlot : Half) (s : State) : Answered :=
  match slotOf slot, slotOf newSlot with
  | some n, some k =>
    if (s.record n).state = .vacant then refuse .slotVacant s
    else if (s.record n).state = .retiring then refuse .recordBusy s
    else if (portalOfSlot s k).isNone then refuse .outsidePlan s
    else if (s.record k).nonVacant then refuse .slotOccupied s
    else done false (moveRecord n k s)
  | _, _ => refuse .badSlot s

/-- MOVE (R70, R71). -/
def execMove (slot newSlot : Half) (s : State) : Host.Outcome State Fault Refusal :=
  takeCommand 4 (moveCommand slot newSlot) s

/-! ## Retiring and clearing a fault (R72, R73, R75) -/

/-- R73: the line's collections after RETIRE of an address. -/
def retiredLine (c : LineCtl) (address : Nat) : LineCtl :=
  { c with
    service := c.service.filter fun a => a != address
    admin := (c.admin.filter fun e => e != { kind := .identify, address := address })
      ++ [{ kind := .forget, address := address }] }

/-- R73: a RETIRE that has passed its checks. -/
def retireRecord (n : Nat) (q : Place) (s : State) : State :=
  settleSweeps
    (requestForSlot n
      ((s.setRecord n { s.record n with state := .retiring }).setLine q.line
        (retiredLine (s.line q.line) q.address)))

/-- RETIRE's own rule (R72, R73). -/
def retireCommand (slot : Half) (s : State) : Answered :=
  match slotOf slot with
  | none => refuse .badSlot s
  | some n =>
    let r := s.record n
    if r.state = .vacant then refuse .slotVacant s
    else if r.state = .retiring then refuse .recordBusy s
    else match r.place with
      | none => refuse .slotVacant s
      | some q =>
        if Config.adminCapacity ≤ (s.line q.line).admin.length then refuse .lineBusy s
        else done false (retireRecord n q s)

/-- RETIRE (R72, R73). -/
def execRetire (slot : Half) (s : State) : Host.Outcome State Fault Refusal := takeCommand 2 (retireCommand slot) s

/-- R75: the record after CLEAR_FAULT. -/
def faultCleared (r : Record) : Record :=
  if r.state = .dark then { r with fault := none, state := if r.confirmed then .active else .probation }
  else { r with fault := none }

/-- R75: clear the fault; a DARK record's portal is asked for a sweep. -/
def clearFaultOf (n : Nat) (s : State) : State :=
  let r := s.record n
  let written := s.setRecord n (faultCleared r)
  if r.state = .dark then settleSweeps (requestForSlot n written) else written

/-- CLEAR_FAULT's own rule (R75). -/
def clearFaultCommand (slot : Half) (s : State) : Answered :=
  match slotOf slot with
  | none => refuse .badSlot s
  | some n =>
    if (s.record n).state = .vacant then refuse .slotVacant s
    else if (s.record n).state = .retiring then refuse .recordBusy s
    else done false (clearFaultOf n s)

/-- CLEAR_FAULT (R75). -/
def execClearFault (slot : Half) (s : State) : Host.Outcome State Fault Refusal :=
  takeCommand 2 (clearFaultCommand slot) s

/-! ## Reading, finding and listing (R76 to R79) -/

/-- R171: a slot's coordinates mark, portal, stage, row and position. -/
def coordsBytes (s : State) (n : Nat) : List Byte :=
  match placeOfSlot s n with
  | none => List.replicate 5 0
  | some (p, c) => put1 1 ++ put1 p.val ++ put1 (c.stage + 1) ++ put1 c.row ++ put1 c.position

/-- R171: the line byte of READ_RECORD, 255 when absent. -/
def placeLine : Option Place → Nat
  | none => 255
  | some q => lineCode q.line

/-- R171: the address byte of READ_RECORD, 0 when absent. -/
def placeAddress : Option Place → Nat
  | none => 0
  | some q => q.address

/-- R76, R171: the 35 bytes of READ_RECORD. -/
def recordBytes (s : State) (n : Nat) : List Byte :=
  let r := s.record n
  put2 n ++ put1 r.state.code ++ put1 (placeLine r.place) ++ put1 (placeAddress r.place) ++ put6 r.uid
    ++ putFlag r.confirmed ++ put2 r.m ++ put1 r.override.code ++ put1 (capabilityCode r.capability) ++ put2 r.lmin
    ++ putOpt 2 put2 r.pinned ++ put1 (faultCode r.fault) ++ put1 r.misses ++ putOpt 2 put2 r.lastSent
    ++ putOpt 2 put2 r.lastAcked ++ putFlag r.changed ++ coordsBytes s n

/-- READ_RECORD's own rule (R76): the changed mark is cleared after the reply is prepared. -/
def readRecordCommand (slot : Half) (s : State) : Answered :=
  match slotOf slot with
  | none => refuse .badSlot s
  | some n => answer (recordBytes s n) (s.setRecord n { s.record n with changed := false })

/-- READ_RECORD (R76). -/
def execReadRecord (slot : Half) (s : State) : Host.Outcome State Fault Refusal :=
  takeCommand 2 (readRecordCommand slot) s

/-- R77, R78: the slot and state found, or NOT_FOUND. -/
def foundAnswer (found : Option Nat) (s : State) : Answered :=
  match found with
  | none => refuse .notFound s
  | some n => answer (put2 n ++ put1 (s.record n).state.code) s

/-- FIND's own rule (R77). -/
def findCommand (line address : Byte) (s : State) : Answered :=
  match lineOf line, addressOf address with
  | some l, some a => if s.linePresent l then foundAnswer (s.lookup l a) s else refuse .noLine s
  | _, _ => refuse .badValue s

/-- FIND (R77). -/
def execFind (line address : Byte) (s : State) : Host.Outcome State Fault Refusal := takeCommand 2 (findCommand line address) s

/-- FIND_UID's own rule (R78). -/
def findUidCommand (uid : UidField) (s : State) : Answered :=
  if uid = 0 then refuse .badValue s else foundAnswer (s.lookupUid uid.toNat) s

/-- FIND_UID (R78). -/
def execFindUid (uid : UidField) (s : State) : Host.Outcome State Fault Refusal := takeCommand 6 (findUidCommand uid) s

/-- R79: the slot matches the three filters. -/
def listMatches (s : State) (portal states changed : Byte) (n : Nat) : Bool :=
  let r := s.record n
  states.getLsbD r.state.code && (portal == 255 || portalOfSlot s n == portalOf portal) && (changed == 0 || r.changed)

/-- R79: the matching slots from the start slot upward. -/
def listSlots (s : State) (start : Nat) (portal states changed : Byte) : List Nat :=
  (List.range Config.slots).filter fun n => decide (start ≤ n) && listMatches s portal states changed n

/-- R79, R171: at most eight slots, and the ninth to continue from or 0xFFFF for END. -/
def listBytes (slots : List Nat) : List Byte :=
  put1 (slots.take 8).length ++ (slots.take 8).flatMap put2 ++ put2 ((slots.drop 8).headD 0xFFFF)

/-- LIST's own rule (R79). -/
def listCommand (start : Half) (portal states changed : Byte) (s : State) : Answered :=
  match slotOf start with
  | none => refuse .badSlot s
  | some n =>
    if (3 < portal.toNat ∧ portal.toNat < 255) ∨ 64 ≤ states.toNat ∨ 1 < changed.toNat then refuse .badValue s
    else answer (listBytes (listSlots s n portal states changed)) s

/-- LIST (R79). -/
def execList (start : Half) (portal states changed : Byte) (s : State) : Host.Outcome State Fault Refusal :=
  takeCommand 5 (listCommand start portal states changed) s

end Sys2Proof.Machine
end

