-- ==== Sys2Proof/Machine/Levels.lean ====
section
/-! DEFINITION. The level of a luminaire (R82 to R95). -/

namespace Sys2Proof.Machine

/-- R89: the effective capability of a record. -/
def Record.effectiveCapability (r : Record) : Bool :=
  match r.override with
  | .forceOn => true
  | .forceOff => false
  | .auto => r.capability == some true

/-- R90: a record with these neighbours is boosted. -/
def Record.boosted (r : Record) (darkNeighbour : Bool) : Bool :=
  r.state == .active && r.pinned.isNone && r.effectiveCapability && darkNeighbour

/-- R86: the maintenance-corrected level c1. -/
def corrected (s m : Nat) : Nat := min Config.fullDrive (roundDiv (s * 1000) m)

/-- R87: the boosted level c2. -/
def boostedLevel (bp c1 : Nat) : Nat := min Config.fullDrive (roundDiv (c1 * (1000 + bp)) 1000)

/-- R83: the level chain, from the mode, the stage level, bp, the record and whether it is boosted. -/
def levelChain (mode : Mode) (stageLevel bp : Nat) (r : Record) (boost : Bool) : Nat :=
  if mode = .emergency then Config.fullDrive
  else match r.pinned with
    | some pin => if pin = 0 then 0 else max pin r.lmin
    | none =>
      if stageLevel = 0 then 0
      else
        let c1 := corrected stageLevel r.m
        let c2 := if boost then boostedLevel bp c1 else c1
        max c2 r.lmin

/-- R82: the level for the record of a slot, from the state at the grant. A slot in no footprint has no level. -/
def levelOfSlot (s : State) (n : Nat) : Nat :=
  match placeOfSlot s n with
  | none => 0
  | some (p, c) =>
    let x := s.portal p
    let r := s.record n
    let dark := match s.plan p with
      | none => false
      | some q => hasDarkNeighbour s q c
    levelChain x.mode (x.levels.toList.getD c.stage 0) x.active.boost r (r.boosted dark)

end Sys2Proof.Machine
end

