-- ==== Sys2Proof/Machine/Lines.lean ====
section
/-! DEFINITION. The lighting lines: the exchange and its phases (R115), frames and replies (R116, R117, R171), the arbiter
(R128 to R130), and SET_LINE and READ_LINE (R131, R132). -/

namespace Sys2Proof.Machine

/-! ## Frames (R116, R171) -/

/-- R171: the characters of a frame to an address. -/
def LineFrame.characters (f : LineFrame) (address : Nat) : List Byte :=
  let front := match f with
    | .level v => [BitVec.ofNat 8 address, 0x61] ++ put2 v
    | .identify => [BitVec.ofNat 8 address, 0x62]
    | .query => [BitVec.ofNat 8 address, 0x63]
    | .forget => [BitVec.ofNat 8 address, 0x64]
  front ++ [crc8 front]

/-- The frame an exchange puts on its line. -/
def Exchange.characters (x : Exchange) : List Byte := x.frame.characters x.address

/-! ## Replies (R116, R117, R171) -/

/-- R116: the news a driver reports. -/
inductive News where
  | fault (reason : FaultReason)
  | recovered
  deriving DecidableEq, Repr

/-- R116: an acceptable reply. -/
inductive DriverReply where
  | ack
  | ackMore
  | fault (reason : FaultReason)
  | ident (uid : Nat) (capability : Bool) (lmin : Nat)
  | news (more : Bool) (n : News)
  | nothing
  deriving DecidableEq, Repr

/-- R117: the number of characters a reply code calls for; none for a code the OL416 does not know. -/
def replyLength (code : Byte) : Option Nat :=
  if code = 0xC1 ∨ code = 0xC2 ∨ code = 0xC7 then some 3
  else if code = 0xC3 then some 4
  else if code = 0xC5 ∨ code = 0xC6 then some 5
  else if code = 0xC4 then some 12
  else none

/-- R115: the characters received make up the whole reply that its code calls for. -/
def replyComplete (received : List Byte) : Bool :=
  match received with
  | _ :: code :: _ =>
    match replyLength code with
    | some n => decide (n ≤ received.length)
    | none => false
  | _ => false

/-- R171: a reason of 1 to 4. -/
def reasonOf (b : Byte) : Option FaultReason :=
  if b = 1 then some .open else if b = 2 then some .short else if b = 3 then some .thermal
  else if b = 4 then some .supply else none

/-- R171: the news of NEWS_LAST and NEWS_MORE; RECOVERED carries reason 0 (log 11). -/
def newsOf (news reason : Byte) : Option News :=
  if news = 1 then (reasonOf reason).map News.fault
  else if news = 2 ∧ reason = 0 then some .recovered
  else none

/-- R117: what the characters before the check say, for a frame kind that allows them. -/
def readReply (f : LineFrame) (code : Byte) (fields : List Byte) : Option DriverReply :=
  match f with
  | .level _ =>
    if code = 0xC1 ∧ fields = [] then some .ack
    else if code = 0xC2 ∧ fields = [] then some .ackMore
    else if code = 0xC3 then
      match fields with
      | [reason] => (reasonOf reason).map DriverReply.fault
      | _ => none
    else none
  | .identify =>
    if code = 0xC4 then
      match fields with
      | [u5, u4, u3, u2, u1, u0, capability, hi, lo] =>
        let uid := (u48 [u5, u4, u3, u2, u1, u0] 0).toNat
        if uid = 0 then none
        else (switchOf capability).map fun can => .ident uid can (hi.toNat * 256 + lo.toNat)
      | _ => none
    else none
  | .query =>
    if code = 0xC7 ∧ fields = [] then some .nothing
    else if code = 0xC5 ∨ code = 0xC6 then
      match fields with
      | [news, reason] => (newsOf news reason).map (DriverReply.news (decide (code = 0xC6)))
      | _ => none
    else none
  | .forget => if code = 0xC1 ∧ fields = [] then some .ack else none

/-- R117: the acceptable reply that the received characters are; none is a miss. -/
def acceptReply (f : LineFrame) (address : Nat) (received : List Byte) : Option DriverReply :=
  match received with
  | driver :: code :: rest =>
    if replyLength code = some received.length ∧ crc8 received.dropLast = received.getLastD 0
        ∧ driver.toNat = address then readReply f code rest.dropLast
    else none
  | _ => none

/-! ## The phases of an exchange (R115) -/

/-- R115: a character received in a phase. While the frame is sent none is received; the reply phase ends with the
character that completes the reply, and later characters are the request slot's (log 12). -/
def Phase.receive (ph : Phase) (c : Byte) : Phase :=
  match ph with
  | .frame => .frame
  | .window => .reply [c]
  | .reply received => if replyComplete (received ++ [c]) then .slot (received ++ [c]) [] else .reply (received ++ [c])
  | .slot said asked => .slot said (asked ++ [c])

/-- Change the phase of the exchange in flight on a line; a line with none stays as it is. -/
def withPhase (l : Line) (f : Phase → Phase) (s : State) : State :=
  match (s.line l).state with
  | .busy x => s.setLine l { s.line l with state := .busy { x with phase := f x.phase } }
  | .idle => s
  | .quiet => s

/-- R115: the end of the frame's last character opens the reply window. -/
def Phase.afterFrame : Phase → Phase
  | .frame => .window
  | ph => ph

/-- R115: the window closes with no reply begun, and the request slot opens. -/
def Phase.afterWindow : Phase → Phase
  | .window => .slot [] []
  | ph => ph

/-- R115: 2 character times have passed with no further character, and the request slot opens. -/
def Phase.afterGap : Phase → Phase
  | .reply received => .slot received []
  | ph => ph

/-- FRAME_END (R115). -/
def execFrameEnd (l : Line) (s : State) : Host.Outcome State Fault Refusal := event (withPhase l Phase.afterFrame) s

/-- REPLY_WINDOW_CLOSE (R115). -/
def execReplyWindowClose (l : Line) (s : State) : Host.Outcome State Fault Refusal :=
  event (withPhase l Phase.afterWindow) s

/-- REPLY_GAP_TIMEOUT (R115). -/
def execReplyGapTimeout (l : Line) (s : State) : Host.Outcome State Fault Refusal := event (withPhase l Phase.afterGap) s

/-- REPLY_BEGUN (R115): one character; characters on an IDLE or QUIET line are discarded. -/
def execReplyBegun (l : Line) (c : Byte) (s : State) : Host.Outcome State Fault Refusal :=
  event (withPhase l fun ph => ph.receive c) s

/-- REPLY_RECEIVED (R115, R117): the characters that complete the reply. -/
def execReplyReceived (l : Line) (chars : List Byte) (s : State) : Host.Outcome State Fault Refusal :=
  event (withPhase l fun ph => chars.foldl Phase.receive ph) s

/-- R115: the end of a present line's quiet period. -/
def quietEnded (l : Line) (s : State) : State :=
  match (s.line l).state with
  | .quiet => if s.linePresent l then s.setLine l { s.line l with state := .idle } else s
  | .idle => s
  | .busy _ => s

/-- QUIET_PERIOD_END (R113, R115). -/
def execQuietPeriodEnd (l : Line) (s : State) : Host.Outcome State Fault Refusal := event (quietEnded l) s

/-! ## The arbiter (R128 to R130) -/

/-- R128: the slot at which the cursor of a portal waits on a line, with the given class. -/
def cursorWaits (s : State) (l : Line) (cls : SweepClass) (p : Fin 4) : Option Nat :=
  match (s.sweep p).running with
  | none => none
  | some w =>
    if w.cls = cls ∧ (w.cursor l).phase = .waiting then
      match (w.cursor l).position with
      | none => none
      | some n => waitingSlot s p l n
    else none

/-- R129: the portals in turn after a pointer, counting on from 3 to 0. -/
def turns (pointer : Fin 4) : List (Fin 4) := [pointer + 1, pointer + 2, pointer + 3, pointer]

/-- R129: the waiting cursor of a class whose portal comes first after the pointer. -/
def firstWaiting (s : State) (l : Line) (cls : SweepClass) (pointer : Fin 4) : Option (Fin 4 × Nat) :=
  (turns pointer).findSome? fun p => (cursorWaits s l cls p).map fun n => (p, n)

/-- Whom the arbiter grants. -/
inductive Grantee where
  | cursor (cls : SweepClass) (portal : Fin 4) (slot : Nat)
  | admin (entry : AdminEntry) (rest : List AdminEntry)
  | service (address : Nat) (rest : List Nat)
  deriving DecidableEq, Repr

/-- R128 orders 3 to 5. -/
def chooseUnhurried (c : LineCtl) (normal : Option (Fin 4 × Nat)) : Option Grantee :=
  match c.admin, c.service, normal with
  | e :: rest, _, _ => some (.admin e rest)
  | [], a :: rest, _ => some (.service a rest)
  | [], [], some (p, n) => some (.cursor .normal p n)
  | [], [], none => none

/-- R128: the first requester, in the order of the table, that is waiting. -/
def chooseGrantee (s : State) (l : Line) : Option Grantee :=
  let c := s.line l
  let normal := firstWaiting s l .normal c.normalPointer
  match firstWaiting s l .emergency c.emergencyPointer with
  | some (p, n) => some (.cursor .emergency p n)
  | none =>
    match normal with
    | some (p, n) =>
      if c.fairness = Config.fairnessLimit then some (.cursor .normal p n) else chooseUnhurried c normal
    | none => chooseUnhurried c normal

/-- R130: the fairness count after a grant to the admin queue or the service set. -/
def raised (count : Nat) : Nat := min Config.fairnessLimit (count + 1)

/-- R113, R115: a new exchange, in its FRAME phase. -/
def begun (f : LineFrame) (address : Nat) (o : Origin) : LineState :=
  .busy { frame := f, address := address, origin := o, phase := .frame }

/-- R102: the cursor of a portal on a line becomes ON_LINE for a slot, which is its position from then on (log 18). -/
def cursorGranted (p : Fin 4) (l : Line) (n : Nat) (s : State) : State :=
  match (s.sweep p).running with
  | none => s
  | some w =>
    s.setSweep p { s.sweep p with
      running := some (w.setCursor l { position := some n, phase := .onLine n }) }

/-- R129, R130: the line controller's count and pointers after a grant to a cursor of a class. -/
def LineCtl.servedCursor (c : LineCtl) (cls : SweepClass) (p : Fin 4) (st : LineState) : LineCtl :=
  match cls with
  | .normal => { c with state := st, fairness := 0, normalPointer := p }
  | .emergency => { c with state := st, emergencyPointer := p }

/-- R102, R116: build the frame for the record of a slot: IDENTIFY for PROBATION, LEVEL otherwise; a LEVEL's level is
written as the record's last sent level (R82). -/
def grantCursor (l : Line) (cls : SweepClass) (p : Fin 4) (n : Nat) (s : State) : State :=
  let r := s.record n
  let address := placeAddress r.place
  match r.sweepFrame with
  | some .identify =>
    cursorGranted p l n (s.setLine l ((s.line l).servedCursor cls p (begun .identify address (.cursor p))))
  | some .level =>
    let v := levelOfSlot s n
    let sent := s.setRecord n { r with lastSent := some v }
    cursorGranted p l n (sent.setLine l ((s.line l).servedCursor cls p (begun (.level v) address (.cursor p))))
  | none => s

/-- R116: the frame of an admin queue entry. -/
def AdminKind.frame : AdminKind → LineFrame
  | .identify => .identify
  | .forget => .forget

/-- R128: carry a grant out. -/
def grantTo (l : Line) (g : Grantee) (s : State) : State :=
  let c := s.line l
  match g with
  | .cursor cls p n => grantCursor l cls p n s
  | .admin e rest =>
    s.setLine l { c with state := begun e.kind.frame e.address .admin, admin := rest, fairness := raised c.fairness }
  | .service a rest =>
    s.setLine l { c with state := begun .query a .service, service := rest, fairness := raised c.fairness }

/-- R128: the arbiter grants an exchange on an IDLE line to the first waiting requester; with none, the line stays
IDLE. -/
def arbiterGrant (l : Line) (s : State) : State :=
  match (s.line l).state with
  | .idle =>
    match chooseGrantee s l with
    | none => s
    | some g => grantTo l g s
  | .quiet => s
  | .busy _ => s

/-- ARBITER_GRANT (R128; log 9). -/
def execArbiterGrant (l : Line) (s : State) : Host.Outcome State Fault Refusal := event (arbiterGrant l) s

/-! ## RESWEEP, SET_LINE and READ_LINE (R110, R131, R132) -/

/-- RESWEEP's own rule (R110). -/
def resweepCommand (portal : Byte) (s : State) : Answered :=
  match portalOf portal with
  | none => refuse .badValue s
  | some p => if (s.portal p).mode = .halted then refuse .portalHalted s else done false (requestSweep p s)

/-- RESWEEP (R110). -/
def execResweep (portal : Byte) (s : State) : Host.Outcome State Fault Refusal := takeCommand 1 (resweepCommand portal) s

/-- R131: a record of the line under a new limit: its count is clamped, and ACTIVE, PROBATION or DARK at the limit
becomes SILENT with its changed mark set. -/
def limited (limit : Nat) (r : Record) : Record :=
  let count := min r.misses limit
  if (r.state = .active ∨ r.state = .probation ∨ r.state = .dark) ∧ count = limit then
    { r with misses := count, state := .silent, changed := true }
  else { r with misses := count }

/-- R131: the slots of the line's non-vacant records. -/
def slotsOfLine (s : State) (l : Line) : List Nat :=
  (s.roster.filter fun e => e.2.nonVacant && e.2.onLine l).map (·.1)

/-- R131: the slots of the line whose record becomes SILENT under a new limit. -/
def silencedSlots (s : State) (l : Line) (limit : Nat) : List Nat :=
  (slotsOfLine s l).filter fun n => (s.record n).state != .silent && (limited limit (s.record n)).state == .silent

/-- R131: write the limit; clamp the counts, silence the records that reach it, hand SILENT once, and ask for sweeps. -/
def applyLimit (l : Line) (limit : Nat) (s : State) : State :=
  let silenced := silencedSlots s l limit
  let written := forEach (slotsOfLine s l) (fun n s => s.setRecord n (limited limit (s.record n)))
    (s.setLine l { s.line l with missLimit := limit })
  let noticed := if silenced.isEmpty then written else handEvent (lineEventClass l .silent) written
  settleSweeps (forEach silenced requestForSlot noticed)

/-- SET_LINE's own rule (R131). -/
def setLineCommand (line limit : Byte) (s : State) : Answered :=
  match presentLine s line with
  | .error a => refuse a s
  | .ok l => done (outside 1 7 limit.toNat) (applyLimit l (clamp 1 7 limit.toNat) s)

/-- SET_LINE (R131). -/
def execSetLine (line limit : Byte) (s : State) : Host.Outcome State Fault Refusal := takeCommand 2 (setLineCommand line limit) s

/-- R171: the code of an exchange kind. -/
def LineFrame.code : LineFrame → Nat
  | .level _ => 1
  | .identify => 2
  | .query => 3
  | .forget => 4

/-- R171: the code of an exchange origin. -/
def Origin.code : Origin → Nat
  | .cursor p => p.val
  | .admin => 4
  | .service => 5

/-- R132, R171: line state, then the exchange's kind, address and origin, zeros when absent. -/
def lineStateBytes : LineState → List Byte
  | .quiet => [0, 0, 0, 0]
  | .idle => [1, 0, 0, 0]
  | .busy x => put1 2 ++ put1 x.frame.code ++ put1 x.address ++ put1 x.origin.code

/-- R132, R171: the fourteen bytes of READ_LINE. -/
def lineBytes (s : State) (l : Line) : List Byte :=
  let c := s.line l
  putFlag (s.linePresent l) ++ put1 s.lineRate ++ put1 c.missLimit ++ lineStateBytes c.state ++ put1 c.fairness
    ++ put1 c.normalPointer.val ++ put1 c.emergencyPointer.val ++ put1 c.admin.length ++ put1 c.service.length
    ++ put1 c.strays.length ++ put1 c.ignored.length

/-- READ_LINE's own rule (R132). -/
def readLineCommand (line : Byte) (s : State) : Answered :=
  match lineOf line with
  | none => refuse .badValue s
  | some l => answer (lineBytes s l) s

/-- READ_LINE (R132). -/
def execReadLine (line : Byte) (s : State) : Host.Outcome State Fault Refusal := takeCommand 1 (readLineCommand line) s

end Sys2Proof.Machine
end

