-- ==== Sys2Proof/Machine/Completions.lean ====
section
/-! DEFINITION. The completion of an exchange (R118 to R127), the request slot (R134 to R137), and stray drivers (R136,
R141 to R148). -/

namespace Sys2Proof.Machine

/-! ## What a reply or a miss does to a record (R119 to R126) -/

/-- R118, R127: a record as a completion leaves it, with the events of its line and whether a sweep is asked for. -/
structure Applied where
  record : Record
  events : List LineEvent
  sweep : Bool
  deriving DecidableEq, Repr

/-- R121, R127: OPEN and SHORT, against THERMAL and SUPPLY. -/
def FaultReason.lasting : FaultReason → Bool
  | .open => true
  | .short => true
  | .thermal => false
  | .supply => false

/-- R97, R127: a change of state asks for a sweep: into or out of DARK, SILENT or RETIRING, or PROBATION to ACTIVE. -/
def stateAsks (old new : RecordState) : Bool :=
  old != new && (old.countsDark || new.countsDark || (old == .probation && new == .active))

/-- R97, R127: a DARK record's fault reason has changed between OPEN or SHORT and THERMAL or SUPPLY. -/
def reasonAsks (old new : Record) : Bool :=
  old.state == .dark && new.state == .dark && old.fault.map FaultReason.lasting != new.fault.map FaultReason.lasting

/-- R93: the reported capability or lmin has changed. -/
def identAsks (old new : Record) : Bool := old.capability != new.capability || old.lmin != new.lmin

/-- R97: what asks for a sweep in a change of a record by a completion; a replacement asks because m has changed. -/
def asksSweep (old new : Record) (replaced : Bool) : Bool :=
  stateAsks old.state new.state || reasonAsks old new || identAsks old new || replaced

/-- R64: the changed mark is set when state, fault reason or uid has changed. -/
def marked (old new : Record) : Record :=
  if old.state = new.state ∧ old.fault = new.fault ∧ old.uid = new.uid then new else { new with changed := true }

/-- R64, R127: what follows from the record before and after. -/
def outcome (old new : Record) (events : List LineEvent) : Applied :=
  { record := marked old new, events := events, sweep := asksSweep old new (events.contains .replaced) }

/-- R119: a miss. -/
def applyMiss (limit : Nat) (r : Record) : Applied :=
  if r.misses < limit then
    if r.misses + 1 = limit ∧ (r.state = .active ∨ r.state = .probation ∨ r.state = .dark) then
      outcome r { r with misses := limit, state := .silent } [.silent]
    else outcome r { r with misses := r.misses + 1 } []
  else outcome r r []

/-- The state that confirmed decides (R120). -/
def byConfirmed (r : Record) : RecordState := if r.confirmed then .active else .probation

/-- R120: the record after an acknowledgement or a recovery, apart from its level fields. Model's choice, DEDUCED (log 25): a
SILENT record returns by confirmed alone, whether or not it holds a fault reason. -/
def recovered (r : Record) : Record :=
  match r.state with
  | .silent => { r with misses := 0, state := byConfirmed r, fault := none }
  | .dark =>
    match r.fault with
    | some .thermal => { r with misses := 0, state := byConfirmed r, fault := none }
    | some .supply => { r with misses := 0, state := byConfirmed r, fault := none }
    | some .open => { r with misses := 0 }
    | some .short => { r with misses := 0 }
    | none => { r with misses := 0 }
  | .active => { r with misses := 0 }
  | .probation => { r with misses := 0 }
  | .vacant => { r with misses := 0 }
  | .retiring => { r with misses := 0 }

/-- R120: an ACK or ACK_MORE to a LEVEL frame that carried a level. -/
def applyAck (carried : Nat) (r : Record) : Applied := outcome r { recovered r with lastAcked := some carried } []

/-- R125: news RECOVERED: as an ACK, but the last acknowledged level is not written. -/
def applyRecovered (r : Record) : Applied := outcome r (recovered r) []

/-- R121: a FAULT reply, or news FAULT (R125). -/
def applyFault (reason : FaultReason) (r : Record) : Applied :=
  outcome r { r with misses := 0, state := .dark, fault := some reason }
    (if r.state = .dark ∧ r.fault = some reason then [] else [.fault])

/-- R124: the record in a uid conflict. -/
def applyConflict (limit : Nat) (r : Record) : Applied :=
  outcome r { r with misses := limit, state := .silent } (if r.state = .silent then [] else [.silent])

/-- R122: the state after an adoption or an equal uid. Model's choice, DEDUCED (log 25): a fault reason that a SILENT record
holds has no part in the state it returns to. -/
def identified (r : Record) : Record :=
  match r.state with
  | .probation => { r with state := .active }
  | .silent => { r with state := .active, fault := none }
  | .active => r
  | .dark => r
  | .vacant => r
  | .retiring => r

/-- R122, R123: an IDENT reply without a uid conflict. -/
def applyIdentity (uid : Nat) (capability : Bool) (lmin : Nat) (r : Record) : Applied :=
  let told := { r with misses := 0, capability := some capability, lmin := min lmin Config.lminMax, confirmed := true }
  if r.uid = 0 ∨ r.uid = uid then outcome r { identified told with uid := uid } []
  else outcome r { told with uid := uid, m := 1000, fault := none, state := .active } [.replaced]

/-- R122 to R124: an IDENT reply; `taken` says that another non-vacant record of either line holds the uid. -/
def applyIdent (limit : Nat) (taken : Bool) (uid : Nat) (capability : Bool) (lmin : Nat) (r : Record) : Applied :=
  if r.uid ≠ uid ∧ taken then applyConflict limit r else applyIdentity uid capability lmin r

/-- R125: NOTHING: the miss count becomes 0, and an unconfirmed SILENT record becomes PROBATION. Model's choice, DEDUCED: a
fault reason it holds is kept (log 20), and has no part in the state it returns to (log 25). -/
def applyNothing (r : Record) : Applied :=
  outcome r { r with misses := 0, state := if r.state = .silent ∧ !r.confirmed then .probation else r.state } []

/-- R126: the record of a completed FORGET exchange: VACANT with its changed mark set. -/
def applyForgotten : Applied := { record := .vacant true, events := [], sweep := true }

/-- R119 to R125: the record after a reply or a miss to a frame. -/
def applyReply (limit : Nat) (taken : Nat → Bool) (f : LineFrame) (reply : Option DriverReply) (r : Record) : Applied :=
  match reply, f with
  | none, _ => applyMiss limit r
  | some .ack, .level v => applyAck v r
  | some .ackMore, .level v => applyAck v r
  | some .ack, _ => outcome r r []
  | some .ackMore, _ => outcome r r []
  | some (.fault reason), _ => applyFault reason r
  | some (.ident uid can lmin), _ => applyIdent limit (taken uid) uid can lmin r
  | some (.news _ (.fault reason)), _ => applyFault reason r
  | some (.news _ .recovered), _ => applyRecovered r
  | some .nothing, _ => applyNothing r

/-! ## The service set and the admin queue (R138, R140) -/

/-- R138: offer an address to the tail of a service set. -/
def offered (service : List Nat) (address : Nat) : List Nat :=
  if service.contains address ∨ Config.serviceCapacity ≤ service.length then service else service ++ [address]

/-- R135, R138: offer an address to a line's service set. -/
def offerService (l : Line) (address : Nat) (s : State) : State :=
  s.setLine l { s.line l with service := offered (s.line l).service address }

/-- R136, R140: an admin queue after an IDENTIFY is offered to it. -/
def queuedIdentify (admin : List AdminEntry) (address : Nat) : List AdminEntry :=
  let e : AdminEntry := { kind := .identify, address := address }
  if admin.contains e ∨ Config.adminCapacity ≤ admin.length then admin else admin ++ [e]

/-- R136: queue an IDENTIFY for an address. -/
def queueIdentify (l : Line) (address : Nat) (s : State) : State :=
  s.setLine l { s.line l with admin := queuedIdentify (s.line l).admin address }

/-- The reply returns the address to the service set (R120 for ACK_MORE, R139 for NEWS_MORE). -/
def returnsToService : DriverReply → Bool
  | .ackMore => true
  | .news more _ => more
  | .ack => false
  | .fault _ => false
  | .ident _ _ _ => false
  | .nothing => false

/-! ## Step 1 of a completion (R118) -/

/-- R118 steps 1 and 2: write the record, hand its events to the notice unit and its request to the sweep unit. -/
def commitApplied (l : Line) (n : Nat) (a : Applied) (s : State) : State :=
  let noticed := forEach a.events (fun e s => handEvent (lineEventClass l e) s) (s.setRecord n a.record)
  if a.sweep then requestForSlot n noticed else noticed

/-- R142: an entry with what an IDENT reply reports. -/
def filledStray (uid : Nat) (capability : Bool) (lmin : Nat) (e : Stray) : Stray :=
  { e with uid := some uid, capability := some capability, lmin := some (min lmin Config.lminMax) }

/-- R142: an IDENT reply, for an address without a record, written into the stray entry of the address. -/
def strayIdent (l : Line) (address : Nat) (reply : Option DriverReply) (s : State) : State :=
  match reply with
  | some (.ident uid can lmin) =>
    s.setLine l { s.line l with
      strays := (s.line l).strays.map fun e => if e.address = address then filledStray uid can lmin e else e }
  | _ => s

/-- R118 steps 1 and 2: the result applied to the record that holds the line and address now, or to the stray queue. -/
def applyResult (l : Line) (x : Exchange) (reply : Option DriverReply) (s : State) : State :=
  match s.lookup l x.address with
  | none => if x.frame = .identify then strayIdent l x.address reply s else s
  | some n =>
    let r := s.record n
    if x.frame = .forget then
      if r.state = .retiring then commitApplied l n applyForgotten s else s
    else if r.state = .retiring then s
    else
      let applied := applyReply (s.line l).missLimit (s.uidElsewhere n) x.frame reply r
      let s' := commitApplied l n applied s
      if reply.any returnsToService then offerService l x.address s' else s'

/-! ## Step 3 of a completion: the request slot (R134 to R137) -/

/-- R134: a request. -/
inductive Request where
  | join (act : Bool) (address : Nat)
  | news (act : Bool) (address : Nat)
  deriving DecidableEq, Repr

/-- R134, R171: the request that the slot's characters spell; none when there is none or they are garbled. -/
def readRequest : List Byte → Option Request
  | [marker, driver, check] =>
    if crc8 [marker, driver] ≠ check then none
    else match addressOf driver with
      | none => none
      | some a =>
        if marker = 0xE0 then some (.join false a)
        else if marker = 0xE1 then some (.join true a)
        else if marker = 0xE2 then some (.news false a)
        else if marker = 0xE3 then some (.news true a)
        else none
  | _ => none

/-- R136: a new stray entry. -/
def Stray.unfilled (address : Nat) : Stray := { address := address, uid := none, capability := none, lmin := none }

/-- The stray queue holds an entry for the address. -/
def LineCtl.hasStray (c : LineCtl) (address : Nat) : Bool := c.strays.any fun e => e.address == address

/-- R136, R143: append an entry; the first entry of an empty queue hands STRAY as true. -/
def addStray (l : Line) (address : Nat) (s : State) : State :=
  let c := s.line l
  let s' := s.setLine l { c with strays := c.strays ++ [.unfilled address] }
  if c.strays.isEmpty then handTrue (strayClass l) s' else s'

/-- R136: a JOIN request with ACT set. -/
def takeJoin (l : Line) (address : Nat) (s : State) : State :=
  match s.lookup l address with
  | some n => if (s.record n).state = .retiring then s else queueIdentify l address s
  | none =>
    if (s.line l).ignored.contains address then s
    else if (s.line l).hasStray address then queueIdentify l address s
    else if (s.line l).strays.length < Config.strayCapacity then queueIdentify l address (addStray l address s)
    else s

/-- R135: a NEWS request with ACT set. -/
def takeNews (l : Line) (address : Nat) (s : State) : State :=
  match s.lookup l address with
  | some n => if (s.record n).state = .retiring then s else offerService l address s
  | none => s

/-- R137: a NEWS request with ACT clear. -/
def withdrawNews (l : Line) (address : Nat) (s : State) : State :=
  s.setLine l { s.line l with service := (s.line l).service.filter fun a => a != address }

/-- R135 to R137: a request taken. -/
def takeRequest (l : Line) (q : Option Request) (s : State) : State :=
  match q with
  | none => s
  | some (.join true a) => takeJoin l a s
  | some (.join false a) => removeStray l a s
  | some (.news true a) => takeNews l a s
  | some (.news false a) => withdrawNews l a s

/-! ## The completion (R118) -/

/-- R118 step 4: the completion handed to its origin; the admin queue and the service set take no action. -/
def notifyOrigin (l : Line) (o : Origin) (s : State) : State :=
  match o with
  | .cursor p => cursorCompleted p l s
  | .admin => s
  | .service => s

/-- R118 step 5: the exchange in flight becomes absent, and the line IDLE. -/
def freeLine (l : Line) (s : State) : State := s.setLine l { s.line l with state := .idle }

/-- R118: the five steps, for an exchange whose request slot has ended. -/
def complete (l : Line) (x : Exchange) (received request : List Byte) (s : State) : State :=
  settleSweeps
    (freeLine l
      (notifyOrigin l x.origin
        (takeRequest l (readRequest request)
          (applyResult l x (acceptReply x.frame x.address received) s))))

/-- R115, R118: the end of the request slot, with the characters received in it. -/
def exchangeCompletion (l : Line) (chars : List Byte) (s : State) : State :=
  match (s.line l).state with
  | .busy x =>
    match x.phase with
    | .slot received request => complete l x received (request ++ chars) s
    | .frame => s
    | .window => s
    | .reply _ => s
  | .idle => s
  | .quiet => s

/-- EXCHANGE_COMPLETION (R118). -/
def execExchangeCompletion (l : Line) (chars : List Byte) (s : State) : Host.Outcome State Fault Refusal :=
  event (exchangeCompletion l chars) s

/-! ## Commands for strays (R145 to R148) -/

/-- R145, R171: a stray entry. -/
def Stray.bytes (e : Stray) : List Byte :=
  put1 e.address ++ putOpt 6 put6 e.uid ++ put1 (capabilityCode e.capability) ++ putOpt 2 put2 e.lmin

/-- R145, R171: the stray queue and the ignore set of a line. -/
def strayBytes (c : LineCtl) : List Byte :=
  put1 c.strays.length ++ c.strays.flatMap Stray.bytes ++ put1 c.ignored.length ++ c.ignored.flatMap put1

/-- READ_STRAYS' own rule (R145). -/
def readStraysCommand (line : Byte) (s : State) : Answered :=
  match presentLine s line with
  | .error a => refuse a s
  | .ok l => answer (strayBytes (s.line l)) s

/-- READ_STRAYS (R145). -/
def execReadStrays (line : Byte) (s : State) : Host.Outcome State Fault Refusal := takeCommand 1 (readStraysCommand line) s

/-- R146: the line's stray entry for an address. -/
def strayOf (s : State) (line address : Byte) : Option Stray :=
  match lineOf line, addressOf address with
  | some l, some a => (s.line l).strays.find? fun e => e.address == a
  | _, _ => none

/-- ADMIT_STRAY's own rule (R146): the seven checks of ADMIT with the entry's uid, then the eighth. -/
def admitStrayCommand (line address : Byte) (slot m : Half) (override : Byte) (s : State) : Answered :=
  let entry := strayOf s line address
  match admissionChecks slot line address ((entry.bind (·.uid)).getD 0) m override s with
  | .error a => refuse a s
  | .ok x =>
    match entry with
    | none => refuse .notFound s
    | some e => done (outside 500 1000 x.m) (fillSlot x e.capability (e.lmin.getD 0) s)

/-- ADMIT_STRAY (R146). -/
def execAdmitStray (line address : Byte) (slot m : Half) (override : Byte) (s : State) : Host.Outcome State Fault Refusal :=
  takeCommand 7 (admitStrayCommand line address slot m override) s

/-- R147: an admin queue without the waiting IDENTIFY of an address. -/
def withoutIdentify (admin : List AdminEntry) (address : Nat) : List AdminEntry :=
  admin.filter fun e => e != { kind := .identify, address := address }

/-- R144: an ignore set after an address is appended; a full set loses its oldest address. -/
def ignoredWith (ignored : List Nat) (address : Nat) : List Nat :=
  if Config.ignoreCapacity ≤ ignored.length then ignored.drop 1 ++ [address] else ignored ++ [address]

/-- R147: a stray that is rejected. -/
def rejectStray (l : Line) (address : Nat) (s : State) : State :=
  let s := removeStray l address s
  s.setLine l { s.line l with
    admin := withoutIdentify (s.line l).admin address, ignored := ignoredWith (s.line l).ignored address }

/-- REJECT_STRAY's own rule (R147). -/
def rejectStrayCommand (line address : Byte) (s : State) : Answered :=
  match lineOf line, addressOf address with
  | some l, some a =>
    if !s.linePresent l then refuse .noLine s
    else if !(s.line l).hasStray a then refuse .notFound s
    else done false (rejectStray l a s)
  | _, _ => refuse .badValue s

/-- REJECT_STRAY (R147). -/
def execRejectStray (line address : Byte) (s : State) : Host.Outcome State Fault Refusal :=
  takeCommand 2 (rejectStrayCommand line address) s

/-- CLEAR_IGNORE's own rule (R148). -/
def clearIgnoreCommand (line : Byte) (s : State) : Answered :=
  match presentLine s line with
  | .error a => refuse a s
  | .ok l => done false (s.setLine l { s.line l with ignored := [] })

/-- CLEAR_IGNORE (R148). -/
def execClearIgnore (line : Byte) (s : State) : Host.Outcome State Fault Refusal :=
  takeCommand 1 (clearIgnoreCommand line) s

end Sys2Proof.Machine
end

