-- ==== Sys2Proof/Machine/NoticeCommands.lean ====
section
/-! DEFINITION. The notice unit's commands (R150 to R157) and the portal snapshots (R159 to R161). -/

namespace Sys2Proof.Machine

/-- R150, R151: a class byte names one class, or every class when it is 255. -/
def classesOf (b : Byte) : Option (List (Fin 32)) :=
  if h : b.toNat < 32 then some [⟨b.toNat, h⟩] else if b = 255 then some allClasses else none

/-- SET_PRIORITY's own rule (R150). -/
def setPriorityCommand (cls priority : Byte) (s : State) : Answered :=
  match classesOf cls with
  | none => refuse .badValue s
  | some cs =>
    let kept := clamp 1 15 priority.toNat
    done (outside 1 15 priority.toNat)
      (forEach cs (fun c s => s.setNoticeClass c { s.noticeClass c with priority := kept }) s)

/-- SET_PRIORITY (R150). -/
def execSetPriority (cls priority : Byte) (s : State) : Host.Outcome State Fault Refusal :=
  takeCommand 2 (setPriorityCommand cls priority) s

/-- MASK's own rule (R151). -/
def maskCommand (cls setting : Byte) (s : State) : Answered :=
  match classesOf cls, switchOf setting with
  | some cs, some m =>
    done false (forEach cs (fun c s => s.setNoticeClass c { s.noticeClass c with masked := m }) s)
  | _, _ => refuse .badValue s

/-- MASK (R151). -/
def execMask (cls setting : Byte) (s : State) : Host.Outcome State Fault Refusal := takeCommand 2 (maskCommand cls setting) s

/-- R154: the class taken: its pending mark is cleared, and it is pushed unless auto-finish is on. -/
def takenNotice (c : Fin 32) (s : State) : State :=
  let x := s.noticeClass c
  let s' := s.setNoticeClass c { x with pending := false }
  if s.notices.autoFinish then s'
  else { s' with notices := { s'.notices with stack := { cls := c, priority := x.priority } :: s'.notices.stack } }

/-- TAKE_NOTICE's own rule (R154). -/
def takeNoticeCommand (s : State) : Answered :=
  match pickClass s with
  | none => answer (put1 255 ++ put1 0 ++ put1 s.notices.stack.length) s
  | some c =>
    let s' := takenNotice c s
    answer (put1 c.val ++ put1 (s.noticeClass c).priority ++ put1 s'.notices.stack.length) s'

/-- TAKE_NOTICE (R154). -/
def execTakeNotice (s : State) : Host.Outcome State Fault Refusal := takeCommand 0 takeNoticeCommand s

/-- R155: the top entry popped; a condition class whose holds mark is set becomes pending again. -/
def finishedNotice (e : StackEntry) (rest : List StackEntry) (s : State) : State :=
  let s' := { s with notices := { s.notices with stack := rest } }
  let x := s.noticeClass e.cls
  if isCondition e.cls ∧ x.holds then s'.setNoticeClass e.cls { x with pending := true } else s'

/-- FINISH_NOTICE's own rule (R155). -/
def finishNoticeCommand (s : State) : Answered :=
  match s.notices.stack with
  | [] => answer (put1 255 ++ put1 0 ++ put1 0) s
  | e :: rest =>
    let s' := finishedNotice e rest s
    answer (put1 e.cls.val ++ putFlag (s'.noticeClass e.cls).pending ++ put1 rest.length) s'

/-- FINISH_NOTICE (R155). -/
def execFinishNotice (s : State) : Host.Outcome State Fault Refusal := takeCommand 0 finishNoticeCommand s

/-- SET_AUTO_FINISH's own rule (R156). -/
def setAutoFinishCommand (setting : Byte) (s : State) : Answered :=
  match switchOf setting with
  | none => refuse .badValue s
  | some on => done false { s with notices := { s.notices with autoFinish := on } }

/-- SET_AUTO_FINISH (R156). -/
def execSetAutoFinish (setting : Byte) (s : State) : Host.Outcome State Fault Refusal :=
  takeCommand 1 (setAutoFinishCommand setting) s

/-- R171: class marks as one number, bit n for class n. -/
def marksOf (s : State) (f : NoticeClass → Bool) : Nat :=
  allClasses.foldl (fun acc c => if f (s.noticeClass c) then acc + 2 ^ c.val else acc) 0

/-- R157, R171: the reply of READ_NOTICES; the stack bottom first. -/
def noticeBytes (s : State) : List Byte :=
  put4 (marksOf s (·.pending)) ++ put4 (marksOf s (·.masked)) ++ put4 (marksOf s (·.holds))
    ++ allClasses.flatMap (fun c => put1 (s.noticeClass c).priority) ++ putFlag s.notices.autoFinish
    ++ put1 s.notices.stack.length
    ++ s.notices.stack.reverse.flatMap (fun e => put1 e.cls.val ++ put1 e.priority) ++ putFlag (notifyAsserted s)

/-- READ_NOTICES' own rule (R157). -/
def readNoticesCommand (s : State) : Answered := answer (noticeBytes s) s

/-- READ_NOTICES (R157). -/
def execReadNotices (s : State) : Host.Outcome State Fault Refusal := takeCommand 0 readNoticesCommand s

/-! ## Snapshots (R159 to R161) -/

/-- R159: the OUTPUT part of a portal as it stands. -/
def outputOf (s : State) (p : Fin 4) : Output :=
  { mode := (s.portal p).mode, targets := six (s.portal p).target, levels := (s.portal p).levels,
    done := (s.sweep p).done, owed := (s.sweep p).owed }

/-- R160: latch the named parts of a portal that are free. -/
def latch (photo output : Bool) (s : State) (p : Fin 4) (x : Snapshot) : Snapshot :=
  { photo := if photo && x.photo.isNone then some (photoOf s p) else x.photo,
    output := if output && x.output.isNone then some (outputOf s p) else x.output }

/-- R160, R171: the parts named that satisfy a test, bit 2p for PHOTO and bit 2p + 1 for OUTPUT of portal p. -/
def partSet (portals parts : Byte) (photo output : Fin 4 → Bool) : Nat :=
  allPortals.foldl
    (fun acc p =>
      acc + (if portals.getLsbD p.val && parts.getLsbD 0 && photo p then 2 ^ (2 * p.val) else 0)
        + (if portals.getLsbD p.val && parts.getLsbD 1 && output p then 2 ^ (2 * p.val + 1) else 0)) 0

/-- SNAPSHOT's own rule (R160): all parts are copied from one and the same state. -/
def snapshotCommand (portals parts : Byte) (s : State) : Answered :=
  if 16 ≤ portals.toNat ∨ 4 ≤ parts.toNat then refuse .badValue s
  else
    let latched := partSet portals parts (fun p => (s.snapshotOf p).photo.isNone) (fun p => (s.snapshotOf p).output.isNone)
    let already := partSet portals parts (fun p => (s.snapshotOf p).photo.isSome) (fun p => (s.snapshotOf p).output.isSome)
    answer (put1 latched ++ put1 already)
      (forEach (allPortals.filter fun p => portals.getLsbD p.val)
        (fun p s' => s'.setSnapshot p (latch (parts.getLsbD 0) (parts.getLsbD 1) s p (s.snapshotOf p))) s)

/-- SNAPSHOT (R160). -/
def execSnapshot (portals parts : Byte) (s : State) : Host.Outcome State Fault Refusal :=
  takeCommand 2 (snapshotCommand portals parts) s

/-- R171: the bytes of an OUTPUT part. -/
def Output.bytes (x : Output) : List Byte :=
  put1 x.mode.code ++ putSix (fun i => x.targets[i]) ++ putSix (fun i => x.levels[i]) ++ putFlag x.done ++ putFlag x.owed

/-- R161, R171: both parts of a portal, HELD with the copy or LIVE with the state as it stands. -/
def snapshotBytes (s : State) (p : Fin 4) : List Byte :=
  let x := s.snapshotOf p
  putFlag x.photo.isSome ++ (x.photo.getD (photoOf s p)).bytes
    ++ putFlag x.output.isSome ++ (x.output.getD (outputOf s p)).bytes

/-- READ_SNAPSHOT's own rule (R161): both parts become free, and the flags reported set are cleared (R10). -/
def readSnapshotCommand (portal : Byte) (s : State) : Answered :=
  match portalOf portal with
  | none => refuse .badValue s
  | some p =>
    let shown := (s.snapshotOf p).photo.getD (photoOf s p)
    answer (snapshotBytes s p) (clearReported shown (s.setSnapshot p { photo := none, output := none }))

/-- READ_SNAPSHOT (R161). -/
def execReadSnapshot (portal : Byte) (s : State) : Host.Outcome State Fault Refusal :=
  takeCommand 1 (readSnapshotCommand portal) s

end Sys2Proof.Machine
end

