-- ==== Sys2Proof/Machine/Resets.lean ====
section
/-! DEFINITION. RESTART (R168), the power-on reset (R169), and the carrying out of whole transfers (R162, R163). -/

namespace Sys2Proof.Machine

/-! ## What RESTART sets in each block (R168) -/

/-- R18: a meter table entry; the hold timer starts with H of its portal's active profile. -/
def restartedMeter (s : State) (x : Meter) : Meter :=
  match x.site with
  | none => x
  | some q =>
    { x with state := .awaiting, reading := none, status := none, lost := false,
             hold := some (s.portal q.portal).active.hold, due := true }

/-- R18, R35, R55: a portal controller. -/
def Portal.restarted (x : Portal) : Portal :=
  { x with condition := .unset, lf := none, stageShort := false, mode := .halted, returnMode := none,
           pendingMode := none, rampTimer := none, refreshTimer := none }

/-- R81: a record. -/
def Record.restarted (r : Record) : Record :=
  if r.state = .retiring then .vacant true else { r with misses := 0 }

/-- R133: a line controller; the miss limit is kept (log 24). -/
def LineCtl.restarted (c : LineCtl) : LineCtl := { LineCtl.powerOn with missLimit := c.missLimit }

/-- R158: a notice class. -/
def NoticeClass.restarted (x : NoticeClass) : NoticeClass := { x with pending := false, holds := false }

/-- R18: the meter line unit. -/
def restartMeters (s : State) : State :=
  { forEach allMeters (fun m s => s.setMeter m (restartedMeter s (s.meter m))) s with lastPolled := none, poll := none }

/-- R35, R55: the portal controllers. -/
def restartPortals (s : State) : State := forEach allPortals (fun p s => s.setPortal p (s.portal p).restarted) s

/-- R81: the roster. -/
def restartRoster (s : State) : State :=
  forEach (s.roster.map (·.1)) (fun n s => s.setRecord n (s.record n).restarted) s

/-- R112: the sweeps. -/
def restartSweeps (s : State) : State := forEach allPortals (fun p s => s.setSweep p .powerOn) s

/-- R133: the line controllers. -/
def restartLines (s : State) : State := forEach allLines (fun l s => s.setLine l (s.line l).restarted) s

/-- R158: the notice unit. -/
def restartNotices (s : State) : State :=
  let cleared := forEach allClasses (fun c s => s.setNoticeClass c (s.noticeClass c).restarted) s
  { cleared with notices := { cleared.notices with stack := [] } }

/-- R159: the snapshot buffers. -/
def restartSnapshots (s : State) : State := forEach allPortals (fun p s => s.setSnapshot p { photo := none, output := none }) s

/-- R168: every block at its RESTART values, before any evaluation; the notice unit is cleared first. -/
def restartValues (s : State) : State :=
  restartSnapshots (restartLines (restartSweeps (restartRoster (restartPortals (restartMeters (restartNotices s))))))

/-- R13, R31: the evaluations of photometry and STAGE_SHORT at RESTART and at the release of RESET_N. -/
def evaluateAll (s : State) : State :=
  forEach allPortals evalStageShort (forEach allPortals evalCondition s)

/-- R49: the examination of EMERG_N: a pin at its active level puts every enabled portal into EMERGENCY. -/
def examineEmergN (s : State) : State := if s.emergAsserted then enterAll s else s

/-- RESTART's own rule (R168). -/
def restartCommand (s : State) : Answered := done false (examineEmergN (evaluateAll (restartValues s)))

/-- RESTART (R168). -/
def execRestart (s : State) : Host.Outcome State Fault Refusal := takeCommand 0 restartCommand s

/-! ## Power-on reset (R169) -/

/-- R169: while RESET_N is low every block holds its power-on values. The queue of the model and the level of EMERG_N,
which comes from outside, are kept. -/
def resetAsserted (s : State) : State := { State.reset with pending := s.pending, emergN := s.emergN }

/-- RESET_N_ASSERTED (R169). -/
def execResetNAsserted (s : State) : Host.Outcome State Fault Refusal := .next (resetAsserted s)

/-- R169: the straps are sampled, photometry is evaluated, EMERG_N is examined, and READY rises with no reply held. A
transfer already in progress is ignored from here on (R162). -/
def resetReleased (straps : BitVec 4) (pins : PinLevels) (s : State) : State :=
  let sampled := { s with resetN := true, straps := straps, emergN := pins.emergN }
  let examined := examineEmergN (evaluateAll sampled)
  { examined with
    port := { examined.port with ready := true, held := none, preparing := none, ignoring := !pins.csN } }

/-- RESET_N_RELEASE (R169); a RESET_N that is high already is not released (log 2). -/
def execResetNRelease (straps : BitVec 4) (pins : PinLevels) (s : State) : Host.Outcome State Fault Refusal :=
  .next (if s.resetN then s else resetReleased straps pins s)

/-! ## Whole transfers (R162, R163) -/

/-- R163: the own rule of the command that a good frame holds; a row that is no host command has none. -/
def carryOut (i : Instr) : State → Answered :=
  match i with
  | .restart => restartCommand
  | .readIdent => readIdent
  | .setMeter m o a p => setMeter m o a p
  | .readPortal p => readPortal p
  | .setProfile p f v => setProfile p f v
  | .start p m => startCommand p m
  | .halt p => haltCommand p
  | .setRamp p st u d db rf => setRamp p st u d db rf
  | .requestMode p m => requestMode p m
  | .setStageLevel p st l => setStageLevel p st l
  | .setCoupling f l => setCoupling f l
  | .setEmergencyEnable p e => setEmergencyEnable p e
  | .release p => releaseCommand p
  | .setPlan p s r q b rs ss => setPlanCommand p s r q b rs ss
  | .admitRecord sl l a u m o => admitCommand sl l a u m o
  | .amend sl sel m o pin u => amendCommand sl sel m o pin u
  | .move a b => moveCommand a b
  | .retire a => retireCommand a
  | .clearFault a => clearFaultCommand a
  | .readRecord a => readRecordCommand a
  | .find l a => findCommand l a
  | .findUid u => findUidCommand u
  | .list st p sf cf => listCommand st p sf cf
  | .resweep p => resweepCommand p
  | .setLine l m => setLineCommand l m
  | .readLine l => readLineCommand l
  | .readStrays l => readStraysCommand l
  | .admitStray l a sl m o => admitStrayCommand l a sl m o
  | .rejectStray l a => rejectStrayCommand l a
  | .clearIgnore l => clearIgnoreCommand l
  | .setPriority c p => setPriorityCommand c p
  | .mask c m => maskCommand c m
  | .takeNotice => takeNoticeCommand
  | .finishNotice => finishNoticeCommand
  | .setAutoFinish v => setAutoFinishCommand v
  | .readNotices => readNoticesCommand
  | .snapshot ps qs => snapshotCommand ps qs
  | .readSnapshot p => readSnapshotCommand p
  | .badCommandFrame _ => refuse .unknownCommand
  | .discardedCommandTransfer _ => refuse .unknownCommand
  | .ignoredTransfer _ => refuse .unknownCommand
  | .replyRead _ => refuse .unknownCommand
  | .resetNAsserted => refuse .unknownCommand
  | .resetNRelease _ _ => refuse .unknownCommand
  | .emergNAssertion => refuse .unknownCommand
  | .emergNRelease => refuse .unknownCommand
  | .rampExpiry _ => refuse .unknownCommand
  | .refreshTimerExpiry _ => refuse .unknownCommand
  | .holdTimerExpiry _ => refuse .unknownCommand
  | .pollDue _ => refuse .unknownCommand
  | .pollStart => refuse .unknownCommand
  | .pollCompletion _ _ _ _ _ => refuse .unknownCommand
  | .pollWindowClose => refuse .unknownCommand
  | .quietPeriodEnd _ => refuse .unknownCommand
  | .arbiterGrant _ => refuse .unknownCommand
  | .frameEnd _ => refuse .unknownCommand
  | .replyWindowClose _ => refuse .unknownCommand
  | .replyReceived _ _ => refuse .unknownCommand
  | .replyGapTimeout _ => refuse .unknownCommand
  | .exchangeCompletion _ _ => refuse .unknownCommand
  | .replyBegun _ _ => refuse .unknownCommand
  | .readyRise => refuse .unknownCommand

/-- R163: a frame that fails a check is answered with its code and not carried out; one that passes is handed to the
command's own rule. -/
def frameRule (frame : List Byte) (s : State) : Answered :=
  match Frame.parse frame with
  | .error a => refuse a s
  | .ok i => carryOut i s

/-- R162, R165: a command transfer whose frame is these bytes, after the selector. -/
def commandTransfer (frame : List Byte) (s : State) : State := takeTransfer (frame.length + 1) (frameRule frame) s

/-- R162: the first byte of a transfer selects its kind. -/
def spiTransfer (bytes : List Byte) (s : State) : State :=
  match bytes with
  | [] => transfer 0 (ignoreTransfer 0) s
  | first :: rest =>
    if first = 0xA5 then commandTransfer rest s
    else if first = 0x5A then replyTransfer rest.length s
    else transfer bytes.length (ignoreTransfer bytes.length) s

/-- BAD_COMMAND_FRAME (R163; log 13). -/
def execBadCommandFrame (frame : List Byte) (s : State) : Host.Outcome State Fault Refusal :=
  .next (commandTransfer frame s)

/-- DISCARDED_COMMAND_TRANSFER (R165; log 13). -/
def execDiscardedCommandTransfer (frame : List Byte) (s : State) : Host.Outcome State Fault Refusal :=
  .next (commandTransfer frame s)

/-- IGNORED_TRANSFER (R162; log 13). -/
def execIgnoredTransfer (bytes : List Byte) (s : State) : Host.Outcome State Fault Refusal := .next (spiTransfer bytes s)

end Sys2Proof.Machine
end

