-- ==== Sys2Proof/Machine/Dispatch.lean ====
section
/-! DEFINITION. The dispatch: one arm for each row of spec/opcode_table.json. -/

namespace Sys2Proof.Machine

def exec (i : Instr) (s : State) : Host.Outcome State Fault Refusal :=
  match i with
  | .restart => Sys2Proof.Machine.execRestart s
  | .readIdent => Sys2Proof.Machine.execReadIdent s
  | .setMeter meter operation address portal => Sys2Proof.Machine.execSetMeter meter operation address portal s
  | .readPortal portal => Sys2Proof.Machine.execReadPortal portal s
  | .setProfile portal flags values => Sys2Proof.Machine.execSetProfile portal flags values s
  | .start portal mode => Sys2Proof.Machine.execStart portal mode s
  | .halt portal => Sys2Proof.Machine.execHalt portal s
  | .setRamp portal steps up down deadband refresh => Sys2Proof.Machine.execSetRamp portal steps up down deadband refresh s
  | .requestMode portal mode => Sys2Proof.Machine.execRequestMode portal mode s
  | .setStageLevel portal stage level => Sys2Proof.Machine.execSetStageLevel portal stage level s
  | .setCoupling follower leader => Sys2Proof.Machine.execSetCoupling follower leader s
  | .setEmergencyEnable portal setting => Sys2Proof.Machine.execSetEmergencyEnable portal setting s
  | .release portal => Sys2Proof.Machine.execRelease portal s
  | .setPlan portal stages rows positions base rowStride stageStride => Sys2Proof.Machine.execSetPlan portal stages rows positions base rowStride stageStride s
  | .admitRecord slot line address uid m override => Sys2Proof.Machine.execAdmit slot line address uid m override s
  | .amend slot selection m override pinned uid => Sys2Proof.Machine.execAmend slot selection m override pinned uid s
  | .move slot newSlot => Sys2Proof.Machine.execMove slot newSlot s
  | .retire slot => Sys2Proof.Machine.execRetire slot s
  | .clearFault slot => Sys2Proof.Machine.execClearFault slot s
  | .readRecord slot => Sys2Proof.Machine.execReadRecord slot s
  | .find line address => Sys2Proof.Machine.execFind line address s
  | .findUid uid => Sys2Proof.Machine.execFindUid uid s
  | .list start portal states changed => Sys2Proof.Machine.execList start portal states changed s
  | .resweep portal => Sys2Proof.Machine.execResweep portal s
  | .setLine line limit => Sys2Proof.Machine.execSetLine line limit s
  | .readLine line => Sys2Proof.Machine.execReadLine line s
  | .readStrays line => Sys2Proof.Machine.execReadStrays line s
  | .admitStray line address slot m override => Sys2Proof.Machine.execAdmitStray line address slot m override s
  | .rejectStray line address => Sys2Proof.Machine.execRejectStray line address s
  | .clearIgnore line => Sys2Proof.Machine.execClearIgnore line s
  | .setPriority cls priority => Sys2Proof.Machine.execSetPriority cls priority s
  | .mask cls setting => Sys2Proof.Machine.execMask cls setting s
  | .takeNotice => Sys2Proof.Machine.execTakeNotice s
  | .finishNotice => Sys2Proof.Machine.execFinishNotice s
  | .setAutoFinish setting => Sys2Proof.Machine.execSetAutoFinish setting s
  | .readNotices => Sys2Proof.Machine.execReadNotices s
  | .snapshot portals parts => Sys2Proof.Machine.execSnapshot portals parts s
  | .readSnapshot portal => Sys2Proof.Machine.execReadSnapshot portal s
  | .badCommandFrame frame => Sys2Proof.Machine.execBadCommandFrame frame s
  | .discardedCommandTransfer frame => Sys2Proof.Machine.execDiscardedCommandTransfer frame s
  | .ignoredTransfer bytes => Sys2Proof.Machine.execIgnoredTransfer bytes s
  | .replyRead clocked => Sys2Proof.Machine.execReplyRead clocked s
  | .resetNAsserted => Sys2Proof.Machine.execResetNAsserted s
  | .resetNRelease straps pins => Sys2Proof.Machine.execResetNRelease straps pins s
  | .emergNAssertion => Sys2Proof.Machine.execEmergNAssertion s
  | .emergNRelease => Sys2Proof.Machine.execEmergNRelease s
  | .rampExpiry portal => Sys2Proof.Machine.execRampExpiry portal s
  | .refreshTimerExpiry portal => Sys2Proof.Machine.execRefreshTimerExpiry portal s
  | .holdTimerExpiry meter => Sys2Proof.Machine.execHoldTimerExpiry meter s
  | .pollDue meter => Sys2Proof.Machine.execPollDue meter s
  | .pollStart => Sys2Proof.Machine.execPollStart s
  | .pollCompletion c0 c1 c2 c3 c4 => Sys2Proof.Machine.execPollCompletion c0 c1 c2 c3 c4 s
  | .pollWindowClose => Sys2Proof.Machine.execPollWindowClose s
  | .quietPeriodEnd line => Sys2Proof.Machine.execQuietPeriodEnd line s
  | .arbiterGrant line => Sys2Proof.Machine.execArbiterGrant line s
  | .frameEnd line => Sys2Proof.Machine.execFrameEnd line s
  | .replyWindowClose line => Sys2Proof.Machine.execReplyWindowClose line s
  | .replyReceived line chars => Sys2Proof.Machine.execReplyReceived line chars s
  | .replyGapTimeout line => Sys2Proof.Machine.execReplyGapTimeout line s
  | .exchangeCompletion line chars => Sys2Proof.Machine.execExchangeCompletion line chars s
  | .replyBegun line char => Sys2Proof.Machine.execReplyBegun line char s
  | .readyRise => Sys2Proof.Machine.execReadyRise s

end Sys2Proof.Machine
end

