-- ==== Sys2Proof/Machine/Pins.lean ====
section
/-! DEFINITION. The output pins (section 10.8), each a function of the state. While RESET_N is low every enable is low, every
transmit pin is idle, READY is low and NOTIFY_N is not asserted (R169). -/

namespace Sys2Proof.Machine

/-- What a transmit pin carries: the idle (high) level, or the characters of a frame. -/
inductive TxPin where
  | idle
  | sending (chars : List Byte)
  deriving DecidableEq, Repr

/-- R114, R115, R169: the frame that a line controller transmits: that of an exchange in its FRAME phase; none while RESET_N
is low and on an absent line B. -/
def lineSending (s : State) (l : Line) : Option (List Byte) :=
  if s.resetN && s.linePresent l then
    match (s.line l).state with
    | .busy x => if x.phase = .frame then some x.characters else none
    | .idle => none
    | .quiet => none
  else none

/-- R114, R169: the level of LA_DE or LB_DE: high while the controller transmits its frame, the idle characters that come
first in the FRAME phase included (log 19). -/
def lineEnable (s : State) (l : Line) : Bool := (lineSending s l).isSome

/-- R115, R169: LA_TX or LB_TX. -/
def lineTx (s : State) (l : Line) : TxPin :=
  match lineSending s l with
  | none => .idle
  | some chars => .sending chars

/-- R4, R5, R169: the poll frame of the poll in progress; none while RESET_N is low. -/
def meterSending (s : State) : Option (List Byte) := if s.resetN then s.poll.map pollFrame else none

/-- R169: the level of MT_DE. Low while no poll is in progress; inside a poll it is high until the end of the poll frame, a
moment that no row marks, so that the state does not give it (log 19). -/
def meterEnable (s : State) : Option Bool := if (meterSending s).isSome then none else some false

/-- R5, R169: MT_TX: with a poll in progress it carries the poll's frame, and is idle again from the frame's end (log 19). -/
def meterTx (s : State) : TxPin :=
  match meterSending s with
  | none => .idle
  | some chars => .sending chars

/-- R165, R169: the level of READY: true is high. -/
def readyPin (s : State) : Bool := s.resetN && s.port.ready

/-- R153, R169: the level of NOTIFY_N: true is high, low while a class is eligible. -/
def notifyPin (s : State) : Bool := !(s.resetN && notifyAsserted s)

/-- R162: MISO between two rows: none is high impedance, which it has while CS_N is high. CS_N is low between two rows only
inside a transfer that was in progress at the release of RESET_N, in which MISO carries 0x00 (log 8, log 26). -/
def misoPin (s : State) : Option Bool := if s.port.ignoring then some false else none

end Sys2Proof.Machine
end

