-- ==== Sys2Proof/Safety.lean ====
section
/-! DEFINITION. The vocabulary of the claims: what a taken command and an event give, the division of the spec's rounding
and its polynomial check, and the laws that every step keeps. -/

namespace Sys2Proof.Machine

/-! ## Commands and events -/

/-- R162, R165: RESET_N is high, READY is high and no transfer is left over from before the release of RESET_N, so a command
transfer is taken. -/
def State.listening (s : State) : Prop := s.resetN = true ∧ s.port.ready = true ∧ s.port.ignoring = false

/-- R165, R167: the command is taken and given this answer code and payload: READY has fallen, the earlier reply is
discarded and the new one is in preparation; apart from the port, the state is the one given. -/
def Answers (c : Instr) (s : State) (code : Answer) (payload : List Byte) (t : State) : Prop :=
  ∃ u, exec c s = .next u ∧ u.port.ready = false ∧ u.port.held = none
    ∧ u.port.preparing = some { answer := code, payload := payload } ∧ { u with port := s.port } = t

/-- R167: the command is taken and refused with a code, without payload, and no state is changed. -/
def Refuses (c : Instr) (s : State) (code : Answer) : Prop := Answers c s code [] s

/-- The checks of a command in the order of its table: the first condition that holds gives the refusal; a command that
passes them all does what is said last. -/
def Checked (c : Instr) (s : State) : List (Prop × Answer) → Prop → Prop
  | [], passed => passed
  | (bad, code) :: rest, passed => (bad → Refuses c s code) ∧ (¬ bad → Checked c s rest passed)

/-- The answer code of a command that is carried out: CLAMPED when a value was brought into its range (R167). -/
def carried (clamped : Prop) [Decidable clamped] : Answer := if clamped then .clamped else .ok

/-- 00_scope.md section 7: q is a / b rounded to the nearest whole number, a half upward. -/
def Rounds (a b q : Nat) : Prop := 2 * b * q ≤ 2 * a + b ∧ 2 * a + b < 2 * b * (q + 1)

/-- A value brought to the nearest end of a range (00_scope.md section 7). -/
def within (low high n : Nat) : Nat := max low (min high n)

/-- R171: a number in so many bytes, most significant first. -/
def bytesOf (width n : Nat) : List Byte := (List.range width).reverse.map fun i => BitVec.ofNat 8 (n / 256 ^ i)

/-- R171: an optional number: 1 and the value at its full width, or zeros. -/
def optionalBytes (width : Nat) : Option Nat → List Byte
  | none => List.replicate (width + 1) 0
  | some n => 1 :: bytesOf width n

/-- The record of one slot is as given, and no other record differs. -/
def RecordWritten (n : Nat) (r : Record) (s t : State) : Prop := t.record n = r ∧ ∀ k, k ≠ n → t.record k = s.record k

/-! ## Reply layouts (R171) -/

/-- R171: a mark or a flag. -/
def flagByte (b : Bool) : Byte := if b then 1 else 0

/-- R171: the code of a mode. -/
def modeByte : Mode → Byte
  | .halted => 1
  | .auto => 2
  | .manual => 3
  | .emergency => 4

/-- R17, R171: the report of one meter in a photometric part. -/
def reportLayout (r : MeterReport) : List Byte :=
  bytesOf 1 r.meter.val ++ bytesOf 1 r.address
    ++ [match r.state with
        | .unconfigured => (0 : Byte)
        | .awaiting => 1
        | .online => 2
        | .lost => 3]
    ++ optionalBytes 2 r.reading
    ++ [match r.status with
        | none => (0 : Byte)
        | some .valid => 1
        | some .warming => 2
        | some .fault => 3]
    ++ [flagByte r.lost]

/-- R17, R171: a photometric part: condition, Lf, La, the count of the meter reports, and the reports. -/
def photoLayout (x : Photo) : List Byte :=
  [match x.condition with
    | .unset => (0 : Byte)
    | .live => 1
    | .borrowed => 2
    | .fallback => 3]
    ++ optionalBytes 2 x.lf ++ optionalBytes 2 x.la ++ bytesOf 1 x.reports.length ++ x.reports.flatMap reportLayout

/-- R33, R171: the forty bytes of a profile. -/
def profileLayout (v : Profile) : List Byte :=
  bytesOf 2 v.kp ++ [v.f2, v.f3, v.f4, v.f5, v.f6].flatMap (bytesOf 2) ++ v.lmax.toList.flatMap (bytesOf 3)
    ++ bytesOf 2 v.lin ++ bytesOf 2 v.dmin ++ bytesOf 1 v.w ++ bytesOf 2 v.lfb ++ bytesOf 1 v.hold ++ bytesOf 2 v.boost

/-! ## Frames of the units -/

/-- Nothing differs but the condition, Lf and STAGE_SHORT result of portals and the PHOTOMETRY and STAGE_SHORT marks:
what an evaluation of photometry can do (R12 to R16, R31). -/
def OnlyPhotometry (s t : State) : Prop :=
  ∃ ps cs, t = { s with portals := ps, notices := { s.notices with classes := cs } }
    ∧ (∀ p : Fin 4, ps[p] = { s.portal p with
        condition := ps[p].condition, lf := ps[p].lf, stageShort := ps[p].stageShort })
    ∧ ∀ c : Fin 32, cs[c] = { s.noticeClass c with pending := cs[c].pending, holds := cs[c].holds }
        ∧ ((∀ p, c ≠ photometryClass p ∧ c ≠ stageShortClass p) → cs[c] = s.noticeClass c)

/-- R11: the largest latest valid reading among a portal's ONLINE meters. -/
def LargestReading (s : State) (p : Fin 4) (la : Nat) : Prop :=
  (∃ k x, (s.meter k).site = some x ∧ x.portal = p ∧ (s.meter k).state = .online ∧ (s.meter k).reading = some la)
    ∧ ∀ k x v, (s.meter k).site = some x → x.portal = p → (s.meter k).state = .online →
        (s.meter k).reading = some v → v ≤ la

/-- R17, R159: what a portal's photometric part shows: its condition, Lf and La, and its own meters in increasing number. -/
def PhotoShows (s : State) (p : Fin 4) (x : Photo) : Prop :=
  x.condition = (s.portal p).condition ∧ x.lf = (s.portal p).lf
    ∧ (match x.la with
      | some la => LargestReading s p la
      | none => ∀ k q, (s.meter k).site = some q → q.portal = p → (s.meter k).state = .online → (s.meter k).reading = none)
    ∧ x.reports = (List.finRange 8).filterMap fun k =>
        match (s.meter k).site with
        | none => none
        | some q =>
          if q.portal = p then
            some { meter := k, address := q.address, state := (s.meter k).state, reading := (s.meter k).reading,
                   status := (s.meter k).status, lost := (s.meter k).lost }
          else none

/-- R13 to R16: after evaluations that no reading arrival caused, each portal has the condition its inputs call for. A
portal whose condition stays keeps its Lf. One that enters LIVE keeps it; one that enters BORROWED keeps it, or takes the
leader's when it has none; one that enters FALLBACK takes the larger of it and Lfb; one that enters UNSET loses it. PHOTOMETRY
is handed as true on the entry into FALLBACK, and as false on the way out of it. -/
def PhotometryEntered (s t : State) : Prop :=
  ∀ p,
    let x := s.portal p
    let y := t.portal p
    let before := s.noticeClass (photometryClass p)
    let after := t.noticeClass (photometryClass p)
    y.condition = conditionNow t p
      ∧ (y.condition = x.condition → y.lf = x.lf ∧ after = before)
      ∧ (y.condition ≠ x.condition →
        y.lf = (match y.condition with
          | .unset => none
          | .live => x.lf
          | .borrowed =>
            match x.lf, y.leader with
            | some lf, _ => some lf
            | none, some q => (t.portal q).lf
            | none, none => none
          | .fallback => some (max (x.lf.getD 0) x.active.lfb))
        ∧ after = (if y.condition = .fallback then
            (if before.holds then before else { before with holds := true, pending := true })
          else if x.condition = .fallback then { before with holds := false, pending := false }
          else before))

/-- Nothing differs but the STAGE_SHORT result of one portal and its STAGE_SHORT mark (R31). -/
def OnlyStageShort (p : Fin 4) (s t : State) : Prop :=
  ∃ b x, t = { s with
    portals := s.portals.set p { s.portal p with stageShort := b }
    notices := { s.notices with classes := s.notices.classes.set (stageShortClass p) x } }
    ∧ x.priority = (s.noticeClass (stageShortClass p)).priority ∧ x.masked = (s.noticeClass (stageShortClass p)).masked

/-- Nothing differs but sweeps, refresh timers and the pending marks of SWEEP_DONE: what sweep requests and the ends of
sweeps can do (R97 to R107). -/
def OnlySweeps (s t : State) : Prop :=
  ∃ ps ws cs, t = { s with portals := ps, sweeps := ws, notices := { s.notices with classes := cs } }
    ∧ (∀ p : Fin 4, ps[p] = { s.portal p with refreshTimer := ps[p].refreshTimer })
    ∧ ∀ c : Fin 32, cs[c] = { s.noticeClass c with pending := cs[c].pending }
        ∧ ((∀ p, c ≠ sweepDoneClass p) → cs[c] = s.noticeClass c)

/-- Nothing differs but the entering portals, their sweeps, and of these portals the EMERGENCY marks and the pending marks of
MODE_SETTLED and SWEEP_DONE: what entries into EMERGENCY can do (R51, R99, R106). -/
def OnlyEmergency (enters : Fin 4 → Prop) (s t : State) : Prop :=
  ∃ ps ws cs, t = { s with portals := ps, sweeps := ws, notices := { s.notices with classes := cs } }
    ∧ (∀ p, ¬ enters p → t.portal p = s.portal p ∧ t.sweep p = s.sweep p)
    ∧ ∀ c : Fin 32, cs[c] = { s.noticeClass c with pending := cs[c].pending, holds := cs[c].holds }
        ∧ ((∀ p, enters p → c ≠ emergencyClass p) → cs[c].holds = (s.noticeClass c).holds)
        ∧ ((∀ p, enters p → c ≠ emergencyClass p ∧ c ≠ modeSettledClass p ∧ c ≠ sweepDoneClass p) →
          cs[c] = s.noticeClass c)

/-- R152: a notice class after its condition has been handed to it. -/
def NoticeClass.handed (now : Bool) (x : NoticeClass) : NoticeClass :=
  if now then
    if x.holds then x else { x with holds := true, pending := true }
  else { x with holds := false, pending := false }

/-- R150 to R153: the stack, auto-finish, priorities and masks are kept; an event class keeps its holds mark and loses no
pending mark; and no class is changed but those that may be touched. -/
def NoticesKept (touched : Fin 32 → Prop) (s t : State) : Prop :=
  t.notices = { s.notices with classes := t.notices.classes }
    ∧ ∀ c, (t.noticeClass c).priority = (s.noticeClass c).priority ∧ (t.noticeClass c).masked = (s.noticeClass c).masked
      ∧ (isCondition c = false → (t.noticeClass c).holds = (s.noticeClass c).holds
          ∧ ((s.noticeClass c).pending = true → (t.noticeClass c).pending = true))
      ∧ (¬ touched c → t.noticeClass c = s.noticeClass c)

/-! ## The reset line and the port (R165, R169) -/

/-- R169: while RESET_N is low, everything but the level of EMERG_N and the model's queue is at its power-on value. That the
strap store is 0000, the record of MISO empty and EMERG_N's level and the queue free is the model's (logs 4, 5, 7, 21). -/
def ResetLaw (s : State) : Prop :=
  s.resetN = false → s = { State.reset with emergN := s.emergN, pending := s.pending }

/-- R165: a reply is in preparation exactly while READY is low, and a reply is held only while READY is high. R162: while a
transfer left over from before the release of RESET_N lasts, READY is high and no reply is held. -/
def PortLaw (s : State) : Prop :=
  s.resetN = true →
    (s.port.ready = true ↔ s.port.preparing = none) ∧ (s.port.held ≠ none → s.port.ready = true)
      ∧ (s.port.ignoring = true → s.port.ready = true ∧ s.port.held = none)

/-- R113: while line B is absent, its controller is as after power-on, and no record stands on it (R65, R99). -/
def LineBLaw (s : State) : Prop :=
  s.linePresent .b = false → s.lineB = .powerOn ∧ ∀ n q, (s.record n).place = some q → q.line = .a

/-! ## Meters and coupling (R1, R47) -/

/-- R1, R9: an entry has a site unless it is UNCONFIGURED, an address of 1 to 31, a running hold timer exactly while it is
AWAITING or ONLINE, and a reading once it is ONLINE. -/
def MeterLaw (x : Meter) : Prop :=
  (x.site = none ↔ x.state = .unconfigured) ∧ (∀ q, x.site = some q → 1 ≤ q.address ∧ q.address ≤ 31)
    ∧ (x.hold ≠ none ↔ x.state = .awaiting ∨ x.state = .online) ∧ (x.state = .online → x.reading ≠ none)

/-- R1: the law of each entry; addresses are distinct, and no portal has more than two meters. -/
def MeterTableLaw (s : State) : Prop :=
  (∀ m, MeterLaw (s.meter m))
    ∧ (∀ m k x y, (s.meter m).site = some x → (s.meter k).site = some y → x.address = y.address → m = k)
    ∧ ∀ p, (ownMeters s p).length ≤ 2

/-- R47: a portal is a leader, a follower or neither, and never both. -/
def CouplingLaw (s : State) : Prop := ∀ p q, (s.portal p).leader = some q → (s.portal q).leader = none

/-- R13 to R16: outside reset each portal's condition is the one its inputs call for, and its Lf is set exactly while the
condition is not UNSET. -/
def PhotometryLaw (s : State) : Prop :=
  s.resetN = true →
    ∀ p, (s.portal p).condition = conditionNow s p ∧ ((s.portal p).lf = none ↔ (s.portal p).condition = .unset)

/-! ## Modes (R36, R39, R46, R51) -/

/-- R36, R39, R46, R51: the return mode is present exactly in EMERGENCY, where every level is 10000; the ramp timer runs
exactly in AUTO and MANUAL; a mode request is pending only there; and the refresh timer is stopped in HALTED. -/
def ModeLaw (x : Portal) : Prop :=
  (x.returnMode ≠ none ↔ x.mode = .emergency) ∧ (x.mode = .emergency → ∀ i : Fin 6, x.levels[i] = 10000)
    ∧ (x.rampTimer ≠ none ↔ x.mode = .auto ∨ x.mode = .manual)
    ∧ (x.pendingMode ≠ none → x.mode = .auto ∨ x.mode = .manual) ∧ (x.mode = .halted → x.refreshTimer = none)

/-! ## Ranges (R1, R7, R12, R19, R36, R61, R113, R116, R138 to R144, R150, R153) -/

/-- R1: the numbers of a meter table entry lie in their ranges. -/
def Meter.inRange (x : Meter) : Prop :=
  (∀ q, x.site = some q → 1 ≤ q.address ∧ q.address ≤ 31) ∧ (∀ v, x.reading = some v → v ≤ 12000)
    ∧ ∀ h, x.hold = some h → 2 ≤ h ∧ h ≤ 60

/-- R19: every field of a profile lies in its range, and the fractions do not rise. -/
def Profile.inRange (v : Profile) : Prop :=
  (20 ≤ v.kp ∧ v.kp ≤ 120) ∧ (v.f2 ≤ 1000 ∧ v.f3 ≤ v.f2 ∧ v.f4 ≤ v.f3 ∧ v.f5 ≤ v.f4 ∧ v.f6 ≤ v.f5)
    ∧ (∀ i : Fin 6, 100 ≤ v.lmax[i] ∧ v.lmax[i] ≤ 200000) ∧ v.lin ≤ 2000 ∧ v.dmin ≤ 3000 ∧ (1 ≤ v.w ∧ v.w ≤ 16)
    ∧ v.lfb ≤ 12000 ∧ (2 ≤ v.hold ∧ v.hold ≤ 60) ∧ v.boost ≤ 500

/-- R12, R19, R36, R42: the numbers of a portal lie in their ranges. -/
def Portal.inRange (x : Portal) : Prop :=
  (∀ lf, x.lf = some lf → lf ≤ 12000) ∧ x.active.inRange ∧ (∀ v, x.pendingProfile = some v → v.inRange)
    ∧ (∀ i : Fin 6, x.levels[i] ≤ 10000 ∧ x.manual[i] ≤ 10000)
    ∧ (2 ≤ x.ramp.steps ∧ x.ramp.steps ≤ 40) ∧ (1 ≤ x.ramp.up ∧ x.ramp.up ≤ 10000)
    ∧ (1 ≤ x.ramp.down ∧ x.ramp.down ≤ 10000) ∧ x.ramp.deadband ≤ 500 ∧ (10 ≤ x.ramp.refresh ∧ x.ramp.refresh ≤ 600)
    ∧ (∀ n, x.rampTimer = some n → 2 ≤ n ∧ n ≤ 40) ∧ (∀ n, x.refreshTimer = some n → 10 ≤ n ∧ n ≤ 600)

/-- R61, R141: an address of a driver. -/
abbrev DriverAddress (a : Nat) : Prop := 1 ≤ a ∧ a ≤ 254

/-- R61: the numbers of a record lie in their ranges. -/
def Record.inRange (r : Record) : Prop :=
  (∀ q, r.place = some q → DriverAddress q.address) ∧ r.uid < 2 ^ 48 ∧ (500 ≤ r.m ∧ r.m ≤ 1000) ∧ r.lmin ≤ 3000
    ∧ (∀ v, r.pinned = some v → v ≤ 10000) ∧ (∀ v, r.lastSent = some v → v ≤ 10000) ∧ (∀ v, r.lastAcked = some v → v ≤ 10000)

/-- R141: the numbers of a stray entry lie in their ranges. -/
def Stray.inRange (e : Stray) : Prop :=
  DriverAddress e.address ∧ (∀ u, e.uid = some u → u < 2 ^ 48) ∧ ∀ v, e.lmin = some v → v ≤ 3000

/-- R113, R116, R138 to R144: the numbers of a line controller lie in their ranges. -/
def LineCtl.inRange (c : LineCtl) : Prop :=
  (1 ≤ c.missLimit ∧ c.missLimit ≤ 7) ∧ c.fairness ≤ 4
    ∧ (∀ x, c.state = .busy x → DriverAddress x.address ∧ ∀ v, x.frame = .level v → v ≤ 10000)
    ∧ (∀ e, e ∈ c.admin → DriverAddress e.address) ∧ (∀ a, a ∈ c.service → DriverAddress a)
    ∧ (∀ e, e ∈ c.strays → e.inRange) ∧ ∀ a, a ∈ c.ignored → DriverAddress a

/-- R150, R153: every priority of a class, and every taken priority, is 1 to 15. -/
def Notices.inRange (x : Notices) : Prop :=
  (∀ c : Fin 32, 1 ≤ x.classes[c].priority ∧ x.classes[c].priority ≤ 15)
    ∧ ∀ e, e ∈ x.stack → 1 ≤ e.priority ∧ e.priority ≤ 15

/-- The numbers of the meter table, the portals, the records, the line controllers and the notice unit lie in the ranges
that the spec gives them, and so does a polled address. -/
def RangeLaw (s : State) : Prop :=
  (∀ m, (s.meter m).inRange) ∧ (∀ a, s.poll = some a → 1 ≤ a ∧ a ≤ 31) ∧ (∀ p, (s.portal p).inRange)
    ∧ (∀ n, (s.record n).inRange) ∧ s.lineA.inRange ∧ s.lineB.inRange ∧ s.notices.inRange

/-! ## The roster (R57, R61 to R63) -/

/-- R61, R62: what each state of a record says of its other fields. -/
def RecordLaw (r : Record) : Prop :=
  (r.state = .vacant → r = Record.vacant r.changed) ∧ (r.nonVacant = true → r.place ≠ none)
    ∧ (r.state = .probation → r.confirmed = false) ∧ (r.state = .dark → r.fault ≠ none)

/-- R63: places and nonzero uids of non-vacant records are unique. -/
def UniqueLaw (s : State) : Prop :=
  ∀ n k, (s.record n).nonVacant = true → (s.record k).nonVacant = true →
    ((s.record n).place = (s.record k).place ∨ (s.record n).uid ≠ 0 ∧ (s.record n).uid = (s.record k).uid) → n = k

/-- R57: plans are well formed, no slot lies in two footprints, and every non-vacant record's slot lies in one. -/
def FootprintLaw (s : State) : Prop :=
  (∀ p q, s.plan p = some q → q.wf = true)
    ∧ (∀ p k n, inFootprint s p n = true → inFootprint s k n = true → p = k)
    ∧ ∀ n, (s.record n).nonVacant = true → ∃ p, inFootprint s p n = true

/-- The laws of the roster, with the canonical form of its slots (log 17). -/
def RosterLaw (s : State) : Prop :=
  rosterWf s.roster = true ∧ (∀ n, RecordLaw (s.record n)) ∧ UniqueLaw s ∧ FootprintLaw s

/-- R119, R131: a record's miss count is at most its line's limit, and below it while the record is ACTIVE, PROBATION or
DARK. -/
def MissLaw (s : State) : Prop :=
  ∀ n q, (s.record n).place = some q →
    (s.record n).misses ≤ (s.line q.line).missLimit
      ∧ ((s.record n).state = .active ∨ (s.record n).state = .probation ∨ (s.record n).state = .dark →
          (s.record n).misses < (s.line q.line).missLimit)

/-! ## Sweeps (R96, R100, R106, R111) -/

/-- R100: a cursor that is WAITING has a waiting slot, one that is PASSED is at END, and one that is ON_LINE stands at the
slot of its exchange. -/
def CursorLaw (s : State) (p : Fin 4) (l : Line) (c : Cursor) : Prop :=
  match c.phase with
  | .waiting => ∃ n, c.position = some n ∧ waitingSlot s p l n ≠ none
  | .passed => c.position = none
  | .onLine n => c.position = some n
  | .onLineRestarted => True

/-- R96, R106, R111: a RUNNING sweep keeps its cursors' law, has a cursor that is not PASSED, and has sweep-done clear; an
IDLE sweep owes none. -/
def SweepLaw (s : State) : Prop :=
  ∀ p,
    match (s.sweep p).running with
    | some w =>
      CursorLaw s p .a w.cursorA ∧ CursorLaw s p .b w.cursorB ∧ (w.cursorA.phase ≠ .passed ∨ w.cursorB.phase ≠ .passed)
        ∧ (s.sweep p).done = false
    | none => (s.sweep p).owed = false

/-! ## The lines' collections (R138, R140, R141, R144) -/

/-- The addresses a line controller has a FORGET for, on the line or in the admin queue. -/
def LineCtl.forgets (c : LineCtl) : List Nat :=
  (match c.state with
    | .busy x => if x.frame = .forget then [x.address] else []
    | .idle => []
    | .quiet => [])
    ++ (c.admin.filter fun e => e.kind == .forget).map (·.address)

/-- R138, R140, R141, R144: capacities, no duplicates, and what each address of a collection stands for. -/
def CollectionsLaw (s : State) (l : Line) : Prop :=
  let c := s.line l
  (c.service.length ≤ 32 ∧ c.service.Nodup
      ∧ ∀ a, a ∈ c.service → ∃ n, (s.record n).at l a = true ∧ (s.record n).state ≠ .retiring)
    ∧ (c.admin.length ≤ 16 ∧ c.admin.Nodup)
    ∧ (c.forgets.Nodup ∧ ∀ a, a ∈ c.forgets → ∃ n, (s.record n).at l a = true ∧ (s.record n).state = .retiring)
    ∧ (c.strays.length ≤ 8 ∧ (c.strays.map (·.address)).Nodup
      ∧ ∀ e, e ∈ c.strays → e.address ∉ c.ignored ∧ ∀ n, (s.record n).at l e.address = false)
    ∧ c.ignored.length ≤ 8 ∧ c.ignored.Nodup

/-! ## Notices (R149, R152, R153) -/

/-- R153: taken priorities strictly increase from bottom to top (the head is the top), no class is there twice, at most
15 entries; and every priority is 1 to 15 (R150). -/
def StackLaw (s : State) : Prop :=
  (∀ c, 1 ≤ (s.noticeClass c).priority ∧ (s.noticeClass c).priority ≤ 15)
    ∧ (s.notices.stack.map (·.priority)).Pairwise (· > ·) ∧ (s.notices.stack.map (·.cls)).Nodup
    ∧ s.notices.stack.length ≤ 15 ∧ ∀ e, e ∈ s.notices.stack → 1 ≤ e.priority ∧ e.priority ≤ 15

/-- R149, R152: the holds mark of each condition class says whether its condition holds, an event class has none, and a
condition class pends only while it holds. -/
def MarksLaw (s : State) : Prop :=
  (∀ p, ((s.noticeClass (photometryClass p)).holds = true ↔ (s.portal p).condition = .fallback)
      ∧ ((s.noticeClass (emergencyClass p)).holds = true ↔ (s.portal p).mode = .emergency)
      ∧ (s.noticeClass (stageShortClass p)).holds = shortHolds s p
      ∧ (s.portal p).stageShort = shortHolds s p)
    ∧ (∀ l, (s.noticeClass (strayClass l)).holds = true ↔ (s.line l).strays ≠ [])
    ∧ ∀ c, (isCondition c = false → (s.noticeClass c).holds = false)
      ∧ (isCondition c = true → (s.noticeClass c).pending = true → (s.noticeClass c).holds = true)

/-! ## What a step does to a unit -/

/-- R57, R101: the slot lies in the portal's footprint, and its record is eligible for the cursor of a line. -/
def EligibleAt (s : State) (p : Fin 4) (l : Line) (n : Nat) : Prop :=
  (s.record n).eligibleOn l = true ∧ inFootprint s p n = true

/-- R100, R103, R106, R107: nothing is left for a walk in the roster of a state: no eligible record lies at or ahead of a
WAITING or restarted cursor, nor ahead of the slot of an ON_LINE one's exchange. -/
def WalkOver (p : Fin 4) (w : Walk) (t : State) : Prop :=
  ∀ l n, EligibleAt t p l n →
    match (w.cursor l).phase with
    | .waiting => ∀ k, (w.cursor l).position = some k → n < k
    | .onLine k => n ≤ k
    | .onLineRestarted => ∀ k, (w.cursor l).position = some k → n < k
    | .passed => True

/-- R98, R99, R106: a portal that is not HALTED has been asked for a sweep. A sweep runs and another is owed; or a sweep has
started since, with its refresh timer, on an IDLE portal or after the end of the one that ran, which SWEEP_DONE tells; or, with
no eligible record, the sweep asked for has ended as it started. -/
def SweepAsked (p : Fin 4) (s t : State) : Prop :=
  (s.portal p).mode ≠ .halted →
    let done := (t.noticeClass (sweepDoneClass p)).pending = true
    let begun := (t.portal p).refreshTimer = some (s.portal p).ramp.refresh
    (t.sweep p).running ≠ none ∧ (t.sweep p).owed = true
      ∨ (t.sweep p).running ≠ none ∧ begun
        ∧ ((s.sweep p).running = none ∨ done ∧ ∃ w, (s.sweep p).running = some w ∧ WalkOver p w t)
      ∨ t.sweep p = { running := none, owed := false, done := true } ∧ begun ∧ done ∧ ∀ l n, ¬ EligibleAt t p l n

/-- R98, R106: a portal has not been asked for a sweep. With no sweep owed before, none is owed after and none has started; and
an IDLE sweep stays as it is. -/
def SweepNotAsked (p : Fin 4) (s t : State) : Prop :=
  ((s.sweep p).owed = false → (t.sweep p).owed = false ∧ t.portal p = s.portal p)
    ∧ ((s.sweep p).running = none → t.sweep p = s.sweep p ∧ t.portal p = s.portal p
        ∧ t.noticeClass (sweepDoneClass p) = s.noticeClass (sweepDoneClass p))

/-- R102, R107: the cursor of a line is ON_LINE. -/
def Walk.onLine (w : Walk) (l : Line) : Prop :=
  (∃ n, (w.cursor l).phase = .onLine n) ∨ (w.cursor l).phase = .onLineRestarted

/-- R99, R107: a sweep starts, or restarts from a walk that ran, with both cursors at the first slot of the footprint. The
cursor of a line is WAITING there with an eligible record of the line, for the lowest of them, and PASSED with none; one that was
ON_LINE keeps its exchange and is placed there too (log 18). With nothing to wait for on either line, the sweep has ended as it
started. -/
def SweepPlaced (p : Fin 4) (cls : SweepClass) (old : Option Walk) (s t : State) : Prop :=
  let first := (s.plan p).map (·.base)
  let kept := fun l : Line => ∃ w, old = some w ∧ w.onLine l
  ((∃ l, kept l ∨ ∃ n, EligibleAt s p l n) →
    ∃ w, t.sweep p = { running := some w, owed := false, done := false } ∧ w.cls = cls
      ∧ ∀ l,
        (kept l → w.cursor l = { position := first, phase := .onLineRestarted })
          ∧ (¬ kept l →
            (∀ n, EligibleAt s p l n → (∀ k, EligibleAt s p l k → n ≤ k) →
                w.cursor l = { position := first, phase := .waiting } ∧ ∃ k, first = some k ∧ waitingSlot t p l k = some n)
              ∧ ((∀ n, ¬ EligibleAt s p l n) → w.cursor l = { position := none, phase := .passed })))
    ∧ ((∀ l, ¬ kept l ∧ ∀ n, ¬ EligibleAt s p l n) →
      t.sweep p = { running := none, owed := false, done := true }
        ∧ (t.noticeClass (sweepDoneClass p)).pending = true)

/-- R99: a sweep of an IDLE portal has started, with its refresh timer. -/
def SweepStarted (p : Fin 4) (cls : SweepClass) (s t : State) : Prop :=
  (t.portal p).refreshTimer = some (s.portal p).ramp.refresh ∧ SweepPlaced p cls none s t

/-- R100: a cursor that looks from a position in the roster of a state: WAITING there with a waiting slot, PASSED with none. -/
def LooksFrom (t : State) (p : Fin 4) (l : Line) (position : Option Nat) (c : Cursor) : Prop :=
  (∀ k n, position = some k → waitingSlot t p l k = some n → c = { position := some k, phase := .waiting })
    ∧ ((∀ k, position = some k → waitingSlot t p l k = none) → c = { position := none, phase := .passed })

/-- R100: a cursor that no completion moves, when the roster has changed. -/
def CursorFollows (t : State) (p : Fin 4) (l : Line) (old new : Cursor) : Prop :=
  match old.phase with
  | .waiting => LooksFrom t p l old.position new
  | .onLine _ => new = old
  | .onLineRestarted => new = old
  | .passed => new = old

/-- R103, R107: a cursor at the completion of an exchange of its portal and line: an ON_LINE one looks from the slot after that
of its exchange, a restarted one from where the restart has placed it; any other is not moved. -/
def CursorCompletes (s t : State) (p : Fin 4) (l : Line) (old new : Cursor) : Prop :=
  match old.phase with
  | .onLine slot => LooksFrom t p l (nextPosition s p slot) new
  | .onLineRestarted => LooksFrom t p l old.position new
  | .waiting => LooksFrom t p l old.position new
  | .passed => new = old

/-- R40 phases 1 to 3: a portal after the commit, the mode request and the step of the levels, its ramp timer started
again (R39, R44). -/
def Portal.expired (x : Portal) : Portal :=
  let y := { x with active := x.pendingProfile.getD x.active, pendingProfile := none, rampTimer := some x.ramp.steps }
  let z := match y.pendingMode with
    | none => y
    | some m => { y with mode := m.mode, pendingMode := none, manual := if m = RunMode.manual then y.levels else y.manual }
  { z with levels := z.steppedLevels }

/-- R51 steps 1 to 3 and R46: a portal after its entry into EMERGENCY. -/
def Portal.emergencyOf (x : Portal) (back : ReturnMode) : Portal :=
  { x with mode := .emergency, returnMode := some back, pendingMode := none, rampTimer := none,
           levels := #v[10000, 10000, 10000, 10000, 10000, 10000], refreshTimer := some x.ramp.refresh }

/-- R49, R51, R99, R107: a portal enters EMERGENCY: its fields, its notices, and its emergency sweep, started or restarted. -/
def EntersEmergency (p : Fin 4) (s t : State) : Prop :=
  (∀ back, (s.portal p).mode = back.mode → t.portal p = (s.portal p).emergencyOf back)
    ∧ (t.noticeClass (emergencyClass p)).holds = true
    ∧ ((s.noticeClass (emergencyClass p)).holds = false → (t.noticeClass (emergencyClass p)).pending = true)
    ∧ (t.noticeClass (modeSettledClass p)).pending = true
    ∧ SweepPlaced p .emergency (s.sweep p).running s t

/-- R56: the slots that the formula names for a stage count, rows and positions. -/
def Plan.names (q : Plan) (n : Nat) : Prop :=
  ∃ stage row position, stage < q.stages ∧ row < q.rows ∧ position < q.positions
    ∧ n = q.base + stage * q.stageStride + row * q.rowStride + position

/-- R116, R128: a cursor of a class waits on a line. -/
def CursorWaits (s : State) (l : Line) (cls : SweepClass) (p : Fin 4) (n : Nat) : Prop :=
  ∃ w k, (s.sweep p).running = some w ∧ w.cls = cls ∧ (w.cursor l).phase = .waiting
    ∧ (w.cursor l).position = some k ∧ waitingSlot s p l k = some n

/-- R102, R115, R116, R129, R130: the exchange granted to a cursor for the record of a slot. -/
def CursorGranted (s t : State) (l : Line) (cls : SweepClass) (p : Fin 4) (n : Nat) : Prop :=
  let r := s.record n
  let frame := if r.state = .probation then LineFrame.identify else .level (levelOfSlot s n)
  (∀ a, r.place = some ⟨l, a⟩ →
      t.line l = { s.line l with
        state := .busy { frame := frame, address := a, origin := .cursor p, phase := .frame }
        fairness := if cls = .normal then 0 else (s.line l).fairness
        normalPointer := if cls = .normal then p else (s.line l).normalPointer
        emergencyPointer := if cls = .normal then (s.line l).emergencyPointer else p })
    ∧ t.record n = (if r.state = .probation then r else { r with lastSent := some (levelOfSlot s n) })
    ∧ (∀ k, k ≠ n → t.record k = s.record k)
    ∧ (∀ w, (s.sweep p).running = some w →
        (t.sweep p).running = some (w.setCursor l { position := some n, phase := .onLine n }))
    ∧ ∃ ro ws, t = ({ s with roster := ro, sweeps := ws }).setLine l (t.line l) ∧ ∀ q, q ≠ p → t.sweep q = s.sweep q

/-- R118: a completed exchange found the non-vacant record of a slot by line and address. -/
def FoundAt (s : State) (l : Line) (x : Exchange) (received asked : List Byte) (n : Nat) : Prop :=
  s.resetN = true ∧ RosterLaw s
    ∧ (s.line l).state = .busy { x with phase := .slot received asked } ∧ (s.record n).at l x.address = true

/-- R118, R127, R143: what any completion leaves. The line is IDLE. Nothing differs but the roster, that line, sweeps and
refresh timers, and of the notices SWEEP_DONE, the one event of the line that is handed over, and, where the request slot
holds a request, STRAY of the line. -/
def CompletionFrame (s : State) (l : Line) (asked chars : List Byte) (event : Option LineEvent) (t : State) : Prop :=
  exec (.exchangeCompletion l chars) s = .next t ∧ (t.line l).state = .idle
    ∧ t = ({ s with portals := t.portals, sweeps := t.sweeps, notices := t.notices, roster := t.roster }).setLine l (t.line l)
    ∧ (∀ p, t.portal p = { s.portal p with refreshTimer := (t.portal p).refreshTimer })
    ∧ NoticesKept (fun c => (∃ e, event = some e ∧ c = lineEventClass l e)
        ∨ c = strayClass l ∧ readRequest (asked ++ chars) ≠ none ∨ ∃ p, c = sweepDoneClass p) s t
    ∧ ∀ e, event = some e → (t.noticeClass (lineEventClass l e)).pending = true

/-- R118, R127: the completion leaves the record of one slot as given and no other record changed, hands over this event of
the line or none, and asks for a sweep or not: the portal whose footprint holds the slot is asked, unless it is HALTED, and no
other portal is. -/
def Completes (s : State) (l : Line) (asked chars : List Byte) (n : Nat) (r : Record) (event : Option LineEvent)
    (asks : Prop) (t : State) : Prop :=
  CompletionFrame s l asked chars event t ∧ RecordWritten n r s t
    ∧ ∀ p,
      let reached := asks ∧ inFootprint s p n = true ∧ (s.portal p).mode ≠ .halted
      (reached → SweepAsked p s t) ∧ (¬ reached → SweepNotAsked p s t)

end Sys2Proof.Machine
end

