-- ==== Sys2Proof/Certificates/Slice0/Obligations.lean ====
section
/-! DEFINITION. The statements for the provers, from the numbered rules of spec/. -/

section

open Sys2Proof Sys2Proof.Machine

/-! ## The step and the command port -/

/-- A step carries out the command at the front of the queue with the queue's rest, and idles on an empty queue; every
command answers a next state and leaves the commands that wait as they are. The queue and its idling are the model's
(log 3). -/
def Obligations.StepRunsTheFrontCommand : Prop :=
  (∀ (c : Instr) (s : State), step { s with pending := c :: s.pending } = exec c s)
    ∧ (∀ s : State, s.pending = [] → step s = .next s)
    ∧ ∀ (c : Instr) (s : State), ∃ t, exec c s = .next t ∧ t.pending = s.pending

/-- R164: the check byte is the remainder of the string of bits, followed by eight zero bits, on division by x⁸ + x² +
x + 1 over the two-element field; the three properties the rule gives as tests; and its use by command and reply
frames, by frames and accepted replies and requests of the lighting lines, and on the meter line. -/
def Obligations.CheckByteIsTheRemainder : Prop :=
  let bits : Byte → List Bool := fun b => (List.range 8).map fun i => b.getLsbD (7 - i)
  let poly : List Bool → Polynomial (ZMod 2) := fun l => l.foldl (fun p b => p * Polynomial.X + if b then 1 else 0) 0
  let divisor : Polynomial (ZMod 2) := Polynomial.X ^ 8 + Polynomial.X ^ 2 + Polynomial.X + 1
  (∀ bytes : List Byte, poly (bytes.flatMap bits ++ List.replicate 8 false) %ₘ divisor = poly (bits (crc8 bytes)))
    ∧ crc8 [0x31, 0x32, 0x33, 0x34, 0x35, 0x36, 0x37, 0x38, 0x39] = 0xF4
    ∧ crc8 [0x00] = 0x00
    ∧ (∀ bytes : List Byte, crc8 (bytes ++ [crc8 bytes]) = 0x00)
    ∧ (∀ (count : Byte) (rest : List Byte) (i : Instr), Frame.parse (count :: rest) = .ok i →
        rest[count.toNat]? = some (crc8 (count :: rest.take count.toNat)))
    ∧ (∀ r : Reply, ∃ b, r.bytes = b ++ [crc8 b])
    ∧ (∀ (f : LineFrame) (a : Nat), ∃ b, f.characters a = b ++ [crc8 b])
    ∧ (∀ (f : LineFrame) (a : Nat) (b : List Byte) (c : Byte), acceptReply f a (b ++ [c]) ≠ none → c = crc8 b)
    ∧ (∀ (b : List Byte) (c : Byte), readRequest (b ++ [c]) ≠ none → c = crc8 b)
    ∧ (∀ a : Nat, ∃ b, pollFrame a = b ++ [crc8 b])
    ∧ ∀ (a : Nat) (c0 c1 c2 c3 c4 : Byte), readMeterReply a c0 c1 c2 c3 c4 ≠ none → c4 = crc8 [c0, c1, c2, c3]

/-- Section 10.9 with R163 and the fields of each command's rule: the frame written for any host command is read as
that command, with every operand at every value. -/
def Obligations.CommandFramesParseBack : Prop :=
  ∀ (i : Instr) (f : List Byte), Frame.encode i = some f → Frame.parse f = .ok i

/-- R162, R163, R165: a host command does exactly what the SPI transfer of its frame does, in every state. That a
typed command stands for the whole transfer of its frame is the model's (log 8). -/
def Obligations.TypedCommandEqualsItsTransfer : Prop :=
  ∀ (i : Instr) (f : List Byte) (s : State),
    Frame.encode i = some f → exec i s = .next (spiTransfer (0xA5 :: f) s)

/-- R163 with section 10.9: the four frame checks in order, with their answers; a frame that passes them is carried
out as the command it spells. That the row BAD_COMMAND_FRAME carries the raw bytes, and carries a good frame out, is
the model's (log 13). -/
def Obligations.FrameChecksAreMadeInOrder : Prop :=
  let index : List (Nat × Nat) :=
    [(0x01, 0), (0x02, 0), (0x10, 4), (0x11, 1), (0x12, 42), (0x13, 2), (0x14, 1), (0x15, 10), (0x16, 2), (0x17, 4),
     (0x18, 2), (0x19, 2), (0x1A, 1), (0x20, 10), (0x21, 13), (0x22, 14), (0x23, 4), (0x24, 2), (0x25, 2), (0x26, 2)]
    ++ [(0x27, 2), (0x28, 6), (0x29, 5), (0x30, 1), (0x31, 2), (0x32, 1), (0x33, 1), (0x34, 7), (0x35, 2), (0x36, 1),
     (0x40, 2), (0x41, 2), (0x42, 0), (0x43, 0), (0x44, 1), (0x45, 0), (0x46, 2), (0x47, 1)]
  ∀ (s : State) (frame : List Byte), s.listening →
    let count := (frame.getD 0 0).toNat
    let code := (frame.getD 1 0).toNat
    Checked (.badCommandFrame frame) s
      [(frame = [] ∨ frame.length < count + 2 ∨ crc8 (frame.take (count + 1)) ≠ frame.getD (count + 1) 0, .badCheck),
       (count = 0, .badLength),
       (∀ row ∈ index, row.1 ≠ code, .unknownCommand),
       (∀ row ∈ index, row.1 = code → count ≠ row.2 + 1, .badLength)]
      (∃ i u v, Frame.parse frame = .ok i ∧ Frame.body i = some ((frame.drop 1).take count)
        ∧ exec (.badCommandFrame frame) s = .next u ∧ exec i s = .next v
        ∧ u.port.preparing = v.port.preparing ∧ { u with port := s.port } = { v with port := s.port })

/-- R166: what a reply read sends and when the held reply is discarded, outside a transfer left over from before the
release of RESET_N (R162). The record of MISO is the model's (log 7). -/
def Obligations.ReplyReadSendsTheHeldReply : Prop :=
  ∀ (s : State) (clocked : Nat), s.resetN = true → s.port.ignoring = false →
    (∀ r, s.port.ready = true → s.port.held = some r →
      let counted := BitVec.ofNat 8 (r.payload.length + 1) :: answerCode r.answer :: r.payload
      exec (.replyRead clocked) s = .next { s with port := { s.port with
        held := if r.payload.length + 3 ≤ clocked then none else some r
        miso := 0 :: ((counted ++ [crc8 counted]) ++ List.replicate clocked 0).take clocked } })
    ∧ (s.port.ready = false ∨ s.port.held = none →
      exec (.replyRead clocked) s = .next { s with port := { s.port with miso := List.replicate (clocked + 1) 0 } })

/-- R162, R165: READY rises with the reply that was in preparation; a command transfer while READY is low, typed or as
bytes, and an ignored transfer change nothing; a transfer of any kind that was in progress at the release of RESET_N
is ignored whole, and over; and MISO is at high impedance outside such a transfer and carries 0 in it. The record of
MISO is the model's (log 7), as is that the rows of transfers carry raw bytes (log 13), and that the first row of a
transfer after the release is the transfer that was in progress (log 26). -/
def Obligations.ReadyAndTransfersThatAreNotTaken : Prop :=
  ∀ s : State, s.resetN = true →
    let sent := fun n : Nat => ({ s with port := { s.port with miso := List.replicate n 0 } } : State)
    let freed := fun n : Nat =>
      ({ s with port := { s.port with ignoring := false, miso := List.replicate n 0 } } : State)
    (∀ r, s.port.ready = false → s.port.preparing = some r →
      exec .readyRise s = .next { s with port := { s.port with ready := true, held := some r, preparing := none } })
    ∧ (s.port.ignoring = false →
      misoPin s = none
        ∧ (s.port.ready = false →
          (∀ frame, exec (.discardedCommandTransfer frame) s = .next (sent (frame.length + 1)))
            ∧ ∀ i f, Frame.encode i = some f → exec i s = .next (sent (f.length + 1)))
        ∧ ∀ bytes, bytes.head? ≠ some 0xA5 → bytes.head? ≠ some 0x5A →
          exec (.ignoredTransfer bytes) s = .next (sent bytes.length))
    ∧ (s.port.ignoring = true →
      misoPin s = some false
        ∧ (∀ frame, exec (.badCommandFrame frame) s = .next (freed (frame.length + 1))
          ∧ exec (.discardedCommandTransfer frame) s = .next (freed (frame.length + 1)))
        ∧ (∀ i f, Frame.encode i = some f → exec i s = .next (freed (f.length + 1)))
        ∧ (∀ bytes, exec (.ignoredTransfer bytes) s = .next (freed bytes.length))
        ∧ ∀ clocked, exec (.replyRead clocked) s = .next (freed (clocked + 1)))

/-- R167: every host command that is taken is either carried out and answered OK or CLAMPED, or refused with a code of
0x10 upward, without payload and with no state changed. -/
def Obligations.RefusedCommandsChangeNothing : Prop :=
  ∀ (i : Instr) (s : State), Frame.body i ≠ none → s.listening →
    (∃ code payload t, (code = .ok ∨ code = .clamped) ∧ Answers i s code payload t)
      ∨ ∃ code, 0x10 ≤ (answerCode code).toNat ∧ Refuses i s code

/-- R170: READ_IDENT in every state that takes a command: its seven bytes; nothing changes. -/
def Obligations.ReadIdentReportsTheSampledStraps : Prop :=
  ∀ s : State, s.listening →
    Answers .readIdent s .ok
      [0x04, 0x16, 1, s.straps.zeroExtend 8,
       if s.straps.extractLsb' 0 2 = 1 then 1 else if s.straps.extractLsb' 0 2 = 2 then 2 else 0,
       if s.straps.getLsbD 2 = true then 1 else 0, if s.straps.getLsbD 3 = true then 1 else 0] s

/-! ## Reset and RESTART -/

/-- The power-on values of R1, R4, R13, R19, R36, R56, R61, R96, R113, R138 to R144, R158, R159 and R166 hold while
RESET_N is low, and with them the output pins of R169. -/
def Obligations.ResetAssertedSetsPowerOnValues : Prop :=
  ∀ s : State, ∃ t, exec .resetNAsserted s = .next t
    ∧ t.resetN = false
    ∧ t.port.ready = false ∧ t.port.held = none ∧ t.port.preparing = none ∧ notifyAsserted t = false
    ∧ readyPin t = false ∧ notifyPin t = true ∧ meterEnable t = some false ∧ meterTx t = .idle
    ∧ (∀ l, lineEnable t l = false ∧ lineTx t l = .idle)
    ∧ (∀ m, t.meter m = { site := none, state := .unconfigured, reading := none, status := none, lost := false,
                          hold := none, due := false })
    ∧ t.poll = none ∧ t.lastPolled = none
    ∧ (∀ p, ∃ v, t.portal p =
        { condition := .unset, lf := none, active := v, pendingProfile := none, stageShort := false, mode := .halted,
          returnMode := none, pendingMode := none, levels := #v[10000, 10000, 10000, 10000, 10000, 10000],
          manual := #v[10000, 10000, 10000, 10000, 10000, 10000],
          ramp := { steps := 10, up := 2000, down := 100, deadband := 20, refresh := 60 },
          rampTimer := none, refreshTimer := none, leader := none, emergencyEnable := true }
        ∧ v.kp = 60 ∧ v.f2 = 500 ∧ v.f3 = 250 ∧ v.f4 = 120 ∧ v.f5 = 60 ∧ v.f6 = 30 ∧ (∀ i : Fin 6, v.lmax[i] = 20000)
        ∧ v.lin = 400 ∧ v.dmin = 1000 ∧ v.w = 4 ∧ v.lfb = 8000 ∧ v.hold = 10 ∧ v.boost = 200)
    ∧ (∀ p, t.plan p = none)
    ∧ (∀ n, t.record n =
        { state := .vacant, place := none, uid := 0, confirmed := false, m := 1000, override := .auto,
          capability := none, lmin := 0, pinned := none, fault := none, misses := 0, lastSent := none,
          lastAcked := none, changed := false })
    ∧ (∀ p, t.sweep p = { running := none, owed := false, done := false })
    ∧ (∀ l, t.line l = { state := .quiet, missLimit := 3, fairness := 0, normalPointer := 3, emergencyPointer := 3,
                         admin := [], service := [], strays := [], ignored := [] })
    ∧ (∀ c, t.noticeClass c = { priority := 8, masked := true, pending := false, holds := false })
    ∧ t.notices.stack = [] ∧ t.notices.autoFinish = false
    ∧ ∀ p, t.snapshotOf p = { photo := none, output := none }

/-- R169 with R13, R49, R51, R99, R106, R113, R162 and R165: the release of RESET_N samples the straps and the level
of EMERG_N, raises READY without a reply, puts every portal into FALLBACK with its notice, and into EMERGENCY where
the pin is asserted, with full levels, MODE_SETTLED, and a sweep that ends as it starts; all else keeps its power-on
value; a transfer in progress is ignored from then on. That the row carries the level of CS_N, which is low in a
transfer, is the model's (log 26), as are the empty record of MISO and the queue, which are kept (logs 3, 7). -/
def Obligations.ReleaseOfResetStartsThePart : Prop :=
  ∀ (s : State) (straps : BitVec 4) (emergN csN : Bool), s.resetN = false → ResetLaw s →
    let asserted := emergN = straps.getLsbD 3
    ∃ t, exec (.resetNRelease straps { emergN := emergN, csN := csN }) s = .next t
      ∧ t = { State.reset with
          resetN := true, straps := straps, emergN := emergN, pending := s.pending, portals := t.portals
          sweeps := t.sweeps, notices := { State.reset.notices with classes := t.notices.classes }
          port := { State.reset.port with ready := true, ignoring := !csN } }
      ∧ (∀ p,
          let lit : Portal := { State.reset.portal p with condition := .fallback, lf := some 8000 }
          t.portal p = if asserted then lit.emergencyOf .halted else lit)
      ∧ (∀ c, t.noticeClass c = { State.reset.noticeClass c with
              pending := (t.noticeClass c).pending, holds := (t.noticeClass c).holds }
          ∧ ((t.noticeClass c).pending = true ↔ ∃ p, c = photometryClass p
              ∨ asserted ∧ (c = emergencyClass p ∨ c = modeSettledClass p ∨ c = sweepDoneClass p))
          ∧ ((t.noticeClass c).holds = true ↔ ∃ p, c = photometryClass p ∨ asserted ∧ c = emergencyClass p))
      ∧ t.resetN = true ∧ t.straps = straps ∧ t.emergN = emergN
      ∧ t.port.ready = true ∧ t.port.held = none ∧ t.port.preparing = none ∧ t.port.ignoring = !csN
      ∧ (∀ p, (t.portal p).condition = .fallback ∧ (t.portal p).lf = some 8000 ∧ (t.portal p).stageShort = false
          ∧ (t.noticeClass (photometryClass p)).holds = true ∧ (t.noticeClass (photometryClass p)).pending = true
          ∧ ((t.portal p).mode, (t.portal p).returnMode)
              = (if emergN = straps.getLsbD 3 then (.emergency, some .halted) else (.halted, none))
          ∧ (t.noticeClass (emergencyClass p)).pending = decide (emergN = straps.getLsbD 3)
          ∧ t.sweep p = { running := none, owed := false, done := decide (emergN = straps.getLsbD 3) })
      ∧ (∀ l, (t.line l).state = .quiet) ∧ t.roster = [] ∧ (∀ p, t.plan p = none)
      ∧ ∀ m, (t.meter m).state = .unconfigured

/-- R168 with R18, R31, R35, R55, R81, R99, R112, R133, R158 and R159: what RESTART sets, keeps and hands afresh. Each
portal's six notice classes pend and hold as its evaluations leave them: PHOTOMETRY in FALLBACK, STAGE_SHORT where it
holds, and EMERGENCY with MODE_SETTLED where the examination of EMERG_N puts the portal into EMERGENCY, with an
EMERGENCY sweep from the first slot. That the controller of an absent line B is set like that of a present line, of
which alone R133 speaks, is the model's (log 24). -/
def Obligations.RestartResetsOperationAndKeepsConfiguration : Prop :=
  ∀ s : State, s.listening → rosterWf s.roster = true →
    ∃ t, Answers .restart s .ok [] t
      ∧ t.straps = s.straps ∧ t.emergN = s.emergN ∧ (∀ p, t.plan p = s.plan p) ∧ t.poll = none ∧ t.lastPolled = none
      ∧ (∀ m, t.meter m = match (s.meter m).site with
          | none => s.meter m
          | some q => { site := some q, state := .awaiting, reading := none, status := none, lost := false,
                        hold := some (s.portal q.portal).active.hold, due := true })
      ∧ (let afresh := fun (c : Fin 32) (pending holds : Prop) =>
          ((t.noticeClass c).pending = true ↔ pending) ∧ ((t.noticeClass c).holds = true ↔ holds)
         ∀ p,
          let x := s.portal p
          let inEmergency := s.emergN = s.straps.getLsbD 3 ∧ x.emergencyEnable = true
          let metered := ∃ m q, (s.meter m).site = some q ∧ q.portal = p
          ((t.portal p).active, (t.portal p).pendingProfile) = (x.active, x.pendingProfile)
            ∧ ((t.portal p).manual, (t.portal p).ramp) = (x.manual, x.ramp)
            ∧ ((t.portal p).leader, (t.portal p).emergencyEnable) = (x.leader, x.emergencyEnable)
            ∧ (t.portal p).pendingMode = none ∧ (t.portal p).rampTimer = none
            ∧ (metered → (t.portal p).condition = .unset ∧ (t.portal p).lf = none)
            ∧ (¬ metered → (t.portal p).condition = .fallback ∧ (t.portal p).lf = some x.active.lfb)
            ∧ (inEmergency → (t.portal p).mode = .emergency ∧ (t.portal p).returnMode = some .halted
                ∧ (∀ i : Fin 6, (t.portal p).levels[i] = 10000) ∧ SweepStarted p .emergency t t)
            ∧ (¬ inEmergency → (t.portal p).mode = .halted ∧ (t.portal p).returnMode = none
                ∧ (t.portal p).levels = x.levels ∧ (t.portal p).refreshTimer = none
                ∧ t.sweep p = { running := none, owed := false, done := false })
            ∧ (t.portal p).stageShort = shortHolds t p ∧ (metered → shortHolds t p = false)
            ∧ afresh (photometryClass p) (¬ metered) (¬ metered)
            ∧ afresh (meterLostClass p) False False
            ∧ afresh (stageShortClass p) (shortHolds t p = true) (shortHolds t p = true)
            ∧ afresh (sweepDoneClass p) ((t.sweep p).done = true) False
            ∧ afresh (modeSettledClass p) inEmergency False
            ∧ afresh (emergencyClass p) inEmergency inEmergency)
      ∧ (∀ n, t.record n = if (s.record n).state = .retiring then Record.vacant true
                           else { s.record n with misses := 0 })
      ∧ (∀ l, t.line l = { state := .quiet, missLimit := (s.line l).missLimit, fairness := 0, normalPointer := 3,
                           emergencyPointer := 3, admin := [], service := [], strays := [], ignored := [] })
      ∧ (∀ c, (t.noticeClass c).priority = (s.noticeClass c).priority
          ∧ (t.noticeClass c).masked = (s.noticeClass c).masked
          ∧ (24 ≤ c.val → (t.noticeClass c).pending = false ∧ (t.noticeClass c).holds = false))
      ∧ t.notices.stack = [] ∧ t.notices.autoFinish = s.notices.autoFinish
      ∧ ∀ p, t.snapshotOf p = { photo := none, output := none }

/-- Every law that a step is stated to keep holds at State.reset, the model's values there included (logs 4, 5, 6, 7).
-/
def Obligations.LawsHoldAtReset : Prop :=
  ResetLaw State.reset ∧ PortLaw State.reset ∧ LineBLaw State.reset ∧ MeterTableLaw State.reset
    ∧ CouplingLaw State.reset ∧ PhotometryLaw State.reset ∧ (∀ p, ModeLaw (State.reset.portal p))
    ∧ RangeLaw State.reset ∧ RosterLaw State.reset ∧ MissLaw State.reset ∧ SweepLaw State.reset
    ∧ (∀ l, CollectionsLaw State.reset l) ∧ StackLaw State.reset ∧ MarksLaw State.reset

/-! ## Meters and photometry -/

/-- R2, R3, R13 to R16: SET_METER: its checks in order, what CONFIGURE and REMOVE write, that nothing changes further
but what the evaluation of photometry changes, and that each portal enters its condition with the Lf of its entry.
That the portal a meter leaves is evaluated first is the model's (log 14). -/
def Obligations.SetMeterConfiguresOrRemoves : Prop :=
  ∀ (s : State) (meter operation address portal : Byte), s.listening →
    let c := Instr.setMeter meter operation address portal
    Checked c s [(7 < meter.toNat, .badValue), (1 < operation.toNat, .badValue)]
      (∀ m : Fin 8, m.val = meter.toNat →
        (operation = 1 →
          (∃ t, Answers c s .ok [] t ∧ OnlyPhotometry { s with meters := s.meters.set m .unconfigured } t
              ∧ (CouplingLaw s → PhotometryLaw s → PhotometryEntered s t))
            ∧ (s.meter m = .unconfigured → Answers c s .ok [] s))
        ∧ (operation = 0 →
          Checked c s
            [(address = 0 ∨ 31 < address.toNat, .badValue), (3 < portal.toNat, .badValue),
             (∃ k q, k ≠ m ∧ (s.meter k).site = some q ∧ q.address = address.toNat, .addressInUse),
             (∃ j k x y, j ≠ k ∧ j ≠ m ∧ k ≠ m ∧ (s.meter j).site = some x ∧ (s.meter k).site = some y
                ∧ x.portal.val = portal.toNat ∧ y.portal.val = portal.toNat, .meterLimit)]
            (∀ p : Fin 4, p.val = portal.toNat →
              ∃ t, Answers c s .ok [] t
                ∧ OnlyPhotometry (s.setMeter m
                    { site := some { address := address.toNat, portal := p }, state := .awaiting, reading := none,
                      status := none, lost := false, hold := some (s.portal p).active.hold, due := true }) t
                ∧ (CouplingLaw s → PhotometryLaw s → PhotometryEntered s t))))

/-- R4, R5: a configured entry becomes due; a poll is started only while none is in progress, of the due entry that
comes next after the most recently polled number, counting on from 7 to 0, or of the lowest when none counts; MT_TX
carries the frame of the poll in progress, and is idle with MT_DE low while there is none. That a due mark for an
UNCONFIGURED entry and a start with nothing to poll change nothing is the model's choice (log 2), as is that MT_TX is
said to carry the frame as long as the poll lasts (log 19). -/
def Obligations.PollsFollowTheTableInTurn : Prop :=
  ∀ s : State, s.resetN = true →
    let turn := fun k : Fin 8 => match s.lastPolled with
      | none => k.val
      | some j => (k.val + 7 - j.val) % 8
    let waits := fun k : Fin 8 => (s.meter k).site ≠ none ∧ (s.meter k).due = true
    (∀ m, (s.meter m).site ≠ none →
        exec (.pollDue m) s = .next { s with meters := s.meters.set m { s.meter m with due := true } })
      ∧ (∀ m, (s.meter m).site = none → exec (.pollDue m) s = .next s)
      ∧ (∀ m q, s.poll = none → (s.meter m).site = some q → (s.meter m).due = true →
          (∀ k, waits k → turn m ≤ turn k) →
          exec .pollStart s = .next { s with
            meters := s.meters.set m { s.meter m with due := false }, lastPolled := some m, poll := some q.address })
      ∧ (s.poll = none → meterEnable s = some false ∧ meterTx s = .idle)
      ∧ (∀ a, s.poll = some a → meterTx s = .sending (bytesOf 1 a ++ [0x50, crc8 (bytesOf 1 a ++ [0x50])]))
      ∧ (s.poll ≠ none ∨ (∀ k, ¬ waits k) → exec .pollStart s = .next s)

/-- R5 to R8: a poll that completes with WARMING, with FAULT, as a miss, or for an address that no entry holds. -/
def Obligations.PollsWithoutAReadingWriteOnlyTheStatus : Prop :=
  ∀ (s : State) (c0 c1 c2 c3 c4 : Byte) (a : Nat), s.resetN = true → MeterTableLaw s → s.poll = some a →
    let whole := c4 = crc8 [c0, c1, c2, c3] ∧ c0.toNat = a
    let status : Option MeterStatus :=
      if whole ∧ c1 = 2 then some .warming else if whole ∧ c1 = 3 then some .fault else none
    (∀ m q, (s.meter m).site = some q → q.address = a →
        (¬ (whole ∧ c1 = 1 ∧ c2.toNat * 256 + c3.toNat ≤ 16383) →
          exec (.pollCompletion c0 c1 c2 c3 c4) s
            = .next { s with poll := none, meters := s.meters.set m { s.meter m with status := status } })
        ∧ exec .pollWindowClose s
            = .next { s with poll := none, meters := s.meters.set m { s.meter m with status := none } })
      ∧ ((∀ m q, (s.meter m).site = some q → q.address ≠ a) →
        exec (.pollCompletion c0 c1 c2 c3 c4) s = .next { s with poll := none }
          ∧ exec .pollWindowClose s = .next { s with poll := none })

/-- R7, R11, R12: a VALID reply stores the clamped reading, makes its meter ONLINE and starts its hold timer; its
portal is LIVE, and its Lf is filtered once toward the largest reading of its ONLINE meters. -/
def Obligations.ValidReplyIsAReadingArrival : Prop :=
  ∀ (s : State) (c0 c1 c2 c3 c4 : Byte) (m : Fin 8) (q : MeterSite),
    s.resetN = true → MeterTableLaw s → CouplingLaw s → (s.meter m).site = some q → s.poll = some q.address →
    c4 = crc8 [c0, c1, c2, c3] → c0.toNat = q.address → c1 = 1 → c2.toNat * 256 + c3.toNat ≤ 16383 →
    ∃ t la, exec (.pollCompletion c0 c1 c2 c3 c4) s = .next t
      ∧ OnlyPhotometry (({ s with poll := none } : State).setMeter m
          { s.meter m with reading := some (min 12000 (c2.toNat * 256 + c3.toNat)), status := some .valid,
                           state := .online, hold := some (s.portal q.portal).active.hold }) t
      ∧ (t.portal q.portal).condition = .live
      ∧ LargestReading t q.portal la
      ∧ (t.portal q.portal).lf = some (filterStep (s.portal q.portal).active.w (s.portal q.portal).lf la)

/-- R7, R12, R15: one filter step, as a formula; and at the completion of a poll with a VALID reply from the leader's
meter, a follower that is BORROWED after it filters once, with its own w, toward the leader's La, from its Lf or, on
entering BORROWED without one, from the leader's; the Lf of any other follower whose condition stays is not filtered,
and no other portal changes. -/
def Obligations.FilterStepsTowardTheReadingAndFollowersBorrowIt : Prop :=
  (∀ w la : Nat, filterStep w none la = la
      ∧ ∀ lf : Nat, 1 ≤ w → w ≤ 16 →
        let d : Int := (la : Int) - lf
        let lf' : Int := filterStep w (some lf) la
        lf' = lf + d.sign * ((d.natAbs * w + 8) / 16 : Nat)
          ∧ (lf ≤ la → (lf : Int) ≤ lf' ∧ lf' ≤ la) ∧ (la ≤ lf → (la : Int) ≤ lf' ∧ lf' ≤ lf)
          ∧ (w = 16 → lf' = la) ∧ (w = 1 → d.natAbs ≤ 7 → lf' = lf))
  ∧ ∀ (s : State) (c0 c1 c2 c3 c4 : Byte) (m : Fin 8) (x : MeterSite),
    s.resetN = true → MeterTableLaw s → CouplingLaw s → (s.meter m).site = some x → s.poll = some x.address →
    c4 = crc8 [c0, c1, c2, c3] → c0.toNat = x.address → c1 = 1 → c2.toNat * 256 + c3.toNat ≤ 16383 →
    ∃ t la, exec (.pollCompletion c0 c1 c2 c3 c4) s = .next t ∧ LargestReading t x.portal la
      ∧ ∀ q,
        ((s.portal q).leader = some x.portal → (t.portal q).condition = .borrowed →
          let start := if (s.portal q).condition = .borrowed then (s.portal q).lf
            else match (s.portal q).lf with
              | some lf => some lf
              | none => (t.portal x.portal).lf
          (t.portal q).lf = some (filterStep (s.portal q).active.w start la))
        ∧ ((s.portal q).leader = some x.portal → (t.portal q).condition ≠ .borrowed →
          (t.portal q).condition = (s.portal q).condition → (t.portal q).lf = (s.portal q).lf)
        ∧ ((s.portal q).leader ≠ some x.portal → q ≠ x.portal → t.portal q = s.portal q)

/-- R9, R13 to R16: the expiry of a running hold timer on an AWAITING or ONLINE entry: the entry becomes LOST with its
lost flag set and its timer stopped, METER_LOST is handed for its portal, nothing else changes but what the evaluation
of photometry changes, and each portal enters its condition with the Lf of its entry (R13 to R16). -/
def Obligations.HoldTimerExpiryLosesTheMeter : Prop :=
  ∀ (s : State) (m : Fin 8) (q : MeterSite), s.resetN = true → (s.meter m).site = some q → (s.meter m).hold ≠ none →
    (s.meter m).state = .awaiting ∨ (s.meter m).state = .online →
    ∃ t, exec (.holdTimerExpiry m) s = .next t
      ∧ OnlyPhotometry ((s.setMeter m { s.meter m with state := .lost, lost := true, hold := none }).setNoticeClass
          (meterLostClass q.portal) { s.noticeClass (meterLostClass q.portal) with pending := true }) t
      ∧ (CouplingLaw s → PhotometryLaw s → PhotometryEntered s t)

/-- R1, R13 to R16, R47: the laws of the meter table and of coupling are kept by every step; and after every step each
portal's condition is the one its inputs call for, and its Lf is set exactly when it should be. -/
def Obligations.StepKeepsMeterCouplingAndPhotometryLaws : Prop :=
  ∀ s t : State, ResetLaw s → MeterTableLaw s → CouplingLaw s → PhotometryLaw s → step s = .next t →
    MeterTableLaw t ∧ CouplingLaw t ∧ PhotometryLaw t

/-! ## Profiles, drive and ramps -/

/-- R27, R28: the luminance required of a stage and its drive target, with the rounding and the clamps of the rules,
and their ranges; and, of R29, full drive while Lf is unset, whatever dmin is. -/
def Obligations.StageTargetsFollowTheFormula : Prop :=
  (∀ (x : Portal) (i : Fin 6), x.lf = none → x.target i = 10000)
  ∧ (∀ (x : Portal) (lf : Nat) (i : Fin 6), x.lf = some lf → lf ≤ 12000 → x.active.inRange →
      let v := x.active
      let fraction := [1000, v.f2, v.f3, v.f4, v.f5, v.f6].getD i.val 0
      ∃ lth part ls u, Rounds (lf * v.kp) 10 lth ∧ lth ≤ 144000
        ∧ Rounds (lth * fraction) 1000 part ∧ ls = max part v.lin ∧ ls ≤ 144000 ∧ (fraction = 0 → ls = v.lin)
        ∧ Rounds (ls * 10000) v.lmax[i] u
        ∧ x.target i = (if u < v.dmin then v.dmin else if 10000 < u then 10000 else u)
        ∧ v.dmin ≤ x.target i ∧ x.target i ≤ 10000)

/-- R30: which stages are short, when the condition holds, and the set that READ_PORTAL reports. -/
def Obligations.StageShortWhenDriveExceedsFull : Prop :=
  ∀ (s : State) (p : Fin 4), (s.portal p).active.inRange →
    let short := fun i : Fin 6 => ∃ lf u, (s.portal p).lf = some lf ∧ i.val < stageCount s p
      ∧ Rounds (stageLuminance (s.portal p).active lf i * 10000) (s.portal p).active.lmax[i] u ∧ 10000 < u
    (∀ i, (s.portal p).stageIsShort (stageCount s p) i = true ↔ short i)
      ∧ (shortHolds s p = true ↔ ∃ i, short i)
      ∧ (∀ i : Fin 6, (shortStages s p).testBit i.val = true ↔ short i)
      ∧ (∀ k, 6 ≤ k → (shortStages s p).testBit k = false)

/-- R20 to R22: SET_PROFILE: its checks in order, the clamped values, the plain write and the write with AT_ONCE. -/
def Obligations.SetProfileWritesClampedValues : Prop :=
  ∀ (s : State) (portal flags : Byte) (v : RawProfile), s.listening →
    let c := Instr.setProfile portal flags v
    let kept : Profile :=
      { kp := within 20 120 v.kp.toNat, f2 := within 0 1000 v.f2.toNat, f3 := within 0 1000 v.f3.toNat,
        f4 := within 0 1000 v.f4.toNat, f5 := within 0 1000 v.f5.toNat, f6 := within 0 1000 v.f6.toNat,
        lmax := #v[within 100 200000 v.lmax1.toNat, within 100 200000 v.lmax2.toNat, within 100 200000 v.lmax3.toNat,
                   within 100 200000 v.lmax4.toNat, within 100 200000 v.lmax5.toNat, within 100 200000 v.lmax6.toNat],
        lin := within 0 2000 v.lin.toNat, dmin := within 0 3000 v.dmin.toNat, w := within 1 16 v.w.toNat,
        lfb := within 0 12000 v.lfb.toNat, hold := within 2 60 v.hold.toNat, boost := within 0 500 v.boost.toNat }
    let rises := 1000 < kept.f2 ∨ kept.f2 < kept.f3 ∨ kept.f3 < kept.f4 ∨ kept.f4 < kept.f5 ∨ kept.f5 < kept.f6
    let answer := carried (kept ≠ plainProfile v)
    Checked c s [(3 < portal.toNat, .badValue), (1 < flags.toNat, .badValue), (rises, .badProfile)]
      (∀ p : Fin 4, p.val = portal.toNat →
        (flags = 0 →
          Answers c s answer [] { s with portals := s.portals.set p { s.portal p with pendingProfile := some kept } })
        ∧ (flags = 1 →
          ∃ t, Answers c s answer [] t
            ∧ OnlyStageShort p
                { s with portals := s.portals.set p { s.portal p with active := kept, pendingProfile := none } } t))

/-- R41: the four cases of a stage step; a level never passes its target, and moves by at most the up or down rate;
and the target and lower range end of each stage in AUTO and in MANUAL. -/
def Obligations.StageStepIsLimitedAndNeverPassesItsTarget : Prop :=
  (∀ (r : RampSettings) (low target level : Nat), low ≤ target → target ≤ 10000 →
    let still := target ≠ low ∧ target ≠ 10000 ∧ level ≤ target + r.deadband ∧ target ≤ level + r.deadband
    let new := stepLevel r low target level
    (still → new = level)
      ∧ (¬ still → level < target → new = min target (level + r.up))
      ∧ (¬ still → target < level → new = max target (level - r.down))
      ∧ (level = target → new = level)
      ∧ (level ≤ target → level ≤ new ∧ new ≤ target ∧ new ≤ level + r.up)
      ∧ (target ≤ level → target ≤ new ∧ new ≤ level ∧ level ≤ new + r.down))
  ∧ ∀ (x : Portal) (i : Fin 6),
    x.steppedLevels[i] =
      if x.mode = .manual then stepLevel x.ramp 0 x.manual[i] x.levels[i]
      else stepLevel x.ramp x.active.dmin (x.target i) x.levels[i]

/-- R39, R40, R44, R48: a ramp expiry of a running portal runs the phases for it and for each follower that is in AUTO
or MANUAL, each with its own values; MODE_SETTLED is handed where a request took effect; a sweep is asked for exactly
where a level changed; STAGE_SHORT is evaluated where a profile was committed (R31); and no other notice changes. That
one expiry carries the followers with it is the model's (log 15). -/
def Obligations.RampExpiryRunsThePhases : Prop :=
  ∀ (s : State) (p : Fin 4), s.resetN = true → CouplingLaw s →
    (s.portal p).rampTimer ≠ none → (s.portal p).mode = .auto ∨ (s.portal p).mode = .manual →
    let taken := fun q : Fin 4 => q = p ∨
      (s.portal q).leader = some p ∧ ((s.portal q).mode = .auto ∨ (s.portal q).mode = .manual)
    ∃ t, exec (.rampExpiry p) s = .next t
      ∧ t = { s with portals := t.portals, sweeps := t.sweeps, notices := t.notices }
      ∧ NoticesKept (fun c => ∃ q, taken q ∧ (c = modeSettledClass q ∧ (s.portal q).pendingMode ≠ none
          ∨ c = stageShortClass q ∧ (s.portal q).pendingProfile ≠ none
          ∨ c = sweepDoneClass q ∧ (s.portal q).expired.levels ≠ (s.portal q).levels)) s t
      ∧ ∀ q,
        let before := s.noticeClass (stageShortClass q)
        let now := shortHolds t q
        (taken q →
          t.portal q = { (s.portal q).expired with
            refreshTimer := (t.portal q).refreshTimer
            stageShort := if (s.portal q).pendingProfile = none then (s.portal q).stageShort else now }
          ∧ t.noticeClass (stageShortClass q) = (if (t.portal q).stageShort = (s.portal q).stageShort then before
              else before.handed now)
          ∧ ((s.portal q).pendingMode ≠ none → (t.noticeClass (modeSettledClass q)).pending = true)
          ∧ ((s.portal q).expired.levels ≠ (s.portal q).levels → SweepAsked q s t)
          ∧ ((s.portal q).expired.levels = (s.portal q).levels →
              t.sweep q = s.sweep q ∧ (t.portal q).refreshTimer = (s.portal q).refreshTimer))
        ∧ (¬ taken q → t.portal q = s.portal q ∧ t.sweep q = s.sweep q)

/-- R42, R43, R45: SET_RAMP, REQUEST_MODE and SET_STAGE_LEVEL: their checks in order and what they write. -/
def Obligations.RampModeAndStageCommandsWriteTheirPortal : Prop :=
  ∀ (s : State) (portal : Byte), s.listening →
    let put := fun (p : Fin 4) (x : Portal) => ({ s with portals := s.portals.set p x } : State)
    (∀ (steps : Byte) (up down deadband refresh : Half),
      let c := Instr.setRamp portal steps up down deadband refresh
      let plain : RampSettings := ⟨steps.toNat, up.toNat, down.toNat, deadband.toNat, refresh.toNat⟩
      let kept : RampSettings :=
        ⟨within 2 40 steps.toNat, within 1 10000 up.toNat, within 1 10000 down.toNat, within 0 500 deadband.toNat,
         within 10 600 refresh.toNat⟩
      Checked c s [(3 < portal.toNat, .badValue)]
        (∀ p : Fin 4, p.val = portal.toNat →
          Answers c s (carried (kept ≠ plain)) [] (put p { s.portal p with ramp := kept })))
    ∧ (∀ (mode : Byte),
      let c := Instr.requestMode portal mode
      Checked c s [(3 < portal.toNat ∨ 1 < mode.toNat, .badValue)]
        (∀ (p : Fin 4) (m : RunMode), p.val = portal.toNat → m = (if mode = 0 then .auto else .manual) →
          let x := s.portal p
          Checked c s [(x.mode = .halted, .portalHalted)]
            ((x.mode = .emergency →
                Answers c s .ok [] (put p { x with returnMode := some (if m = .auto then .auto else .manual) }))
              ∧ (x.mode = .auto ∨ x.mode = .manual →
                (x.mode = m.mode → Answers c s .ok [] (put p { x with pendingMode := none }))
                  ∧ (x.mode ≠ m.mode → Answers c s .ok [] (put p { x with pendingMode := some m }))))))
    ∧ ∀ (stage : Byte) (level : Half),
      let c := Instr.setStageLevel portal stage level
      Checked c s [(3 < portal.toNat, .badValue), (stage = 0 ∨ 6 < stage.toNat, .badValue)]
        (∀ (p : Fin 4) (i : Fin 6), p.val = portal.toNat → i.val + 1 = stage.toNat →
          let x := s.portal p
          Checked c s [(x.mode ≠ .manual, .notManual)]
            (Answers c s (carried (10000 < level.toNat)) []
              (put p { x with manual := x.manual.set i (min 10000 level.toNat) })))

/-! ## Modes, coupling and emergency lighting -/

/-- R37, R38, R108: START and HALT: their checks in order, the portal each leaves, START's sweep request, and the
sweep that HALT abandons. -/
def Obligations.StartAndHaltChangeThePortalsMode : Prop :=
  ∀ (s : State) (portal : Byte), s.listening →
    (∀ mode : Byte,
      let c := Instr.start portal mode
      Checked c s [(3 < portal.toNat ∨ 1 < mode.toNat, .badValue)]
        (∀ p : Fin 4, p.val = portal.toNat →
          let x := s.portal p
          Checked c s [(x.mode = .auto ∨ x.mode = .manual, .portalRunning), (x.mode = .emergency, .emergencyActive)]
            (∃ t u, Answers c s .ok [] t
              ∧ OnlyStageShort p (s.setPortal p
                  { x with
                    active := x.pendingProfile.getD x.active, pendingProfile := none
                    mode := if mode = 0 then .auto else .manual
                    manual := if mode = 0 then x.manual else x.levels
                    rampTimer := some x.ramp.steps, refreshTimer := some x.ramp.refresh }) u
              ∧ OnlySweeps u t ∧ SweepAsked p u t ∧ (t.portal p).refreshTimer = some x.ramp.refresh)))
    ∧ (
      let c := Instr.halt portal
      Checked c s [(3 < portal.toNat, .badValue)]
        (∀ p : Fin 4, p.val = portal.toNat →
          let x := s.portal p
          Checked c s [(x.mode = .emergency, .emergencyActive)]
            ((x.mode = .halted → Answers c s .ok [] s)
              ∧ (x.mode = .auto ∨ x.mode = .manual →
                let stopped := s.setPortal p
                  { x with mode := .halted, rampTimer := none, refreshTimer := none, pendingMode := none }
                ((s.sweep p).running = none → Answers c s .ok [] stopped)
                  ∧ ((s.sweep p).running ≠ none →
                    Answers c s .ok [] (stopped.setSweep p { s.sweep p with running := none, owed := false }))))))

/-- R47, R13 to R16: SET_COUPLING: its checks in order, the leader it writes or removes, that nothing else changes but
what the evaluation of photometry changes, and that each portal enters its condition with the Lf of its entry, which
in BORROWED is its own or else the leader's; a leader that was there already changes nothing. -/
def Obligations.SetCouplingMakesOrBreaksACoupling : Prop :=
  ∀ (s : State) (follower leader : Byte), s.listening →
    let c := Instr.setCoupling follower leader
    Checked c s [(3 < follower.toNat ∨ 3 < leader.toNat ∧ leader.toNat ≠ 255, .badValue)]
      (∀ p : Fin 4, p.val = follower.toNat →
        let written := fun l : Option (Fin 4) =>
          ((s.portal p).leader = l → Answers c s .ok [] s)
            ∧ ((s.portal p).leader ≠ l → ∃ t, Answers c s .ok [] t
              ∧ OnlyPhotometry { s with portals := s.portals.set p { s.portal p with leader := l } } t
              ∧ (CouplingLaw s → PhotometryLaw s → PhotometryEntered s t))
        (leader = 255 → written none)
          ∧ ∀ q : Fin 4, q.val = leader.toNat →
            Checked c s
              [(q = p ∨ (s.portal q).leader ≠ none ∨ ∃ k, (s.portal k).leader = some p, .badCoupling)]
              (written (some q)))

/-- R49, R50, R51, R99, R107: an assertion of EMERG_N puts every enabled portal that is not in EMERGENCY into it, and
no other; its release changes no portal; and SET_EMERGENCY_ENABLE, with its checks, acts at once while the pin is
asserted. The entry's sweep starts or restarts with both cursors at the first slot, and an ON_LINE cursor keeps its
exchange; the phase of such a cursor is the model's form (log 18), and that the row of an assertion changes nothing
while the pin is asserted already is its choice (log 2). -/
def Obligations.EmergencyPinAndEnableActAtOnce : Prop :=
  (∀ s : State, s.resetN = true →
      (rosterWf s.roster = true → SweepLaw s → s.emergN ≠ s.straps.getLsbD 3 →
        let enters := fun p => (s.portal p).emergencyEnable = true ∧ (s.portal p).mode ≠ .emergency
        ∃ t, exec .emergNAssertion s = .next t ∧ OnlyEmergency enters { s with emergN := s.straps.getLsbD 3 } t
          ∧ ∀ p, enters p → EntersEmergency p s t)
      ∧ (s.emergN = s.straps.getLsbD 3 → exec .emergNAssertion s = .next s)
      ∧ exec .emergNRelease s = .next { s with emergN := !s.straps.getLsbD 3 })
  ∧ (∀ (s : State) (portal setting : Byte), s.listening → rosterWf s.roster = true → SweepLaw s →
      let c := Instr.setEmergencyEnable portal setting
      Checked c s [(3 < portal.toNat ∨ 1 < setting.toNat, .badValue)]
        (∀ p : Fin 4, p.val = portal.toNat →
          let written := s.setPortal p { s.portal p with emergencyEnable := decide (setting = 1) }
          (setting = 1 ∧ s.emergN = s.straps.getLsbD 3 ∧ (s.portal p).mode ≠ .emergency →
            ∃ t, Answers c s .ok [] t ∧ OnlyEmergency (· = p) written t ∧ EntersEmergency p written t)
          ∧ (¬ (setting = 1 ∧ s.emergN = s.straps.getLsbD 3 ∧ (s.portal p).mode ≠ .emergency) →
            Answers c s .ok [] written)))

/-- R53: RELEASE: its checks in order; the portal takes its return mode, its ramp timer is started unless that is
HALTED, EMERGENCY is handed as false and MODE_SETTLED is handed. -/
def Obligations.ReleaseReturnsToTheReturnMode : Prop :=
  ∀ (s : State) (portal : Byte), s.listening →
    let c := Instr.release portal
    Checked c s [(3 < portal.toNat, .badValue)]
      (∀ p : Fin 4, p.val = portal.toNat →
        let x := s.portal p
        Checked c s [(x.mode ≠ .emergency, .notEmergency), (s.emergN = s.straps.getLsbD 3, .stillAsserted)]
          (∀ back, x.returnMode = some back →
            Answers c s .ok []
              (((s.setPortal p
                  { x with
                    mode := back.mode, returnMode := none
                    rampTimer := if back = .halted then none else some x.ramp.steps
                    refreshTimer := if back = .halted then none else x.refreshTimer }).setNoticeClass (emergencyClass p)
                  { s.noticeClass (emergencyClass p) with holds := false, pending := false }).setNoticeClass
                (modeSettledClass p) { s.noticeClass (modeSettledClass p) with pending := true })))

/-- R36, R39, R46, R51, and the ranges that R1, R7, R12, R19, R36, R42, R61, R113, R116, R130, R138 to R144, R150 and
R153 give the numbers of the meter table, the portals, the records, the line controllers and the notice unit,
addresses, uids, timer lengths and priorities among them: the law of each portal's mode, timers and levels, and these
ranges, are kept by every step. -/
def Obligations.StepKeepsModesAndRanges : Prop :=
  ∀ s t : State, rosterWf s.roster = true → (∀ p, ModeLaw (s.portal p)) → RangeLaw s → step s = .next t →
    (∀ p, ModeLaw (t.portal p)) ∧ RangeLaw t

/-- R41: a stage level changes at a ramp expiry by at most the up rate when rising and the down rate when falling, and
otherwise only on entry into EMERGENCY, when it becomes 10000, and at the power-on reset. -/
def Obligations.StageLevelsChangeOnlyAtRampExpiriesAndEmergencyEntry : Prop :=
  ∀ (s t : State) (c : Instr) (p : Fin 4), (∀ k, ModeLaw (s.portal k)) → RangeLaw s → CouplingLaw s →
    exec c s = .next t →
    (t.portal p).levels = (s.portal p).levels
      ∨ (∃ k, c = .rampExpiry k) ∧ (∀ i : Fin 6,
          (t.portal p).levels[i] ≤ (s.portal p).levels[i] + (s.portal p).ramp.up
            ∧ (s.portal p).levels[i] ≤ (t.portal p).levels[i] + (s.portal p).ramp.down)
      ∨ (t.portal p).mode = .emergency ∧ (s.portal p).mode ≠ .emergency
        ∧ (∀ i : Fin 6, (t.portal p).levels[i] = 10000)
      ∨ c = .resetNAsserted

/-- R17, R33, R34, R54, R60, R171, R10: READ_PORTAL: every field of its reply's five parts in order, the reply's
length, and the sticky lost flags it clears. -/
def Obligations.ReadPortalReportsAndClearsLostFlags : Prop :=
  ∀ (s : State) (portal : Byte), s.listening → rosterWf s.roster = true →
    let c := Instr.readPortal portal
    Checked c s [(3 < portal.toNat, .badValue)]
      (∀ p : Fin 4, p.val = portal.toNat →
        let x := s.portal p
        let held := fun f : Record → Bool =>
          ((List.range 512).filter fun n => inFootprint s p n && f (s.record n)).length
        let profile := profileLayout x.active ++ (match x.pendingProfile with
          | none => List.replicate 41 (0 : Byte)
          | some v => 1 :: profileLayout v)
        let mode := [modeByte x.mode, (x.returnMode.map fun m => modeByte m.mode).getD 0,
            (x.pendingMode.map fun m => modeByte m.mode).getD 0]
          ++ x.levels.toList.flatMap (bytesOf 2) ++ x.manual.toList.flatMap (bytesOf 2)
          ++ bytesOf 1 x.ramp.steps ++ bytesOf 2 x.ramp.up ++ bytesOf 2 x.ramp.down ++ bytesOf 2 x.ramp.deadband
          ++ bytesOf 2 x.ramp.refresh ++ bytesOf 1 ((x.leader.map (·.val)).getD 255)
          ++ [flagByte x.emergencyEnable, flagByte (decide (s.emergN = s.straps.getLsbD 3)),
            flagByte (s.sweep p).done, flagByte (s.sweep p).owed]
        let plan := (match s.plan p with
            | none => List.replicate 10 (0 : Byte)
            | some q => 1 :: bytesOf 1 q.stages ++ bytesOf 1 q.rows ++ bytesOf 1 q.positions ++ bytesOf 2 q.base
                ++ bytesOf 2 q.rowStride ++ bytesOf 2 q.stageStride)
          ++ bytesOf 2 (held Record.nonVacant) ++ bytesOf 2 (held fun r => r.state == .active)
        ∃ photo lth ms,
          let computed := optionalBytes 3 lth ++ (List.finRange 6).flatMap (fun i => bytesOf 2 (x.target i))
            ++ bytesOf 1 (shortStages s p)
          let reply := photoLayout photo ++ profile ++ computed ++ mode ++ plan
          PhotoShows s p photo ∧ (x.lf = none → lth = none)
            ∧ (∀ lf, x.lf = some lf → ∃ v, lth = some v ∧ Rounds (lf * x.active.kp) 10 v)
            ∧ Answers c s .ok reply { s with meters := ms } ∧ reply.length = 161 + 8 * photo.reports.length
            ∧ ∀ m : Fin 8, ms[m] = if ∃ q, (s.meter m).site = some q ∧ q.portal = p then { s.meter m with lost := false }
                else s.meter m)

/-! ## Plans and the roster -/

/-- R56, R57, R100, R103: a plan's footprint is the set of slots that the formula names, distinct for distinct places
and rising in the nested order of the walk; coordinates invert the formula; and the walk goes on to the next slot of
it. -/
def Obligations.PlanSlotsFollowTheFormulaInWalkOrder : Prop :=
  ∀ q : Plan, q.wf = true →
    let inside := fun c : Coords => c.stage < q.stages ∧ c.row < q.rows ∧ c.position < q.positions
    (∀ n, q.holds n = true ↔ q.names n)
      ∧ (∀ a b, inside a → inside b →
          (q.slotAt a < q.slotAt b ↔
            a.stage < b.stage ∨ a.stage = b.stage ∧ (a.row < b.row ∨ a.row = b.row ∧ a.position < b.position)))
      ∧ (∀ c, inside c → q.coords (q.slotAt c) = some c)
      ∧ q.names (q.base + (q.stages - 1) * q.stageStride + (q.rows - 1) * q.rowStride + (q.positions - 1))
      ∧ (∀ n, q.names n →
          q.base ≤ n
            ∧ n ≤ q.base + (q.stages - 1) * q.stageStride + (q.rows - 1) * q.rowStride + (q.positions - 1)
            ∧ n ≤ 511)
      ∧ ∀ (s : State) (p : Fin 4) (n : Nat), s.plan p = some q →
          (∀ k, nextPosition s p n = some k ↔ q.names k ∧ n < k ∧ ∀ j, q.names j → n < j → k ≤ j)
            ∧ (nextPosition s p n = none ↔ ∀ j, q.names j → j ≤ n)

/-- R58, R59: SET_PLAN: its checks in order, the plan written or removed, and STAGE_SHORT evaluated again. -/
def Obligations.SetPlanWritesOrRemovesAPlan : Prop :=
  ∀ (s : State) (portal stages rows positions : Byte) (base rowStride stageStride : Half),
    s.listening → rosterWf s.roster = true →
    let c := Instr.setPlan portal stages rows positions base rowStride stageStride
    let q : Plan :=
      { base := base.toNat, stages := stages.toNat, rows := rows.toNat, positions := positions.toNat,
        rowStride := rowStride.toNat, stageStride := stageStride.toNat }
    let written := fun (p : Fin 4) (x : Option Plan) =>
      ∃ t, Answers c s .ok [] t ∧ OnlyStageShort p (s.setPlan p x) t ∧ (t.portal p).stageShort = shortHolds t p
    Checked c s [(3 < portal.toNat, .badValue)]
      (∀ p : Fin 4, p.val = portal.toNat →
        Checked c s
          [((s.portal p).mode ≠ .halted ∨ (s.sweep p).running ≠ none, .portalRunning),
           (∃ n, (s.record n).nonVacant = true ∧ inFootprint s p n = true, .planOccupied)]
          ((stages = 0 → written p none)
            ∧ (stages ≠ 0 →
              Checked c s
                [(6 < q.stages ∨ q.rows = 0 ∨ 8 < q.rows ∨ q.positions = 0 ∨ 64 < q.positions ∨ 511 < q.base
                    ∨ q.rowStride < q.positions ∨ q.stageStride < (q.rows - 1) * q.rowStride + q.positions
                    ∨ 511 < q.base + (q.stages - 1) * q.stageStride + (q.rows - 1) * q.rowStride + (q.positions - 1),
                  .badPlan),
                 (∃ k n, k ≠ p ∧ q.names n ∧ inFootprint s k n = true, .planOverlap)]
                (written p (some q)))))

/-- R65, R66, R143, R146: ADMIT and ADMIT_STRAY: their checks in order, the PROBATION record they make, what leaves
the stray queue and the ignore set, STRAY, and the sweep asked for. -/
def Obligations.AdmissionFillsTheSlot : Prop :=
  ∀ (s : State) (slot m : Half) (line address override : Byte), s.listening → RosterLaw s →
    let n := slot.toNat
    let checks := fun uid : Nat =>
      ([(511 < n, .badSlot), (∀ p, inFootprint s p n = false, .outsidePlan),
        ((s.record n).nonVacant = true, .slotOccupied), (line = 1 ∧ s.straps.getLsbD 2 = false, .noLine),
        (1 < line.toNat ∨ address = 0 ∨ address = 255 ∨ 2 < override.toNat, .badValue),
        (∃ k l, lineCode l = line.toNat ∧ (s.record k).at l address.toNat = true, .addressInUse),
        (uid ≠ 0 ∧ ∃ k, (s.record k).nonVacant = true ∧ (s.record k).uid = uid, .uidInUse)] : List (Prop × Answer))
    let fills := fun (c : Instr) (uid : Nat) (capability : Option Bool) (lmin : Nat) =>
      ∀ l : Line, lineCode l = line.toNat →
        let kept := (s.line l).strays.filter fun e => e.address != address.toNat
        ∃ t, Answers c s (carried (m.toNat < 500 ∨ 1000 < m.toNat)) [] t
          ∧ RecordWritten n
              { state := .probation, place := some ⟨l, address.toNat⟩, uid := uid, confirmed := false,
                m := within 500 1000 m.toNat,
                override := if override = 0 then .auto else if override = 1 then .forceOn else .forceOff,
                capability := capability, lmin := lmin, pinned := none, fault := none, misses := 0, lastSent := none,
                lastAcked := none, changed := false } s t
          ∧ (let b := ({ s with roster := t.roster } : State).setLine l
                { s.line l with strays := kept, ignored := (s.line l).ignored.filter fun a => a != address.toNat }
             (kept = [] ∧ (s.line l).strays ≠ [] →
                OnlySweeps (b.setNoticeClass (strayClass l)
                  { s.noticeClass (strayClass l) with holds := false, pending := false }) t)
              ∧ (¬ (kept = [] ∧ (s.line l).strays ≠ []) → OnlySweeps b t))
          ∧ ∀ p, inFootprint s p n = true → SweepAsked p s t
    (∀ uid : UidField,
      let c := Instr.admitRecord slot line address uid m override
      Checked c s (checks uid.toNat) (fills c uid.toNat none 0))
    ∧ (let c := Instr.admitStray line address slot m override
       let entry := (if line = 0 then s.lineA.strays else s.lineB.strays).find? fun e => e.address == address.toNat
       Checked c s (checks ((entry.bind (·.uid)).getD 0) ++ [(entry = none, .notFound)])
         (∀ e, entry = some e → fills c (e.uid.getD 0) e.capability (e.lmin.getD 0)))

/-- R67, R68: AMEND: its checks in order, the changes it makes together, CLAMPED, and when it asks for a sweep. -/
def Obligations.AmendMakesTheSelectedChanges : Prop :=
  ∀ (s : State) (slot m pinned : Half) (selection override : Byte) (uid : UidField), s.listening → RosterLaw s →
    let c := Instr.amend slot selection m override pinned uid
    let n := slot.toNat
    let r := s.record n
    let chosen := fun i : Nat => selection.getLsbD i
    let asks := chosen 0 = true ∨ chosen 1 = true ∨ chosen 2 = true ∨ chosen 3 = true
    Checked c s
      [(511 < n, .badSlot),
       (32 ≤ selection.toNat ∨ chosen 2 = true ∧ chosen 3 = true ∨ chosen 1 = true ∧ 2 < override.toNat, .badValue),
       (r.state = .vacant, .slotVacant),
       (r.state = .retiring ∨ chosen 4 = true ∧ r.state ≠ .probation, .recordBusy),
       (chosen 4 = true ∧ uid ≠ 0 ∧ ∃ k, k ≠ n ∧ (s.record k).nonVacant = true ∧ (s.record k).uid = uid.toNat, .uidInUse)]
      (∃ t,
        Answers c s
          (carried (selection.getLsbD 0 = true ∧ (m.toNat < 500 ∨ 1000 < m.toNat)
            ∨ selection.getLsbD 2 = true ∧ 10000 < pinned.toNat)) [] t
          ∧ RecordWritten n
              { r with
                m := if chosen 0 then within 500 1000 m.toNat else r.m
                override :=
                  if chosen 1 then (if override = 0 then .auto else if override = 1 then .forceOn else .forceOff)
                  else r.override
                pinned := if chosen 2 then some (min 10000 pinned.toNat) else if chosen 3 then none else r.pinned
                uid := if chosen 4 then uid.toNat else r.uid } s t
          ∧ OnlySweeps { s with roster := t.roster } t
          ∧ (asks → ∀ p, inFootprint s p n = true → SweepAsked p s t)
          ∧ (¬ asks → t = { s with roster := t.roster }))

/-- R70, R71: MOVE: its checks in order, the record carried whole, the old slot VACANT with its mark clear, and both
portals asked for a sweep. -/
def Obligations.MoveCarriesTheWholeRecord : Prop :=
  ∀ (s : State) (slot newSlot : Half), s.listening → RosterLaw s →
    let c := Instr.move slot newSlot
    let n := slot.toNat
    let k := newSlot.toNat
    Checked c s
      [(511 < n ∨ 511 < k, .badSlot), ((s.record n).state = .vacant, .slotVacant),
       ((s.record n).state = .retiring, .recordBusy), (∀ p, inFootprint s p k = false, .outsidePlan),
       ((s.record k).nonVacant = true, .slotOccupied)]
      (∃ t, Answers c s .ok [] t
        ∧ t.record k = s.record n
        ∧ t.record n =
            { state := .vacant, place := none, uid := 0, confirmed := false, m := 1000, override := .auto,
              capability := none, lmin := 0, pinned := none, fault := none, misses := 0, lastSent := none,
              lastAcked := none, changed := false }
        ∧ (∀ j, j ≠ n → j ≠ k → t.record j = s.record j)
        ∧ OnlySweeps { s with roster := t.roster } t
        ∧ ∀ p, inFootprint s p n = true ∨ inFootprint s p k = true → SweepAsked p s t)

/-- R72, R73, R75: RETIRE and CLEAR_FAULT: their checks in order, the record each leaves, RETIRE's changes of the
line's collections, and the sweeps asked for. -/
def Obligations.RetireAndClearFaultChangeOneRecord : Prop :=
  ∀ (s : State) (slot : Half), s.listening → RosterLaw s →
    let n := slot.toNat
    let r := s.record n
    let checks : List (Prop × Answer) :=
      [(511 < n, .badSlot), (r.state = .vacant, .slotVacant), (r.state = .retiring, .recordBusy)]
    Checked (.retire slot) s checks
      (∀ q, r.place = some q →
        Checked (.retire slot) s [(16 ≤ (s.line q.line).admin.length, .lineBusy)]
          (∃ t, Answers (.retire slot) s .ok [] t
            ∧ RecordWritten n { r with state := .retiring } s t
            ∧ OnlySweeps
                (({ s with roster := t.roster } : State).setLine q.line
                  { s.line q.line with
                    service := (s.line q.line).service.filter fun a => a != q.address
                    admin := ((s.line q.line).admin.filter fun e => e != ⟨.identify, q.address⟩)
                      ++ [⟨.forget, q.address⟩] }) t
            ∧ ∀ p, inFootprint s p n = true → SweepAsked p s t))
    ∧ Checked (.clearFault slot) s checks
      ((r.state = .dark →
          ∃ t, Answers (.clearFault slot) s .ok [] t
            ∧ RecordWritten n { r with fault := none, state := if r.confirmed then .active else .probation } s t
            ∧ OnlySweeps { s with roster := t.roster } t
            ∧ ∀ p, inFootprint s p n = true → SweepAsked p s t)
        ∧ (r.state ≠ .dark →
          ∃ t, Answers (.clearFault slot) s .ok [] t ∧ RecordWritten n { r with fault := none } s t
            ∧ t = { s with roster := t.roster }))

/-- R76, R171: READ_RECORD: the 35 bytes of its reply, and the changed mark it clears. -/
def Obligations.ReadRecordReportsEveryFieldAndClearsTheMark : Prop :=
  ∀ (s : State) (slot : Half), s.listening → RosterLaw s →
    let c := Instr.readRecord slot
    let n := slot.toNat
    let r := s.record n
    let front := bytesOf 2 n ++ bytesOf 1 r.state.code
      ++ (match r.place with
          | none => ([255, 0] : List Byte)
          | some q => bytesOf 1 (lineCode q.line) ++ bytesOf 1 q.address)
      ++ bytesOf 6 r.uid ++ [if r.confirmed then (1 : Byte) else 0] ++ bytesOf 2 r.m ++ bytesOf 1 r.override.code
      ++ [match r.capability with
          | none => (0 : Byte)
          | some can => if can then 2 else 1]
      ++ bytesOf 2 r.lmin ++ optionalBytes 2 r.pinned ++ bytesOf 1 (faultCode r.fault) ++ bytesOf 1 r.misses
      ++ optionalBytes 2 r.lastSent ++ optionalBytes 2 r.lastAcked ++ [if r.changed then (1 : Byte) else 0]
    Checked c s [(511 < n, .badSlot)]
      (∃ t place, Answers c s .ok (front ++ place) t ∧ (front ++ place).length = 35
        ∧ RecordWritten n { r with changed := false } s t ∧ t = { s with roster := t.roster }
        ∧ ((∀ p, inFootprint s p n = false) → place = [0, 0, 0, 0, 0])
        ∧ ∀ p q x, s.plan p = some q → q.coords n = some x →
            place = [1] ++ bytesOf 1 p.val ++ bytesOf 1 (x.stage + 1) ++ bytesOf 1 x.row ++ bytesOf 1 x.position)

/-- R77, R78, R79: FIND, FIND_UID and LIST: their checks in order and what they return; nothing changes. -/
def Obligations.FindAndListReportWithoutChange : Prop :=
  ∀ s : State, s.listening → RosterLaw s →
    (∀ line address : Byte,
      let c := Instr.find line address
      Checked c s
        [(1 < line.toNat ∨ address = 0 ∨ address = 255, .badValue), (line = 1 ∧ s.straps.getLsbD 2 = false, .noLine)]
        (∀ l, lineCode l = line.toNat →
          (∀ n, (s.record n).at l address.toNat = true →
            Answers c s .ok (bytesOf 2 n ++ bytesOf 1 (s.record n).state.code) s)
          ∧ ((∀ n, (s.record n).at l address.toNat = false) → Refuses c s .notFound)))
    ∧ (∀ uid : UidField,
      let c := Instr.findUid uid
      Checked c s [(uid = 0, .badValue)]
        ((∀ n, (s.record n).nonVacant = true → (s.record n).uid = uid.toNat →
            Answers c s .ok (bytesOf 2 n ++ bytesOf 1 (s.record n).state.code) s)
          ∧ ((∀ n, ¬ ((s.record n).nonVacant = true ∧ (s.record n).uid = uid.toNat)) → Refuses c s .notFound)))
    ∧ ∀ (start : Half) (portal states changed : Byte),
      let c := Instr.list start portal states changed
      Checked c s
        [(511 < start.toNat, .badSlot),
         (3 < portal.toNat ∧ portal ≠ 255 ∨ 64 ≤ states.toNat ∨ 1 < changed.toNat, .badValue)]
        (∃ slots : List Nat, slots.Pairwise (· < ·)
          ∧ (∀ n, n ∈ slots ↔ start.toNat ≤ n ∧ n ≤ 511 ∧ states.getLsbD (s.record n).state.code = true
              ∧ (portal = 255 ∨ ∃ p : Fin 4, p.val = portal.toNat ∧ inFootprint s p n = true)
              ∧ (changed = 0 ∨ (s.record n).changed = true))
          ∧ Answers c s .ok
              (bytesOf 1 (min 8 slots.length) ++ (slots.take 8).flatMap (bytesOf 2)
                ++ bytesOf 2 (slots.getD 8 65535)) s)

/-- R57, R61, R62, R63: the laws of the roster are kept by every step. -/
def Obligations.StepKeepsRosterLaw : Prop := ∀ s t : State, RosterLaw s → step s = .next t → RosterLaw t

/-! ## Levels -/

/-- R83 to R91: the level computed for the record of a slot: every step of the chain, the neighbours of the record's
row, and the bounds of every level. -/
def Obligations.LevelFollowsTheChain : Prop :=
  ∀ (s : State) (p : Fin 4) (q : Plan) (x : Coords) (n : Nat),
    FootprintLaw s → RangeLaw s → s.plan p = some q → q.coords n = some x →
    let r := s.record n
    let level := levelOfSlot s n
    let other := fun j : Nat => s.record (q.slotAt { x with position := j })
    let counts := fun j : Nat => j < q.positions ∧ ((other j).state = .dark ∨ (other j).state = .silent
      ∨ (other j).state = .retiring)
    let darkNeighbour :=
      (∃ j, j < x.position ∧ counts j ∧ ∀ i, j < i → i < x.position → (other i).state = .vacant)
        ∨ ∃ j, x.position < j ∧ counts j ∧ ∀ i, x.position < i → i < j → (other i).state = .vacant
    let capable := r.override = .forceOn ∨ r.override = .auto ∧ r.capability = some true
    let boosted := r.state = .active ∧ r.pinned = none ∧ capable ∧ darkNeighbour
    ((s.portal p).mode = .emergency → level = 10000)
      ∧ ((s.portal p).mode ≠ .emergency →
        (∀ pin, r.pinned = some pin → level = if pin = 0 then 0 else max pin r.lmin)
        ∧ (r.pinned = none → ∀ i : Fin 6, i.val = x.stage →
          ((s.portal p).levels[i] = 0 → level = 0)
          ∧ ((s.portal p).levels[i] ≠ 0 →
            ∃ a b c1 c2, Rounds ((s.portal p).levels[i] * 1000) r.m a ∧ c1 = min 10000 a
              ∧ Rounds (c1 * (1000 + (s.portal p).active.boost)) 1000 b
              ∧ (boosted → c2 = min 10000 b) ∧ (¬ boosted → c2 = c1) ∧ level = max c2 r.lmin)))
      ∧ level ≤ 10000 ∧ (level = 0 ∨ r.lmin ≤ level)

/-! ## Sweeps -/

/-- R46, R98, R99, R110: RESWEEP, with its checks, and the expiry of a refresh timer: a NORMAL sweep of an IDLE portal
starts, and a RUNNING one owes another. That an expiry of a stopped timer changes nothing is the model's choice (log
2). -/
def Obligations.SweepRequestsStartOrOweASweep : Prop :=
  ∀ s : State, rosterWf s.roster = true → SweepLaw s →
    (s.listening → ∀ portal : Byte,
      let c := Instr.resweep portal
      Checked c s [(3 < portal.toNat, .badValue)]
        (∀ p : Fin 4, p.val = portal.toNat →
          Checked c s [((s.portal p).mode = .halted, .portalHalted)]
            (((s.sweep p).running ≠ none → Answers c s .ok [] (s.setSweep p { s.sweep p with owed := true }))
              ∧ ((s.sweep p).running = none →
                ∃ t, Answers c s .ok [] t ∧ OnlySweeps s t ∧ SweepStarted p .normal s t
                  ∧ ∀ k, k ≠ p → t.sweep k = s.sweep k ∧ t.portal k = s.portal k))))
    ∧ (s.resetN = true → ∀ p,
      let stopped := s.setPortal p { s.portal p with refreshTimer := none }
      ((s.portal p).refreshTimer = none → exec (.refreshTimerExpiry p) s = .next s)
        ∧ ((s.portal p).refreshTimer ≠ none → (s.portal p).mode ≠ .halted →
          ((s.sweep p).running ≠ none →
            exec (.refreshTimerExpiry p) s = .next (stopped.setSweep p { s.sweep p with owed := true }))
          ∧ ((s.sweep p).running = none →
            ∃ t, exec (.refreshTimerExpiry p) s = .next t ∧ OnlySweeps stopped t ∧ SweepStarted p .normal s t
              ∧ ∀ k, k ≠ p → t.sweep k = s.sweep k ∧ t.portal k = s.portal k)))

/-- R96, R100, R102, R106, R111: the law of sweeps and their cursors is kept by every step: in particular a cursor
asks only while an eligible record lies ahead of it, and a sweep with both cursors PASSED has ended. -/
def Obligations.StepKeepsSweepLaw : Prop :=
  ∀ s t : State, rosterWf s.roster = true → SweepLaw s → step s = .next t → SweepLaw t

/-! ## Lighting lines -/

/-- R113, R114, R115, R117, R169: the phases of an exchange at each of its events, the character that completes a
reply and characters outside a reply window and slot included, the end of a quiet period, and the enable and transmit
pins. That a character anywhere else changes nothing is the model's choice (log 2), that the row REPLY_BEGUN brings
characters one by one is its reading (log 12), and so is that the pins are those of a transmission through the whole
FRAME phase (log 19). -/
def Obligations.ExchangePassesThroughItsPhases : Prop :=
  ∀ (s : State) (l : Line), s.resetN = true →
    (∀ x, (s.line l).state = .busy x →
      let moved := fun ph : Phase => s.setLine l { s.line l with state := .busy { x with phase := ph } }
      (x.phase = .frame →
          exec (.frameEnd l) s = .next (moved .window) ∧ ∀ c, exec (.replyBegun l c) s = .next s)
        ∧ (x.phase = .window →
          exec (.replyWindowClose l) s = .next (moved (.slot [] []))
            ∧ ∀ c, exec (.replyBegun l c) s = .next (moved (.reply [c])))
        ∧ (∀ got, x.phase = .reply got →
          exec (.replyGapTimeout l) s = .next (moved (.slot got []))
            ∧ (∀ c, (∀ k, replyLength ((got ++ [c]).getD 1 0) = some k → (got ++ [c]).length < k) →
                exec (.replyBegun l c) s = .next (moved (.reply (got ++ [c]))))
            ∧ ∀ c, replyLength ((got ++ [c]).getD 1 0) = some (got ++ [c]).length →
                exec (.replyBegun l c) s = .next (moved (.slot (got ++ [c]) [])))
        ∧ (∀ got chars, x.phase = .window ∧ got = [] ∨ x.phase = .reply got → chars ≠ [] →
          replyLength ((got ++ chars).getD 1 0) = some (got ++ chars).length →
          exec (.replyReceived l chars) s = .next (moved (.slot (got ++ chars) [])))
        ∧ (∀ said asked c, x.phase = .slot said asked →
          exec (.replyBegun l c) s = .next (moved (.slot said (asked ++ [c]))))
        ∧ (l = .a ∨ s.straps.getLsbD 2 = true →
          (x.phase = .frame → lineEnable s l = true ∧ lineTx s l = .sending (x.frame.characters x.address))
            ∧ (x.phase ≠ .frame → lineEnable s l = false ∧ lineTx s l = .idle)))
    ∧ ((s.line l).state = .quiet ∨ (s.line l).state = .idle →
      lineEnable s l = false ∧ lineTx s l = .idle ∧ ∀ c, exec (.replyBegun l c) s = .next s)
    ∧ ((s.line l).state = .quiet → l = .a ∨ s.straps.getLsbD 2 = true →
      exec (.quietPeriodEnd l) s = .next (s.setLine l { s.line l with state := .idle }))
    ∧ (l = .b → s.straps.getLsbD 2 = false →
      lineEnable s l = false ∧ lineTx s l = .idle ∧ exec (.quietPeriodEnd l) s = .next s)

/-- R116, R117, R171: the characters that are an acceptable reply to a frame, and no others; and the characters of
each frame. That RECOVERED carries a reason byte of 0 is the model's reading (log 11). -/
def Obligations.AcceptableRepliesAreExactlyTheTable : Prop :=
  let code : FaultReason → Byte := fun k => match k with
    | .open => 1
    | .short => 2
    | .thermal => 3
    | .supply => 4
  (∀ (f : LineFrame) (a : Nat) (got : List Byte) (r : DriverReply),
    acceptReply f a got = some r ↔
      ∃ (driver : Byte) (body : List Byte), driver.toNat = a ∧ got = driver :: body ++ [crc8 (driver :: body)]
        ∧ match f with
          | .level _ => r = .ack ∧ body = [0xC1] ∨ r = .ackMore ∧ body = [0xC2]
              ∨ ∃ k, r = .fault k ∧ body = [0xC3, code k]
          | .identify => ∃ (uid lmin : Nat) (can : Bool), r = .ident uid can lmin ∧ 1 ≤ uid ∧ uid < 2 ^ 48
              ∧ lmin < 2 ^ 16 ∧ body = 0xC4 :: bytesOf 6 uid ++ [if can then 1 else 0] ++ bytesOf 2 lmin
          | .query => r = .nothing ∧ body = [0xC7]
              ∨ ∃ more : Bool,
                  (∃ k, r = .news more (.fault k) ∧ body = [if more then 0xC6 else 0xC5, 1, code k])
                    ∨ r = .news more .recovered ∧ body = [if more then 0xC6 else 0xC5, 2, 0]
          | .forget => r = .ack ∧ body = [0xC1])
    ∧ ∀ (f : LineFrame) (a : Nat), f.characters a =
        let front := bytesOf 1 a ++ match f with
          | .level v => 0x61 :: bytesOf 2 v
          | .identify => [0x62]
          | .query => [0x63]
          | .forget => [0x64]
        front ++ [crc8 front]

/-- R102, R115, R116, R128, R129, R130: whom the arbiter of an IDLE line grants, in the order of the table, the
exchange it begins, the fairness count and the pointers; with nobody waiting, and on a line that is not IDLE, it
grants nothing. That such a grant changes nothing is the model's choice (log 2), and that a grant is a step of its own
its reading (log 9). -/
def Obligations.ArbiterGrantsInOrder : Prop :=
  ∀ (s : State) (l : Line), s.resetN = true → rosterWf s.roster = true →
    let c := s.line l
    let waits := fun (cls : SweepClass) (p : Fin 4) => ∃ n, CursorWaits s l cls p n
    let turn := fun (pointer p : Fin 4) => (p.val + 3 - pointer.val) % 4
    let begins := fun (f : LineFrame) (a : Nat) (o : Origin) =>
      LineState.busy { frame := f, address := a, origin := o, phase := .frame }
    (c.state ≠ .idle → exec (.arbiterGrant l) s = .next s)
      ∧ (c.state = .idle →
        (∀ p n, CursorWaits s l .emergency p n →
          (∀ k, waits .emergency k → turn c.emergencyPointer p ≤ turn c.emergencyPointer k) →
          ∃ t, exec (.arbiterGrant l) s = .next t ∧ CursorGranted s t l .emergency p n)
        ∧ ((∀ k, ¬ waits .emergency k) →
          (∀ p n, CursorWaits s l .normal p n →
            (∀ k, waits .normal k → turn c.normalPointer p ≤ turn c.normalPointer k) →
            c.fairness = 4 ∨ c.admin = [] ∧ c.service = [] →
            ∃ t, exec (.arbiterGrant l) s = .next t ∧ CursorGranted s t l .normal p n)
          ∧ (c.fairness ≠ 4 ∨ (∀ k, ¬ waits .normal k) →
            (∀ e rest, c.admin = e :: rest →
              exec (.arbiterGrant l) s = .next (s.setLine l { c with
                state := begins (if e.kind = .identify then .identify else .forget) e.address .admin
                admin := rest, fairness := min 4 (c.fairness + 1) }))
            ∧ (∀ a rest, c.admin = [] → c.service = a :: rest →
              exec (.arbiterGrant l) s = .next (s.setLine l { c with
                state := begins .query a .service, service := rest, fairness := min 4 (c.fairness + 1) })))
          ∧ ((∀ k, ¬ waits .normal k) → c.admin = [] → c.service = [] → exec (.arbiterGrant l) s = .next s)))

/-- R131, R132, R171: SET_LINE: its checks in order, the new limit, the counts clamped, the records that become SILENT
with their changed marks, the one SILENT event, and the sweeps asked for; READ_LINE: its check and the fourteen bytes
of its reply, which changes nothing. -/
def Obligations.SetLineSilencesAndReadLineReports : Prop :=
  (∀ (s : State) (line limit : Byte), s.listening → RosterLaw s →
      let c := Instr.setLine line limit
      let k := within 1 7 limit.toNat
      Checked c s [(1 < line.toNat, .badValue), (line = 1 ∧ s.straps.getLsbD 2 = false, .noLine)]
        (∀ l, lineCode l = line.toNat →
          let stands := fun n : Nat => (s.record n).nonVacant = true ∧ (s.record n).onLine l = true
          let falls := fun n : Nat => stands n ∧ k ≤ (s.record n).misses
            ∧ ((s.record n).state = .active ∨ (s.record n).state = .probation ∨ (s.record n).state = .dark)
          ∃ t, Answers c s (carried (limit.toNat < 1 ∨ 7 < limit.toNat)) [] t
            ∧ (∀ n, (falls n → t.record n = { s.record n with misses := k, state := .silent, changed := true })
                ∧ (stands n → ¬ falls n → t.record n = { s.record n with misses := min (s.record n).misses k })
                ∧ (¬ stands n → t.record n = s.record n))
            ∧ (let b := ({ s with roster := t.roster } : State).setLine l { s.line l with missLimit := k }
               ((∀ n, ¬ falls n) → OnlySweeps b t)
                ∧ ((∃ n, falls n) → OnlySweeps (b.setNoticeClass (lineEventClass l .silent)
                    { s.noticeClass (lineEventClass l .silent) with pending := true }) t))
            ∧ ∀ n p, falls n → inFootprint s p n = true → SweepAsked p s t))
  ∧ (∀ (s : State) (line : Byte), s.listening →
      let c := Instr.readLine line
      Checked c s [(1 < line.toNat, .badValue)]
        (∀ l, lineCode l = line.toNat →
          let x := s.line l
          Answers c s .ok
            ([if l = .a then 1 else if s.straps.getLsbD 2 then 1 else 0,
              if s.straps.extractLsb' 0 2 = 1 then 1 else if s.straps.extractLsb' 0 2 = 2 then 2 else 0]
              ++ bytesOf 1 x.missLimit
              ++ (match x.state with
                  | .quiet => ([0, 0, 0, 0] : List Byte)
                  | .idle => [1, 0, 0, 0]
                  | .busy y => ([2] : List Byte)
                      ++ (match y.frame with
                          | .level _ => ([1] : List Byte)
                          | .identify => [2]
                          | .query => [3]
                          | .forget => [4])
                      ++ bytesOf 1 y.address
                      ++ (match y.origin with
                          | .cursor p => bytesOf 1 p.val
                          | .admin => [4]
                          | .service => [5]))
              ++ bytesOf 1 x.fairness ++ bytesOf 1 x.normalPointer.val ++ bytesOf 1 x.emergencyPointer.val
              ++ bytesOf 1 x.admin.length ++ bytesOf 1 x.service.length ++ bytesOf 1 x.strays.length
              ++ bytesOf 1 x.ignored.length) s))

/-! ## Completions -/

/-- R118, R119, R120, R121, R125, R127: the completion of an exchange that finds its record not RETIRING: a miss of
any kind of exchange but FORGET, an acknowledgement or FAULT to a LEVEL frame, and the news of a QUERY: the record,
the one event handed over or none, and the sweep asked for or not; no other notice but SWEEP_DONE, and STRAY by a
request, changes. That NOTHING leaves the fault reason of an unconfirmed SILENT record that becomes PROBATION as it
is, of which R125 says nothing, is the model's (log 20); so is that a SILENT record returns by confirmed alone,
whatever its reason (log 25). -/
def Obligations.MissesAcknowledgementsAndNewsReachTheRecord : Prop :=
  ∀ (s : State) (l : Line) (x : Exchange) (got asked chars : List Byte) (n : Nat),
    FoundAt s l x got asked n → MissLaw s → (s.record n).state ≠ .retiring → x.frame ≠ .forget →
    let r := s.record n
    let limit := (s.line l).missLimit
    let reply := acceptReply x.frame x.address got
    let leaves := r.state = .silent ∨ r.state = .dark ∧ (r.fault = some .thermal ∨ r.fault = some .supply)
    let lasting := fun k : FaultReason => k = .open ∨ k = .short
    let becomes := fun (new : Record) (event : Option LineEvent) (asks : Prop) =>
      ∃ t, Completes s l asked chars n new event asks t
    let relit := { r with
      misses := 0, fault := none, state := if r.confirmed then .active else .probation, changed := true }
    (reply = none →
      (r.misses + 1 = limit → r.state ≠ .silent →
        becomes { r with misses := limit, state := .silent, changed := true } (some .silent) True)
      ∧ (¬ (r.misses + 1 = limit ∧ r.state ≠ .silent) →
        becomes { r with misses := min limit (r.misses + 1) } none False))
    ∧ (∀ v, x.frame = .level v → reply = some .ack ∨ reply = some .ackMore →
      (leaves → becomes { relit with lastAcked := some v } none True)
      ∧ (¬ leaves → becomes { r with misses := 0, lastAcked := some v } none False))
    ∧ (∀ more, reply = some (.news more .recovered) →
      (leaves → becomes relit none True) ∧ (¬ leaves → becomes { r with misses := 0 } none False))
    ∧ (∀ k, reply = some (.fault k) ∨ (∃ more, reply = some (.news more (.fault k))) →
      (r.state ≠ .dark →
        becomes { r with misses := 0, state := .dark, fault := some k, changed := true } (some .fault) True)
      ∧ (r.state = .dark → r.fault ≠ some k →
        becomes { r with misses := 0, fault := some k, changed := true } (some .fault)
          (∃ j, r.fault = some j ∧ ¬ (lasting j ↔ lasting k)))
      ∧ (r.state = .dark → r.fault = some k → becomes { r with misses := 0 } none False))
    ∧ (reply = some .nothing →
      (r.state = .silent → r.confirmed = false →
        becomes { r with misses := 0, state := .probation, changed := true } none True)
      ∧ (¬ (r.state = .silent ∧ r.confirmed = false) → becomes { r with misses := 0 } none False))

/-- R122, R123, R124, R127: the completion of an IDENTIFY with an IDENT reply, for a record found not RETIRING: a uid
conflict, an adoption or equal uid, and a replacement: the record, the one event handed over or none, and the sweep
asked for or not; no other notice but SWEEP_DONE, and STRAY by a request, changes. -/
def Obligations.IdentRepliesConfirmReplaceOrConflict : Prop :=
  ∀ (s : State) (l : Line) (x : Exchange) (got asked chars : List Byte) (n uid lmin : Nat) (can : Bool),
    FoundAt s l x got asked n → (s.record n).state ≠ .retiring → x.frame = .identify →
    acceptReply .identify x.address got = some (.ident uid can lmin) →
    let r := s.record n
    let taken := ∃ k, k ≠ n ∧ (s.record k).nonVacant = true ∧ (s.record k).uid = uid
    let told := { r with misses := 0, capability := some can, lmin := min lmin 3000, confirmed := true }
    let becomes := fun (new : Record) (event : Option LineEvent) (asks : Prop) =>
      ∃ t, Completes s l asked chars n new event asks t
    (r.uid ≠ uid → taken →
      (r.state ≠ .silent →
        becomes { r with misses := (s.line l).missLimit, state := .silent, changed := true } (some .silent) True)
      ∧ (r.state = .silent → becomes { r with misses := (s.line l).missLimit } none False))
    ∧ (r.uid = uid ∨ r.uid = 0 ∧ ¬ taken →
      becomes
        { told with
          uid := uid
          state := if r.state = .probation ∨ r.state = .silent then .active else r.state
          fault := if r.state = .silent then none else r.fault
          changed := r.changed || decide (r.uid ≠ uid ∨ r.state = .probation ∨ r.state = .silent) } none
        (r.capability ≠ some can ∨ r.lmin ≠ min lmin 3000 ∨ r.state = .probation ∨ r.state = .silent))
    ∧ (r.uid ≠ 0 → r.uid ≠ uid → ¬ taken →
      becomes { told with uid := uid, m := 1000, fault := none, state := .active, changed := true } (some .replaced) True)

/-- R103, R118, R126, R142: the completion of a FORGET, which hands over no event; that of any exchange that finds its
record RETIRING, which is discarded; and that of one for whose address no record stands, which at most fills a stray
entry and moves its cursor. The phase of a restarted cursor is the model's form of R107 (log 18). -/
def Obligations.ForgetVacatesAndOtherCompletionsAreDiscarded : Prop :=
  ∀ (s : State) (l : Line) (x : Exchange) (got asked chars : List Byte), s.resetN = true → RosterLaw s →
    (s.line l).state = .busy { x with phase := .slot got asked } →
    (∀ n, (s.record n).at l x.address = true →
      (x.frame = .forget → (s.record n).state = .retiring →
        ∃ t, Completes s l asked chars n (Record.vacant true) none True t)
      ∧ (x.frame = .forget ∨ (s.record n).state = .retiring → (x.frame = .forget → (s.record n).state ≠ .retiring) →
        ∃ t, Completes s l asked chars n (s.record n) none False t))
    ∧ ((∀ n, (s.record n).at l x.address = false) →
      ∃ t, CompletionFrame s l asked chars none t ∧ t.roster = s.roster ∧ (∀ p, SweepNotAsked p s t)
        ∧ (readRequest (asked ++ chars) = none →
          t.line l = { s.line l with
            state := .idle
            strays :=
              match x.frame, acceptReply x.frame x.address got with
              | .identify, some (.ident uid can lmin) => (s.line l).strays.map fun e =>
                  if e.address = x.address then
                    { e with uid := some uid, capability := some can, lmin := some (min lmin 3000) }
                  else e
              | _, _ => (s.line l).strays })
        ∧ ∀ p w, x.origin = .cursor p → (s.sweep p).running = some w →
          let done := sweepDoneClass p
          ∃ v : Walk, v.cls = w.cls ∧ CursorCompletes s t p l (w.cursor l) (v.cursor l)
            ∧ (∀ k, k ≠ l → CursorFollows t p k (w.cursor k) (v.cursor k))
            ∧ ((∃ k, (v.cursor k).phase ≠ .passed) →
              t.sweep p = { s.sweep p with running := some v } ∧ t.portal p = s.portal p
                ∧ t.noticeClass done = s.noticeClass done)
            ∧ ((∀ k, (v.cursor k).phase = .passed) →
              (t.noticeClass done).pending = true
                ∧ ((s.portal p).mode = .halted ∨ (s.sweep p).owed = false →
                  t.sweep p = { running := none, owed := false, done := true })
                ∧ ((s.portal p).mode ≠ .halted → (s.sweep p).owed = true → SweepStarted p .normal s t)))

/-- R99, R100, R103, R106, R107, R118, R138, R139: after a completion whose request slot holds no request, the line is
IDLE with the address returned to the service set where ACK_MORE or NEWS_MORE asks for it. The cursor that holds the
exchange looks for its next record from the slot after that of its exchange, or from where a restart has placed it.
While a cursor of the portal is not PASSED, its sweep runs on and SWEEP_DONE is not handed. With both PASSED the sweep
ends: sweep-done is set and SWEEP_DONE handed, and an owed sweep is started as NORMAL unless the portal is HALTED. The
phase of a restarted cursor is the model's form of R107 (log 18), and that a request of the same completion is taken
before the end is its reading (log 10). -/
def Obligations.CompletionFreesTheLineAndMovesItsCursor : Prop :=
  ∀ (s : State) (l : Line) (x : Exchange) (got asked chars : List Byte) (n : Nat),
    FoundAt s l x got asked n → readRequest (asked ++ chars) = none →
    let c := s.line l
    let more := acceptReply x.frame x.address got = some .ackMore
      ∨ ∃ news, acceptReply x.frame x.address got = some (.news true news)
    let returns := more ∧ (s.record n).state ≠ .retiring ∧ x.address ∉ c.service ∧ c.service.length < 32
    ∃ t, exec (.exchangeCompletion l chars) s = .next t
      ∧ (returns → t.line l = { c with state := .idle, service := c.service ++ [x.address] })
      ∧ (¬ returns → t.line l = { c with state := .idle })
      ∧ ∀ p w, x.origin = .cursor p → (s.sweep p).running = some w →
        let old := s.record n
        let new := t.record n
        let still := new.state = old.state ∧ new.fault = old.fault ∧ new.uid = old.uid ∧ new.lmin = old.lmin
          ∧ new.capability = old.capability
        let done := sweepDoneClass p
        let ended := t.sweep p = { running := none, owed := false, done := true } ∧ t.portal p = s.portal p
        let again := SweepStarted p .normal { s with roster := t.roster } t
        ∃ v : Walk, v.cls = w.cls ∧ CursorCompletes s t p l (w.cursor l) (v.cursor l)
          ∧ (∀ k, k ≠ l → CursorFollows t p k (w.cursor k) (v.cursor k))
          ∧ ((∃ k, (v.cursor k).phase ≠ .passed) →
            (t.sweep p).running = some v ∧ (t.sweep p).done = (s.sweep p).done ∧ t.portal p = s.portal p
              ∧ t.noticeClass done = s.noticeClass done ∧ ((s.sweep p).owed = true → (t.sweep p).owed = true)
              ∧ (still → (t.sweep p).owed = (s.sweep p).owed))
          ∧ ((∀ k, (v.cursor k).phase = .passed) →
            (t.noticeClass done).pending = true
              ∧ ((s.portal p).mode = .halted → ended)
              ∧ ((s.portal p).mode ≠ .halted →
                ((s.sweep p).owed = true → again)
                  ∧ ((s.sweep p).owed = false → (still → ended) ∧ (ended ∨ again))))

/-! ## Requests and strays -/

/-- R134 to R138, R140, R141, R143, R171: the characters that are a request; what each request does to the line's
collections and to STRAY, for an address of a record, of a RETIRING record, of a stray, in the ignore set, and of none
of these; and that a completion carries the request out. -/
def Obligations.RequestsActOnTheLinesCollections : Prop :=
  (∀ (got : List Byte) (q : Request), readRequest got = some q ↔
    ∃ (a : Byte) (marker : Byte), a ≠ 0 ∧ a ≠ 255 ∧ got = [marker, a, crc8 [marker, a]]
      ∧ (marker = 0xE0 ∧ q = .join false a.toNat ∨ marker = 0xE1 ∧ q = .join true a.toNat
        ∨ marker = 0xE2 ∧ q = .news false a.toNat ∨ marker = 0xE3 ∧ q = .news true a.toNat))
  ∧ (∀ (s : State) (l : Line) (a : Nat), RosterLaw s →
    let c := s.line l
    let entry : AdminEntry := ⟨.identify, a⟩
    let queued := if entry ∈ c.admin ∨ 16 ≤ c.admin.length then c.admin else c.admin ++ [entry]
    let join := takeRequest l (some (.join true a)) s
    let news := takeRequest l (some (.news true a)) s
    let isStray := ∃ e, e ∈ c.strays ∧ e.address = a
    let kept := c.strays.filter fun e => e.address != a
    (∀ n, (s.record n).at l a = true →
      ((s.record n).state = .retiring → join = s ∧ news = s)
      ∧ ((s.record n).state ≠ .retiring →
        join = s.setLine l { c with admin := queued }
          ∧ news = s.setLine l { c with
              service := if a ∈ c.service ∨ 32 ≤ c.service.length then c.service else c.service ++ [a] }))
    ∧ ((∀ n, (s.record n).at l a = false) →
      news = s
        ∧ (a ∈ c.ignored → join = s)
        ∧ (a ∉ c.ignored → isStray → join = s.setLine l { c with admin := queued })
        ∧ (a ∉ c.ignored → ¬ isStray → 8 ≤ c.strays.length → join = s)
        ∧ (a ∉ c.ignored → ¬ isStray → c.strays.length < 8 →
          let added := s.setLine l { c with strays := c.strays ++ [⟨a, none, none, none⟩], admin := queued }
          (c.strays ≠ [] ∨ (s.noticeClass (strayClass l)).holds = true → join = added)
            ∧ (c.strays = [] → (s.noticeClass (strayClass l)).holds = false →
              join = added.setNoticeClass (strayClass l)
                { s.noticeClass (strayClass l) with holds := true, pending := true })))
    ∧ takeRequest l (some (.news false a)) s = s.setLine l { c with service := c.service.filter fun b => b != a }
    ∧ (kept = [] → c.strays ≠ [] →
      takeRequest l (some (.join false a)) s = (s.setLine l { c with strays := kept }).setNoticeClass (strayClass l)
        { s.noticeClass (strayClass l) with holds := false, pending := false })
    ∧ (kept ≠ [] ∨ c.strays = [] → takeRequest l (some (.join false a)) s = s.setLine l { c with strays := kept })
    ∧ takeRequest l none s = s)
  ∧ ∀ (s : State) (l : Line) (x : Exchange) (got asked chars : List Byte), s.resetN = true →
    (s.line l).state = .busy { x with phase := .slot got asked } →
    ∃ t, exec (.exchangeCompletion l chars) s = .next t
      ∧ let applied := applyResult l x (acceptReply x.frame x.address got) s
        let after := takeRequest l (readRequest (asked ++ chars)) applied
        t.line l = { after.line l with state := .idle } ∧ t.roster = after.roster
          ∧ t.noticeClass (strayClass l) = after.noticeClass (strayClass l)

/-- R113, R119, R131, R138, R140, R141, R144: the law of miss counts, the law of an absent line B and the law of each
line's collections are kept by every step. -/
def Obligations.StepKeepsLineLaws : Prop :=
  ∀ s t : State, ResetLaw s → RosterLaw s → RangeLaw s → MissLaw s → LineBLaw s → (∀ l, CollectionsLaw s l) →
    step s = .next t → MissLaw t ∧ LineBLaw t ∧ ∀ l, CollectionsLaw t l

/-- R145, R147, R148, R171: READ_STRAYS, REJECT_STRAY and CLEAR_IGNORE: their checks in order, the reply, and what
they change. -/
def Obligations.StrayCommandsReadRejectAndClear : Prop :=
  ∀ (s : State) (line address : Byte), s.listening →
    let present : List (Prop × Answer) :=
      [(1 < line.toNat, .badValue), (line = 1 ∧ s.straps.getLsbD 2 = false, .noLine)]
    let shown := fun e : Stray => bytesOf 1 e.address ++ optionalBytes 6 e.uid
      ++ [match e.capability with
          | none => (0 : Byte)
          | some can => if can then 2 else 1] ++ optionalBytes 2 e.lmin
    Checked (.readStrays line) s present
      (∀ l, lineCode l = line.toNat →
        Answers (.readStrays line) s .ok
          (bytesOf 1 (s.line l).strays.length ++ (s.line l).strays.flatMap shown
            ++ bytesOf 1 (s.line l).ignored.length ++ (s.line l).ignored.flatMap (bytesOf 1)) s)
    ∧ Checked (.clearIgnore line) s present
      (∀ l, lineCode l = line.toNat →
        Answers (.clearIgnore line) s .ok [] (s.setLine l { s.line l with ignored := [] }))
    ∧ Checked (.rejectStray line address) s
      [(1 < line.toNat ∨ address = 0 ∨ address = 255, .badValue), (line = 1 ∧ s.straps.getLsbD 2 = false, .noLine)]
      (∀ l, lineCode l = line.toNat →
        let x := s.line l
        let kept := x.strays.filter fun e => e.address != address.toNat
        let rejected := s.setLine l { x with
          strays := kept
          admin := x.admin.filter fun e => e != ⟨.identify, address.toNat⟩
          ignored := (if 8 ≤ x.ignored.length then x.ignored.drop 1 else x.ignored) ++ [address.toNat] }
        Checked (.rejectStray line address) s [(∀ e, e ∈ x.strays → e.address ≠ address.toNat, .notFound)]
          ((kept ≠ [] → Answers (.rejectStray line address) s .ok [] rejected)
            ∧ (kept = [] → Answers (.rejectStray line address) s .ok []
                (rejected.setNoticeClass (strayClass l)
                  { s.noticeClass (strayClass l) with holds := false, pending := false }))))

/-! ## Notices and snapshots -/

/-- R150, R151, R156, R157, R171: SET_PRIORITY, MASK, SET_AUTO_FINISH and READ_NOTICES: their checks, what they write,
and the reply. -/
def Obligations.NoticeSettingsAreWrittenAndRead : Prop :=
  ∀ (s : State) (cls value : Byte), s.listening →
    let named := fun k : Fin 32 => k.val = cls.toNat ∨ cls = 255
    let wrote := fun (t : State) (f : NoticeClass → NoticeClass) =>
      t = { s with notices := { s.notices with classes := t.notices.classes } }
        ∧ ∀ k, (named k → t.noticeClass k = f (s.noticeClass k)) ∧ (¬ named k → t.noticeClass k = s.noticeClass k)
    let marks := fun (f : NoticeClass → Bool) (number : Nat) =>
      number < 2 ^ 32 ∧ ∀ k : Fin 32, number.testBit k.val = f (s.noticeClass k)
    Checked (.setPriority cls value) s [(31 < cls.toNat ∧ cls ≠ 255, .badValue)]
      (∃ t, Answers (.setPriority cls value) s (carried (value.toNat < 1 ∨ 15 < value.toNat)) [] t
        ∧ wrote t fun x => { x with priority := within 1 15 value.toNat })
    ∧ Checked (.mask cls value) s [(31 < cls.toNat ∧ cls ≠ 255 ∨ 1 < value.toNat, .badValue)]
      (∃ t, Answers (.mask cls value) s .ok [] t ∧ wrote t fun x => { x with masked := decide (value = 1) })
    ∧ Checked (.setAutoFinish value) s [(1 < value.toNat, .badValue)]
      (Answers (.setAutoFinish value) s .ok []
        { s with notices := { s.notices with autoFinish := decide (value = 1) } })
    ∧ ∃ pending masked holds,
        marks (·.pending) pending ∧ marks (·.masked) masked ∧ marks (·.holds) holds
          ∧ Answers .readNotices s .ok
              (bytesOf 4 pending ++ bytesOf 4 masked ++ bytesOf 4 holds
                ++ (List.finRange 32).flatMap (fun k => bytesOf 1 (s.noticeClass k).priority)
                ++ [if s.notices.autoFinish then 1 else 0] ++ bytesOf 1 s.notices.stack.length
                ++ s.notices.stack.reverse.flatMap (fun e => bytesOf 1 e.cls.val ++ bytesOf 1 e.priority)
                ++ [if notifyAsserted s then 1 else 0]) s

/-- R153, R154, R155: when NOTIFY_N is asserted; which class TAKE_NOTICE takes, and what it pushes; and what
FINISH_NOTICE pops and makes pending. -/
def Obligations.NoticesAreTakenByPriorityAndFinished : Prop :=
  ∀ s : State, s.listening →
    let top := (s.notices.stack.head?.map (·.priority)).getD 0
    let depth := s.notices.stack.length
    let ready := fun k : Fin 32 => (s.noticeClass k).pending = true ∧ (s.noticeClass k).masked = false
      ∧ (∀ e, e ∈ s.notices.stack → e.cls ≠ k) ∧ top < (s.noticeClass k).priority
    (notifyAsserted s = true ↔ ∃ k, ready k)
      ∧ ((∀ k, ¬ ready k) → Answers .takeNotice s .ok ([255, 0] ++ bytesOf 1 depth) s)
      ∧ (∀ k, ready k →
        (∀ j, ready j → (s.noticeClass j).priority < (s.noticeClass k).priority
          ∨ (s.noticeClass j).priority = (s.noticeClass k).priority ∧ k ≤ j) →
        let taken := s.setNoticeClass k { s.noticeClass k with pending := false }
        let front := bytesOf 1 k.val ++ bytesOf 1 (s.noticeClass k).priority
        (s.notices.autoFinish = true → Answers .takeNotice s .ok (front ++ bytesOf 1 depth) taken)
          ∧ (s.notices.autoFinish = false →
            Answers .takeNotice s .ok (front ++ bytesOf 1 (depth + 1))
              { taken with notices := { taken.notices with
                stack := ⟨k, (s.noticeClass k).priority⟩ :: s.notices.stack } }))
      ∧ (s.notices.stack = [] → Answers .finishNotice s .ok [255, 0, 0] s)
      ∧ ∀ e rest, s.notices.stack = e :: rest →
        let popped : State := { s with notices := { s.notices with stack := rest } }
        let again := (e.cls.val < 24 ∧ (e.cls.val % 6 = 0 ∨ e.cls.val % 6 = 2 ∨ e.cls.val % 6 = 5)
            ∨ e.cls.val = 24 ∨ e.cls.val = 28)
          ∧ (s.noticeClass e.cls).holds = true
        (again → Answers .finishNotice s .ok (bytesOf 1 e.cls.val ++ [1] ++ bytesOf 1 rest.length)
            (popped.setNoticeClass e.cls { s.noticeClass e.cls with pending := true }))
          ∧ (¬ again →
            Answers .finishNotice s .ok
              (bytesOf 1 e.cls.val ++ [if (s.noticeClass e.cls).pending then 1 else 0] ++ bytesOf 1 rest.length)
              popped)

/-- R149, R150, R152, R153, R162, R165, R169: the laws of the reset line and the port, of the in-service stack, and of
the holds and pending marks are kept by every step: each condition class holds exactly while its condition does. That
while RESET_N is low the strap store is 0000 and the record of MISO empty, and that the level of EMERG_N and the queue
are kept, is the model's (logs 4, 5, 7, 21). -/
def Obligations.StepKeepsResetPortAndNoticeLaws : Prop :=
  ∀ s t : State, ResetLaw s → PortLaw s → StackLaw s → MarksLaw s → step s = .next t →
    ResetLaw t ∧ PortLaw t ∧ StackLaw t ∧ MarksLaw t

/-- R10, R17, R159, R160, R161, R171: SNAPSHOT and READ_SNAPSHOT: their checks, what is latched and what stays as it
was held, every field of the replies in order, and the sticky lost flags cleared. -/
def Obligations.SnapshotsLatchFreePartsAndAreRead : Prop :=
  ∀ (s : State), s.listening →
    let output := fun p : Fin 4 =>
      ({ mode := (s.portal p).mode, targets := six (s.portal p).target, levels := (s.portal p).levels,
         done := (s.sweep p).done, owed := (s.sweep p).owed } : Output)
    ∃ live : Fin 4 → Photo, (∀ p, PhotoShows s p (live p))
    ∧ (∀ portals parts : Byte,
      Checked (.snapshot portals parts) s [(15 < portals.toNat ∨ 3 < parts.toNat, .badValue)]
        (∃ t latched already, Answers (.snapshot portals parts) s .ok [latched, already] t
          ∧ t = { s with snapshots := t.snapshots }
          ∧ ∀ p : Fin 4,
            let photo := portals.getLsbD p.val && parts.getLsbD 0
            let out := portals.getLsbD p.val && parts.getLsbD 1
            (t.snapshotOf p).photo
                = (if photo = true ∧ (s.snapshotOf p).photo = none then some (live p) else (s.snapshotOf p).photo)
              ∧ (t.snapshotOf p).output
                = (if out = true ∧ (s.snapshotOf p).output = none then some (output p) else (s.snapshotOf p).output)
              ∧ latched.getLsbD (2 * p.val) = (photo && (s.snapshotOf p).photo.isNone)
              ∧ latched.getLsbD (2 * p.val + 1) = (out && (s.snapshotOf p).output.isNone)
              ∧ already.getLsbD (2 * p.val) = (photo && (s.snapshotOf p).photo.isSome)
              ∧ already.getLsbD (2 * p.val + 1) = (out && (s.snapshotOf p).output.isSome)))
    ∧ ∀ portal : Byte,
      Checked (.readSnapshot portal) s [(3 < portal.toNat, .badValue)]
        (∀ p : Fin 4, p.val = portal.toNat →
          let x := s.snapshotOf p
          let photo := x.photo.getD (live p)
          let out := x.output.getD (output p)
          ∃ t, Answers (.readSnapshot portal) s .ok
              ([flagByte x.photo.isSome] ++ photoLayout photo ++ [flagByte x.output.isSome]
                ++ [modeByte out.mode] ++ out.targets.toList.flatMap (bytesOf 2)
                ++ out.levels.toList.flatMap (bytesOf 2) ++ [flagByte out.done, flagByte out.owed]) t
            ∧ t = { s with meters := t.meters, snapshots := s.snapshots.set p { photo := none, output := none } }
            ∧ ∀ m, ((∃ r, r ∈ photo.reports ∧ r.meter = m ∧ r.lost = true) →
                t.meter m = { s.meter m with lost := false })
              ∧ (¬ (∃ r, r ∈ photo.reports ∧ r.meter = m ∧ r.lost = true) → t.meter m = s.meter m))

end
end

