-- ==== Sys2Proof/Laws/State.lean ====
section
/-! SUPPORT. What each write of a table leaves of each field and of each table's read, so that no proof unfolds a record
update. -/

namespace Sys2Proof.Machine

/-! ## setPortal -/

@[simp] theorem State.setPortal_resetN (s : State) (p : Fin 4) (x : Portal) : (s.setPortal p x).resetN = s.resetN := rfl
@[simp] theorem State.setPortal_straps (s : State) (p : Fin 4) (x : Portal) : (s.setPortal p x).straps = s.straps := rfl
@[simp] theorem State.setPortal_emergN (s : State) (p : Fin 4) (x : Portal) : (s.setPortal p x).emergN = s.emergN := rfl
@[simp] theorem State.setPortal_meters (s : State) (p : Fin 4) (x : Portal) : (s.setPortal p x).meters = s.meters := rfl
@[simp] theorem State.setPortal_lastPolled (s : State) (p : Fin 4) (x : Portal) : (s.setPortal p x).lastPolled = s.lastPolled := rfl
@[simp] theorem State.setPortal_poll (s : State) (p : Fin 4) (x : Portal) : (s.setPortal p x).poll = s.poll := rfl
@[simp] theorem State.setPortal_plans (s : State) (p : Fin 4) (x : Portal) : (s.setPortal p x).plans = s.plans := rfl
@[simp] theorem State.setPortal_roster (s : State) (p : Fin 4) (x : Portal) : (s.setPortal p x).roster = s.roster := rfl
@[simp] theorem State.setPortal_sweeps (s : State) (p : Fin 4) (x : Portal) : (s.setPortal p x).sweeps = s.sweeps := rfl
@[simp] theorem State.setPortal_lineA (s : State) (p : Fin 4) (x : Portal) : (s.setPortal p x).lineA = s.lineA := rfl
@[simp] theorem State.setPortal_lineB (s : State) (p : Fin 4) (x : Portal) : (s.setPortal p x).lineB = s.lineB := rfl
@[simp] theorem State.setPortal_notices (s : State) (p : Fin 4) (x : Portal) : (s.setPortal p x).notices = s.notices := rfl
@[simp] theorem State.setPortal_snapshots (s : State) (p : Fin 4) (x : Portal) : (s.setPortal p x).snapshots = s.snapshots := rfl
@[simp] theorem State.setPortal_port (s : State) (p : Fin 4) (x : Portal) : (s.setPortal p x).port = s.port := rfl
@[simp] theorem State.setPortal_pending (s : State) (p : Fin 4) (x : Portal) : (s.setPortal p x).pending = s.pending := rfl
@[simp] theorem State.setPortal_meter (s : State) (p : Fin 4) (x : Portal) (k : Fin 8) :
    (s.setPortal p x).meter k = s.meter k := rfl
@[simp] theorem State.setPortal_plan (s : State) (p : Fin 4) (x : Portal) (q : Fin 4) :
    (s.setPortal p x).plan q = s.plan q := rfl
@[simp] theorem State.setPortal_sweep (s : State) (p : Fin 4) (x : Portal) (q : Fin 4) :
    (s.setPortal p x).sweep q = s.sweep q := rfl
@[simp] theorem State.setPortal_noticeClass (s : State) (p : Fin 4) (x : Portal) (k : Fin 32) :
    (s.setPortal p x).noticeClass k = s.noticeClass k := rfl
@[simp] theorem State.setPortal_snapshotOf (s : State) (p : Fin 4) (x : Portal) (q : Fin 4) :
    (s.setPortal p x).snapshotOf q = s.snapshotOf q := rfl
@[simp] theorem State.setPortal_record (s : State) (p : Fin 4) (x : Portal) (n : Nat) :
    (s.setPortal p x).record n = s.record n := rfl
@[simp] theorem State.setPortal_line (s : State) (p : Fin 4) (x : Portal) (l : Line) : (s.setPortal p x).line l = s.line l := by
  cases l <;> rfl
theorem State.portal_setPortal (s : State) (p : Fin 4) (x : Portal) (q : Fin 4) :
    (s.setPortal p x).portal q = if p = q then x else s.portal q := by
  simp only [State.setPortal, State.portal, Fin.getElem_fin, Vector.getElem_set, Fin.ext_iff]

@[simp] theorem State.portal_setPortal_self (s : State) (p : Fin 4) (x : Portal) : (s.setPortal p x).portal p = x := by
  rw [State.portal_setPortal, if_pos rfl]
theorem State.portal_setPortal_of_ne (s : State) (p : Fin 4) (x : Portal) (q : Fin 4) (h : q ≠ p) :
    (s.setPortal p x).portal q = s.portal q := by
  rw [State.portal_setPortal, if_neg (Ne.symm h)]

/-! ## setMeter -/

@[simp] theorem State.setMeter_resetN (s : State) (m : Fin 8) (x : Meter) : (s.setMeter m x).resetN = s.resetN := rfl
@[simp] theorem State.setMeter_straps (s : State) (m : Fin 8) (x : Meter) : (s.setMeter m x).straps = s.straps := rfl
@[simp] theorem State.setMeter_emergN (s : State) (m : Fin 8) (x : Meter) : (s.setMeter m x).emergN = s.emergN := rfl
@[simp] theorem State.setMeter_lastPolled (s : State) (m : Fin 8) (x : Meter) : (s.setMeter m x).lastPolled = s.lastPolled := rfl
@[simp] theorem State.setMeter_poll (s : State) (m : Fin 8) (x : Meter) : (s.setMeter m x).poll = s.poll := rfl
@[simp] theorem State.setMeter_portals (s : State) (m : Fin 8) (x : Meter) : (s.setMeter m x).portals = s.portals := rfl
@[simp] theorem State.setMeter_plans (s : State) (m : Fin 8) (x : Meter) : (s.setMeter m x).plans = s.plans := rfl
@[simp] theorem State.setMeter_roster (s : State) (m : Fin 8) (x : Meter) : (s.setMeter m x).roster = s.roster := rfl
@[simp] theorem State.setMeter_sweeps (s : State) (m : Fin 8) (x : Meter) : (s.setMeter m x).sweeps = s.sweeps := rfl
@[simp] theorem State.setMeter_lineA (s : State) (m : Fin 8) (x : Meter) : (s.setMeter m x).lineA = s.lineA := rfl
@[simp] theorem State.setMeter_lineB (s : State) (m : Fin 8) (x : Meter) : (s.setMeter m x).lineB = s.lineB := rfl
@[simp] theorem State.setMeter_notices (s : State) (m : Fin 8) (x : Meter) : (s.setMeter m x).notices = s.notices := rfl
@[simp] theorem State.setMeter_snapshots (s : State) (m : Fin 8) (x : Meter) : (s.setMeter m x).snapshots = s.snapshots := rfl
@[simp] theorem State.setMeter_port (s : State) (m : Fin 8) (x : Meter) : (s.setMeter m x).port = s.port := rfl
@[simp] theorem State.setMeter_pending (s : State) (m : Fin 8) (x : Meter) : (s.setMeter m x).pending = s.pending := rfl
@[simp] theorem State.setMeter_portal (s : State) (m : Fin 8) (x : Meter) (q : Fin 4) :
    (s.setMeter m x).portal q = s.portal q := rfl
@[simp] theorem State.setMeter_plan (s : State) (m : Fin 8) (x : Meter) (q : Fin 4) :
    (s.setMeter m x).plan q = s.plan q := rfl
@[simp] theorem State.setMeter_sweep (s : State) (m : Fin 8) (x : Meter) (q : Fin 4) :
    (s.setMeter m x).sweep q = s.sweep q := rfl
@[simp] theorem State.setMeter_noticeClass (s : State) (m : Fin 8) (x : Meter) (k : Fin 32) :
    (s.setMeter m x).noticeClass k = s.noticeClass k := rfl
@[simp] theorem State.setMeter_snapshotOf (s : State) (m : Fin 8) (x : Meter) (q : Fin 4) :
    (s.setMeter m x).snapshotOf q = s.snapshotOf q := rfl
@[simp] theorem State.setMeter_record (s : State) (m : Fin 8) (x : Meter) (n : Nat) :
    (s.setMeter m x).record n = s.record n := rfl
@[simp] theorem State.setMeter_line (s : State) (m : Fin 8) (x : Meter) (l : Line) : (s.setMeter m x).line l = s.line l := by
  cases l <;> rfl
theorem State.meter_setMeter (s : State) (m : Fin 8) (x : Meter) (k : Fin 8) :
    (s.setMeter m x).meter k = if m = k then x else s.meter k := by
  simp only [State.setMeter, State.meter, Fin.getElem_fin, Vector.getElem_set, Fin.ext_iff]

@[simp] theorem State.meter_setMeter_self (s : State) (m : Fin 8) (x : Meter) : (s.setMeter m x).meter m = x := by
  rw [State.meter_setMeter, if_pos rfl]
theorem State.meter_setMeter_of_ne (s : State) (m : Fin 8) (x : Meter) (k : Fin 8) (h : k ≠ m) :
    (s.setMeter m x).meter k = s.meter k := by
  rw [State.meter_setMeter, if_neg (Ne.symm h)]

/-! ## setPlan -/

@[simp] theorem State.setPlan_resetN (s : State) (p : Fin 4) (x : Option Plan) : (s.setPlan p x).resetN = s.resetN := rfl
@[simp] theorem State.setPlan_straps (s : State) (p : Fin 4) (x : Option Plan) : (s.setPlan p x).straps = s.straps := rfl
@[simp] theorem State.setPlan_emergN (s : State) (p : Fin 4) (x : Option Plan) : (s.setPlan p x).emergN = s.emergN := rfl
@[simp] theorem State.setPlan_meters (s : State) (p : Fin 4) (x : Option Plan) : (s.setPlan p x).meters = s.meters := rfl
@[simp] theorem State.setPlan_lastPolled (s : State) (p : Fin 4) (x : Option Plan) : (s.setPlan p x).lastPolled = s.lastPolled := rfl
@[simp] theorem State.setPlan_poll (s : State) (p : Fin 4) (x : Option Plan) : (s.setPlan p x).poll = s.poll := rfl
@[simp] theorem State.setPlan_portals (s : State) (p : Fin 4) (x : Option Plan) : (s.setPlan p x).portals = s.portals := rfl
@[simp] theorem State.setPlan_roster (s : State) (p : Fin 4) (x : Option Plan) : (s.setPlan p x).roster = s.roster := rfl
@[simp] theorem State.setPlan_sweeps (s : State) (p : Fin 4) (x : Option Plan) : (s.setPlan p x).sweeps = s.sweeps := rfl
@[simp] theorem State.setPlan_lineA (s : State) (p : Fin 4) (x : Option Plan) : (s.setPlan p x).lineA = s.lineA := rfl
@[simp] theorem State.setPlan_lineB (s : State) (p : Fin 4) (x : Option Plan) : (s.setPlan p x).lineB = s.lineB := rfl
@[simp] theorem State.setPlan_notices (s : State) (p : Fin 4) (x : Option Plan) : (s.setPlan p x).notices = s.notices := rfl
@[simp] theorem State.setPlan_snapshots (s : State) (p : Fin 4) (x : Option Plan) : (s.setPlan p x).snapshots = s.snapshots := rfl
@[simp] theorem State.setPlan_port (s : State) (p : Fin 4) (x : Option Plan) : (s.setPlan p x).port = s.port := rfl
@[simp] theorem State.setPlan_pending (s : State) (p : Fin 4) (x : Option Plan) : (s.setPlan p x).pending = s.pending := rfl
@[simp] theorem State.setPlan_portal (s : State) (p : Fin 4) (x : Option Plan) (q : Fin 4) :
    (s.setPlan p x).portal q = s.portal q := rfl
@[simp] theorem State.setPlan_meter (s : State) (p : Fin 4) (x : Option Plan) (k : Fin 8) :
    (s.setPlan p x).meter k = s.meter k := rfl
@[simp] theorem State.setPlan_sweep (s : State) (p : Fin 4) (x : Option Plan) (q : Fin 4) :
    (s.setPlan p x).sweep q = s.sweep q := rfl
@[simp] theorem State.setPlan_noticeClass (s : State) (p : Fin 4) (x : Option Plan) (k : Fin 32) :
    (s.setPlan p x).noticeClass k = s.noticeClass k := rfl
@[simp] theorem State.setPlan_snapshotOf (s : State) (p : Fin 4) (x : Option Plan) (q : Fin 4) :
    (s.setPlan p x).snapshotOf q = s.snapshotOf q := rfl
@[simp] theorem State.setPlan_record (s : State) (p : Fin 4) (x : Option Plan) (n : Nat) :
    (s.setPlan p x).record n = s.record n := rfl
@[simp] theorem State.setPlan_line (s : State) (p : Fin 4) (x : Option Plan) (l : Line) : (s.setPlan p x).line l = s.line l := by
  cases l <;> rfl
theorem State.plan_setPlan (s : State) (p : Fin 4) (x : Option Plan) (q : Fin 4) :
    (s.setPlan p x).plan q = if p = q then x else s.plan q := by
  simp only [State.setPlan, State.plan, Fin.getElem_fin, Vector.getElem_set, Fin.ext_iff]

@[simp] theorem State.plan_setPlan_self (s : State) (p : Fin 4) (x : Option Plan) : (s.setPlan p x).plan p = x := by
  rw [State.plan_setPlan, if_pos rfl]
theorem State.plan_setPlan_of_ne (s : State) (p : Fin 4) (x : Option Plan) (q : Fin 4) (h : q ≠ p) :
    (s.setPlan p x).plan q = s.plan q := by
  rw [State.plan_setPlan, if_neg (Ne.symm h)]

/-! ## setSweep -/

@[simp] theorem State.setSweep_resetN (s : State) (p : Fin 4) (x : Sweep) : (s.setSweep p x).resetN = s.resetN := rfl
@[simp] theorem State.setSweep_straps (s : State) (p : Fin 4) (x : Sweep) : (s.setSweep p x).straps = s.straps := rfl
@[simp] theorem State.setSweep_emergN (s : State) (p : Fin 4) (x : Sweep) : (s.setSweep p x).emergN = s.emergN := rfl
@[simp] theorem State.setSweep_meters (s : State) (p : Fin 4) (x : Sweep) : (s.setSweep p x).meters = s.meters := rfl
@[simp] theorem State.setSweep_lastPolled (s : State) (p : Fin 4) (x : Sweep) : (s.setSweep p x).lastPolled = s.lastPolled := rfl
@[simp] theorem State.setSweep_poll (s : State) (p : Fin 4) (x : Sweep) : (s.setSweep p x).poll = s.poll := rfl
@[simp] theorem State.setSweep_portals (s : State) (p : Fin 4) (x : Sweep) : (s.setSweep p x).portals = s.portals := rfl
@[simp] theorem State.setSweep_plans (s : State) (p : Fin 4) (x : Sweep) : (s.setSweep p x).plans = s.plans := rfl
@[simp] theorem State.setSweep_roster (s : State) (p : Fin 4) (x : Sweep) : (s.setSweep p x).roster = s.roster := rfl
@[simp] theorem State.setSweep_lineA (s : State) (p : Fin 4) (x : Sweep) : (s.setSweep p x).lineA = s.lineA := rfl
@[simp] theorem State.setSweep_lineB (s : State) (p : Fin 4) (x : Sweep) : (s.setSweep p x).lineB = s.lineB := rfl
@[simp] theorem State.setSweep_notices (s : State) (p : Fin 4) (x : Sweep) : (s.setSweep p x).notices = s.notices := rfl
@[simp] theorem State.setSweep_snapshots (s : State) (p : Fin 4) (x : Sweep) : (s.setSweep p x).snapshots = s.snapshots := rfl
@[simp] theorem State.setSweep_port (s : State) (p : Fin 4) (x : Sweep) : (s.setSweep p x).port = s.port := rfl
@[simp] theorem State.setSweep_pending (s : State) (p : Fin 4) (x : Sweep) : (s.setSweep p x).pending = s.pending := rfl
@[simp] theorem State.setSweep_portal (s : State) (p : Fin 4) (x : Sweep) (q : Fin 4) :
    (s.setSweep p x).portal q = s.portal q := rfl
@[simp] theorem State.setSweep_meter (s : State) (p : Fin 4) (x : Sweep) (k : Fin 8) :
    (s.setSweep p x).meter k = s.meter k := rfl
@[simp] theorem State.setSweep_plan (s : State) (p : Fin 4) (x : Sweep) (q : Fin 4) :
    (s.setSweep p x).plan q = s.plan q := rfl
@[simp] theorem State.setSweep_noticeClass (s : State) (p : Fin 4) (x : Sweep) (k : Fin 32) :
    (s.setSweep p x).noticeClass k = s.noticeClass k := rfl
@[simp] theorem State.setSweep_snapshotOf (s : State) (p : Fin 4) (x : Sweep) (q : Fin 4) :
    (s.setSweep p x).snapshotOf q = s.snapshotOf q := rfl
@[simp] theorem State.setSweep_record (s : State) (p : Fin 4) (x : Sweep) (n : Nat) :
    (s.setSweep p x).record n = s.record n := rfl
@[simp] theorem State.setSweep_line (s : State) (p : Fin 4) (x : Sweep) (l : Line) : (s.setSweep p x).line l = s.line l := by
  cases l <;> rfl
theorem State.sweep_setSweep (s : State) (p : Fin 4) (x : Sweep) (q : Fin 4) :
    (s.setSweep p x).sweep q = if p = q then x else s.sweep q := by
  simp only [State.setSweep, State.sweep, Fin.getElem_fin, Vector.getElem_set, Fin.ext_iff]

@[simp] theorem State.sweep_setSweep_self (s : State) (p : Fin 4) (x : Sweep) : (s.setSweep p x).sweep p = x := by
  rw [State.sweep_setSweep, if_pos rfl]
theorem State.sweep_setSweep_of_ne (s : State) (p : Fin 4) (x : Sweep) (q : Fin 4) (h : q ≠ p) :
    (s.setSweep p x).sweep q = s.sweep q := by
  rw [State.sweep_setSweep, if_neg (Ne.symm h)]

/-! ## setNoticeClass -/

@[simp] theorem State.setNoticeClass_resetN (s : State) (c : Fin 32) (x : NoticeClass) : (s.setNoticeClass c x).resetN = s.resetN := rfl
@[simp] theorem State.setNoticeClass_straps (s : State) (c : Fin 32) (x : NoticeClass) : (s.setNoticeClass c x).straps = s.straps := rfl
@[simp] theorem State.setNoticeClass_emergN (s : State) (c : Fin 32) (x : NoticeClass) : (s.setNoticeClass c x).emergN = s.emergN := rfl
@[simp] theorem State.setNoticeClass_meters (s : State) (c : Fin 32) (x : NoticeClass) : (s.setNoticeClass c x).meters = s.meters := rfl
@[simp] theorem State.setNoticeClass_lastPolled (s : State) (c : Fin 32) (x : NoticeClass) : (s.setNoticeClass c x).lastPolled = s.lastPolled := rfl
@[simp] theorem State.setNoticeClass_poll (s : State) (c : Fin 32) (x : NoticeClass) : (s.setNoticeClass c x).poll = s.poll := rfl
@[simp] theorem State.setNoticeClass_portals (s : State) (c : Fin 32) (x : NoticeClass) : (s.setNoticeClass c x).portals = s.portals := rfl
@[simp] theorem State.setNoticeClass_plans (s : State) (c : Fin 32) (x : NoticeClass) : (s.setNoticeClass c x).plans = s.plans := rfl
@[simp] theorem State.setNoticeClass_roster (s : State) (c : Fin 32) (x : NoticeClass) : (s.setNoticeClass c x).roster = s.roster := rfl
@[simp] theorem State.setNoticeClass_sweeps (s : State) (c : Fin 32) (x : NoticeClass) : (s.setNoticeClass c x).sweeps = s.sweeps := rfl
@[simp] theorem State.setNoticeClass_lineA (s : State) (c : Fin 32) (x : NoticeClass) : (s.setNoticeClass c x).lineA = s.lineA := rfl
@[simp] theorem State.setNoticeClass_lineB (s : State) (c : Fin 32) (x : NoticeClass) : (s.setNoticeClass c x).lineB = s.lineB := rfl
@[simp] theorem State.setNoticeClass_snapshots (s : State) (c : Fin 32) (x : NoticeClass) : (s.setNoticeClass c x).snapshots = s.snapshots := rfl
@[simp] theorem State.setNoticeClass_port (s : State) (c : Fin 32) (x : NoticeClass) : (s.setNoticeClass c x).port = s.port := rfl
@[simp] theorem State.setNoticeClass_pending (s : State) (c : Fin 32) (x : NoticeClass) : (s.setNoticeClass c x).pending = s.pending := rfl
@[simp] theorem State.setNoticeClass_stack (s : State) (c : Fin 32) (x : NoticeClass) :
    (s.setNoticeClass c x).notices.stack = s.notices.stack := rfl
@[simp] theorem State.setNoticeClass_autoFinish (s : State) (c : Fin 32) (x : NoticeClass) :
    (s.setNoticeClass c x).notices.autoFinish = s.notices.autoFinish := rfl
@[simp] theorem State.setNoticeClass_portal (s : State) (c : Fin 32) (x : NoticeClass) (q : Fin 4) :
    (s.setNoticeClass c x).portal q = s.portal q := rfl
@[simp] theorem State.setNoticeClass_meter (s : State) (c : Fin 32) (x : NoticeClass) (k : Fin 8) :
    (s.setNoticeClass c x).meter k = s.meter k := rfl
@[simp] theorem State.setNoticeClass_plan (s : State) (c : Fin 32) (x : NoticeClass) (q : Fin 4) :
    (s.setNoticeClass c x).plan q = s.plan q := rfl
@[simp] theorem State.setNoticeClass_sweep (s : State) (c : Fin 32) (x : NoticeClass) (q : Fin 4) :
    (s.setNoticeClass c x).sweep q = s.sweep q := rfl
@[simp] theorem State.setNoticeClass_snapshotOf (s : State) (c : Fin 32) (x : NoticeClass) (q : Fin 4) :
    (s.setNoticeClass c x).snapshotOf q = s.snapshotOf q := rfl
@[simp] theorem State.setNoticeClass_record (s : State) (c : Fin 32) (x : NoticeClass) (n : Nat) :
    (s.setNoticeClass c x).record n = s.record n := rfl
@[simp] theorem State.setNoticeClass_line (s : State) (c : Fin 32) (x : NoticeClass) (l : Line) : (s.setNoticeClass c x).line l = s.line l := by
  cases l <;> rfl
theorem State.noticeClass_setNoticeClass (s : State) (c : Fin 32) (x : NoticeClass) (k : Fin 32) :
    (s.setNoticeClass c x).noticeClass k = if c = k then x else s.noticeClass k := by
  simp only [State.setNoticeClass, State.noticeClass, Fin.getElem_fin, Vector.getElem_set, Fin.ext_iff]

@[simp] theorem State.noticeClass_setNoticeClass_self (s : State) (c : Fin 32) (x : NoticeClass) : (s.setNoticeClass c x).noticeClass c = x := by
  rw [State.noticeClass_setNoticeClass, if_pos rfl]
theorem State.noticeClass_setNoticeClass_of_ne (s : State) (c : Fin 32) (x : NoticeClass) (k : Fin 32) (h : k ≠ c) :
    (s.setNoticeClass c x).noticeClass k = s.noticeClass k := by
  rw [State.noticeClass_setNoticeClass, if_neg (Ne.symm h)]

/-! ## setSnapshot -/

@[simp] theorem State.setSnapshot_resetN (s : State) (p : Fin 4) (x : Snapshot) : (s.setSnapshot p x).resetN = s.resetN := rfl
@[simp] theorem State.setSnapshot_straps (s : State) (p : Fin 4) (x : Snapshot) : (s.setSnapshot p x).straps = s.straps := rfl
@[simp] theorem State.setSnapshot_emergN (s : State) (p : Fin 4) (x : Snapshot) : (s.setSnapshot p x).emergN = s.emergN := rfl
@[simp] theorem State.setSnapshot_meters (s : State) (p : Fin 4) (x : Snapshot) : (s.setSnapshot p x).meters = s.meters := rfl
@[simp] theorem State.setSnapshot_lastPolled (s : State) (p : Fin 4) (x : Snapshot) : (s.setSnapshot p x).lastPolled = s.lastPolled := rfl
@[simp] theorem State.setSnapshot_poll (s : State) (p : Fin 4) (x : Snapshot) : (s.setSnapshot p x).poll = s.poll := rfl
@[simp] theorem State.setSnapshot_portals (s : State) (p : Fin 4) (x : Snapshot) : (s.setSnapshot p x).portals = s.portals := rfl
@[simp] theorem State.setSnapshot_plans (s : State) (p : Fin 4) (x : Snapshot) : (s.setSnapshot p x).plans = s.plans := rfl
@[simp] theorem State.setSnapshot_roster (s : State) (p : Fin 4) (x : Snapshot) : (s.setSnapshot p x).roster = s.roster := rfl
@[simp] theorem State.setSnapshot_sweeps (s : State) (p : Fin 4) (x : Snapshot) : (s.setSnapshot p x).sweeps = s.sweeps := rfl
@[simp] theorem State.setSnapshot_lineA (s : State) (p : Fin 4) (x : Snapshot) : (s.setSnapshot p x).lineA = s.lineA := rfl
@[simp] theorem State.setSnapshot_lineB (s : State) (p : Fin 4) (x : Snapshot) : (s.setSnapshot p x).lineB = s.lineB := rfl
@[simp] theorem State.setSnapshot_notices (s : State) (p : Fin 4) (x : Snapshot) : (s.setSnapshot p x).notices = s.notices := rfl
@[simp] theorem State.setSnapshot_port (s : State) (p : Fin 4) (x : Snapshot) : (s.setSnapshot p x).port = s.port := rfl
@[simp] theorem State.setSnapshot_pending (s : State) (p : Fin 4) (x : Snapshot) : (s.setSnapshot p x).pending = s.pending := rfl
@[simp] theorem State.setSnapshot_portal (s : State) (p : Fin 4) (x : Snapshot) (q : Fin 4) :
    (s.setSnapshot p x).portal q = s.portal q := rfl
@[simp] theorem State.setSnapshot_meter (s : State) (p : Fin 4) (x : Snapshot) (k : Fin 8) :
    (s.setSnapshot p x).meter k = s.meter k := rfl
@[simp] theorem State.setSnapshot_plan (s : State) (p : Fin 4) (x : Snapshot) (q : Fin 4) :
    (s.setSnapshot p x).plan q = s.plan q := rfl
@[simp] theorem State.setSnapshot_sweep (s : State) (p : Fin 4) (x : Snapshot) (q : Fin 4) :
    (s.setSnapshot p x).sweep q = s.sweep q := rfl
@[simp] theorem State.setSnapshot_noticeClass (s : State) (p : Fin 4) (x : Snapshot) (k : Fin 32) :
    (s.setSnapshot p x).noticeClass k = s.noticeClass k := rfl
@[simp] theorem State.setSnapshot_record (s : State) (p : Fin 4) (x : Snapshot) (n : Nat) :
    (s.setSnapshot p x).record n = s.record n := rfl
@[simp] theorem State.setSnapshot_line (s : State) (p : Fin 4) (x : Snapshot) (l : Line) : (s.setSnapshot p x).line l = s.line l := by
  cases l <;> rfl
theorem State.snapshotOf_setSnapshot (s : State) (p : Fin 4) (x : Snapshot) (q : Fin 4) :
    (s.setSnapshot p x).snapshotOf q = if p = q then x else s.snapshotOf q := by
  simp only [State.setSnapshot, State.snapshotOf, Fin.getElem_fin, Vector.getElem_set, Fin.ext_iff]

@[simp] theorem State.snapshotOf_setSnapshot_self (s : State) (p : Fin 4) (x : Snapshot) : (s.setSnapshot p x).snapshotOf p = x := by
  rw [State.snapshotOf_setSnapshot, if_pos rfl]
theorem State.snapshotOf_setSnapshot_of_ne (s : State) (p : Fin 4) (x : Snapshot) (q : Fin 4) (h : q ≠ p) :
    (s.setSnapshot p x).snapshotOf q = s.snapshotOf q := by
  rw [State.snapshotOf_setSnapshot, if_neg (Ne.symm h)]

/-! ## setLine and setRecord -/

@[simp] theorem State.setLine_resetN (s : State) (l : Line) (x : LineCtl) : (s.setLine l x).resetN = s.resetN := by
  cases l <;> rfl
@[simp] theorem State.setLine_straps (s : State) (l : Line) (x : LineCtl) : (s.setLine l x).straps = s.straps := by
  cases l <;> rfl
@[simp] theorem State.setLine_emergN (s : State) (l : Line) (x : LineCtl) : (s.setLine l x).emergN = s.emergN := by
  cases l <;> rfl
@[simp] theorem State.setLine_meters (s : State) (l : Line) (x : LineCtl) : (s.setLine l x).meters = s.meters := by
  cases l <;> rfl
@[simp] theorem State.setLine_lastPolled (s : State) (l : Line) (x : LineCtl) : (s.setLine l x).lastPolled = s.lastPolled := by
  cases l <;> rfl
@[simp] theorem State.setLine_poll (s : State) (l : Line) (x : LineCtl) : (s.setLine l x).poll = s.poll := by
  cases l <;> rfl
@[simp] theorem State.setLine_portals (s : State) (l : Line) (x : LineCtl) : (s.setLine l x).portals = s.portals := by
  cases l <;> rfl
@[simp] theorem State.setLine_plans (s : State) (l : Line) (x : LineCtl) : (s.setLine l x).plans = s.plans := by
  cases l <;> rfl
@[simp] theorem State.setLine_roster (s : State) (l : Line) (x : LineCtl) : (s.setLine l x).roster = s.roster := by
  cases l <;> rfl
@[simp] theorem State.setLine_sweeps (s : State) (l : Line) (x : LineCtl) : (s.setLine l x).sweeps = s.sweeps := by
  cases l <;> rfl
@[simp] theorem State.setLine_notices (s : State) (l : Line) (x : LineCtl) : (s.setLine l x).notices = s.notices := by
  cases l <;> rfl
@[simp] theorem State.setLine_snapshots (s : State) (l : Line) (x : LineCtl) : (s.setLine l x).snapshots = s.snapshots := by
  cases l <;> rfl
@[simp] theorem State.setLine_port (s : State) (l : Line) (x : LineCtl) : (s.setLine l x).port = s.port := by
  cases l <;> rfl
@[simp] theorem State.setLine_pending (s : State) (l : Line) (x : LineCtl) : (s.setLine l x).pending = s.pending := by
  cases l <;> rfl
@[simp] theorem State.setLine_portal (s : State) (l : Line) (x : LineCtl) (q : Fin 4) :
    (s.setLine l x).portal q = s.portal q := by
  cases l <;> rfl
@[simp] theorem State.setLine_meter (s : State) (l : Line) (x : LineCtl) (k : Fin 8) :
    (s.setLine l x).meter k = s.meter k := by
  cases l <;> rfl
@[simp] theorem State.setLine_plan (s : State) (l : Line) (x : LineCtl) (q : Fin 4) :
    (s.setLine l x).plan q = s.plan q := by
  cases l <;> rfl
@[simp] theorem State.setLine_sweep (s : State) (l : Line) (x : LineCtl) (q : Fin 4) :
    (s.setLine l x).sweep q = s.sweep q := by
  cases l <;> rfl
@[simp] theorem State.setLine_noticeClass (s : State) (l : Line) (x : LineCtl) (k : Fin 32) :
    (s.setLine l x).noticeClass k = s.noticeClass k := by
  cases l <;> rfl
@[simp] theorem State.setLine_snapshotOf (s : State) (l : Line) (x : LineCtl) (q : Fin 4) :
    (s.setLine l x).snapshotOf q = s.snapshotOf q := by
  cases l <;> rfl
@[simp] theorem State.setLine_record (s : State) (l : Line) (x : LineCtl) (n : Nat) :
    (s.setLine l x).record n = s.record n := by
  cases l <;> rfl
theorem State.line_setLine (s : State) (l k : Line) (x : LineCtl) :
    (s.setLine l x).line k = if l = k then x else s.line k := by
  cases l <;> cases k <;> rfl

@[simp] theorem State.line_setLine_self (s : State) (l : Line) (x : LineCtl) : (s.setLine l x).line l = x := by
  cases l <;> rfl

theorem State.line_setLine_of_ne (s : State) (l k : Line) (x : LineCtl) (h : k ≠ l) :
    (s.setLine l x).line k = s.line k := by
  rw [State.line_setLine, if_neg (Ne.symm h)]

@[simp] theorem State.setRecord_resetN (s : State) (n : Nat) (x : Record) : (s.setRecord n x).resetN = s.resetN := by
  unfold State.setRecord; split <;> rfl
@[simp] theorem State.setRecord_straps (s : State) (n : Nat) (x : Record) : (s.setRecord n x).straps = s.straps := by
  unfold State.setRecord; split <;> rfl
@[simp] theorem State.setRecord_emergN (s : State) (n : Nat) (x : Record) : (s.setRecord n x).emergN = s.emergN := by
  unfold State.setRecord; split <;> rfl
@[simp] theorem State.setRecord_meters (s : State) (n : Nat) (x : Record) : (s.setRecord n x).meters = s.meters := by
  unfold State.setRecord; split <;> rfl
@[simp] theorem State.setRecord_lastPolled (s : State) (n : Nat) (x : Record) : (s.setRecord n x).lastPolled = s.lastPolled := by
  unfold State.setRecord; split <;> rfl
@[simp] theorem State.setRecord_poll (s : State) (n : Nat) (x : Record) : (s.setRecord n x).poll = s.poll := by
  unfold State.setRecord; split <;> rfl
@[simp] theorem State.setRecord_portals (s : State) (n : Nat) (x : Record) : (s.setRecord n x).portals = s.portals := by
  unfold State.setRecord; split <;> rfl
@[simp] theorem State.setRecord_plans (s : State) (n : Nat) (x : Record) : (s.setRecord n x).plans = s.plans := by
  unfold State.setRecord; split <;> rfl
@[simp] theorem State.setRecord_sweeps (s : State) (n : Nat) (x : Record) : (s.setRecord n x).sweeps = s.sweeps := by
  unfold State.setRecord; split <;> rfl
@[simp] theorem State.setRecord_lineA (s : State) (n : Nat) (x : Record) : (s.setRecord n x).lineA = s.lineA := by
  unfold State.setRecord; split <;> rfl
@[simp] theorem State.setRecord_lineB (s : State) (n : Nat) (x : Record) : (s.setRecord n x).lineB = s.lineB := by
  unfold State.setRecord; split <;> rfl
@[simp] theorem State.setRecord_notices (s : State) (n : Nat) (x : Record) : (s.setRecord n x).notices = s.notices := by
  unfold State.setRecord; split <;> rfl
@[simp] theorem State.setRecord_snapshots (s : State) (n : Nat) (x : Record) : (s.setRecord n x).snapshots = s.snapshots := by
  unfold State.setRecord; split <;> rfl
@[simp] theorem State.setRecord_port (s : State) (n : Nat) (x : Record) : (s.setRecord n x).port = s.port := by
  unfold State.setRecord; split <;> rfl
@[simp] theorem State.setRecord_pending (s : State) (n : Nat) (x : Record) : (s.setRecord n x).pending = s.pending := by
  unfold State.setRecord; split <;> rfl
@[simp] theorem State.setRecord_portal (s : State) (n : Nat) (x : Record) (q : Fin 4) :
    (s.setRecord n x).portal q = s.portal q := by
  unfold State.setRecord; split <;> rfl
@[simp] theorem State.setRecord_meter (s : State) (n : Nat) (x : Record) (k : Fin 8) :
    (s.setRecord n x).meter k = s.meter k := by
  unfold State.setRecord; split <;> rfl
@[simp] theorem State.setRecord_plan (s : State) (n : Nat) (x : Record) (q : Fin 4) :
    (s.setRecord n x).plan q = s.plan q := by
  unfold State.setRecord; split <;> rfl
@[simp] theorem State.setRecord_sweep (s : State) (n : Nat) (x : Record) (q : Fin 4) :
    (s.setRecord n x).sweep q = s.sweep q := by
  unfold State.setRecord; split <;> rfl
@[simp] theorem State.setRecord_noticeClass (s : State) (n : Nat) (x : Record) (k : Fin 32) :
    (s.setRecord n x).noticeClass k = s.noticeClass k := by
  unfold State.setRecord; split <;> rfl
@[simp] theorem State.setRecord_snapshotOf (s : State) (n : Nat) (x : Record) (q : Fin 4) :
    (s.setRecord n x).snapshotOf q = s.snapshotOf q := by
  unfold State.setRecord; split <;> rfl
@[simp] theorem State.setRecord_line (s : State) (n : Nat) (x : Record) (l : Line) :
    (s.setRecord n x).line l = s.line l := by
  cases l <;> simp [State.line]

end Sys2Proof.Machine
end

