-- ==== Sys2Proof/Laws/Roster.lean ====
section
/-! SUPPORT. The record roster: reading after a write, the canonical form of log 17, and what a lookup finds. -/

namespace Sys2Proof.Machine

/-! ## The canonical form -/

theorem rosterWfFrom_mono {low low' : Nat} (h : low ≤ low') {t : Roster} (hw : rosterWfFrom low' t = true) :
    rosterWfFrom low t = true := by
  cases t with
  | nil => rfl
  | cons e rest =>
    obtain ⟨k, r⟩ := e
    simp only [rosterWfFrom, Bool.and_eq_true, decide_eq_true_eq] at hw ⊢
    exact ⟨⟨⟨le_trans h hw.1.1.1, hw.1.1.2⟩, hw.1.2⟩, hw.2⟩

theorem rosterWfFrom_cons {low k : Nat} {r : Record} {rest : Roster} :
    rosterWfFrom low ((k, r) :: rest) = true ↔
      low ≤ k ∧ k < 512 ∧ r ≠ Record.vacant false ∧ rosterWfFrom (k + 1) rest = true := by
  simp only [rosterWfFrom, Bool.and_eq_true, decide_eq_true_eq, and_assoc]
  exact Iff.rfl

/-- Every listed slot of a canonical roster lies above the bound and below 512. -/
theorem rosterWfFrom_mem {low : Nat} {t : Roster} (hw : rosterWfFrom low t = true) {e : Nat × Record} (he : e ∈ t) :
    low ≤ e.1 ∧ e.1 < 512 ∧ e.2 ≠ Record.vacant false := by
  induction t generalizing low with
  | nil => simp at he
  | cons f rest ih =>
    obtain ⟨k, r⟩ := f
    obtain ⟨h1, h2, h3, h4⟩ := rosterWfFrom_cons.1 hw
    rcases List.mem_cons.1 he with rfl | he
    · exact ⟨h1, h2, h3⟩
    · obtain ⟨a, b, c⟩ := ih h4 he
      exact ⟨by omega, b, c⟩

theorem rosterGet_of_lt {low n : Nat} {t : Roster} (hw : rosterWfFrom low t = true) (h : n < low) :
    rosterGet t n = Record.vacant false := by
  induction t generalizing low with
  | nil => rfl
  | cons f rest ih =>
    obtain ⟨k, r⟩ := f
    obtain ⟨h1, _, _, h4⟩ := rosterWfFrom_cons.1 hw
    have hk : k ≠ n := by omega
    simp only [rosterGet, if_neg hk]
    exact ih h4 (by omega)

/-- In a canonical roster a listed pair is what its slot reads as. -/
theorem rosterGet_of_mem {low : Nat} {t : Roster} (hw : rosterWfFrom low t = true) {e : Nat × Record} (he : e ∈ t) :
    rosterGet t e.1 = e.2 := by
  induction t generalizing low with
  | nil => simp at he
  | cons f rest ih =>
    obtain ⟨k, r⟩ := f
    obtain ⟨_, _, _, h4⟩ := rosterWfFrom_cons.1 hw
    rcases List.mem_cons.1 he with rfl | he
    · simp [rosterGet]
    · have := (rosterWfFrom_mem h4 he).1
      have hk : k ≠ e.1 := by omega
      simp only [rosterGet, if_neg hk]
      exact ih h4 he

/-- A slot that does not read as the VACANT record with a clear mark is listed. -/
theorem mem_of_rosterGet {t : Roster} {n : Nat} (h : rosterGet t n ≠ Record.vacant false) : (n, rosterGet t n) ∈ t := by
  induction t with
  | nil => exact absurd rfl h
  | cons f rest ih =>
    obtain ⟨k, r⟩ := f
    by_cases hk : k = n
    · subst hk; simp [rosterGet]
    · simp only [rosterGet, if_neg hk] at h ⊢
      exact List.mem_cons_of_mem _ (ih h)

theorem rosterGet_of_ge {low n : Nat} {t : Roster} (hw : rosterWfFrom low t = true) (h : 512 ≤ n) :
    rosterGet t n = Record.vacant false := by
  by_contra hne
  have := rosterWfFrom_mem hw (mem_of_rosterGet hne)
  omega

/-! ## Reading after a write -/

theorem rosterGet_rosterSet {low : Nat} {t : Roster} (hw : rosterWfFrom low t = true) (n m : Nat) (x : Record) :
    rosterGet (rosterSet t n x) m = if n = m then x else rosterGet t m := by
  induction t generalizing low with
  | nil =>
    by_cases hx : x = Record.vacant false <;> by_cases hn : n = m <;> simp [rosterSet, rosterGet, hx, hn]
  | cons f rest ih =>
    obtain ⟨k, r⟩ := f
    obtain ⟨_, _, _, h4⟩ := rosterWfFrom_cons.1 hw
    simp only [rosterSet]
    by_cases h1 : n < k
    · by_cases hx : x = Record.vacant false
      · simp only [if_pos h1, if_pos hx]
        by_cases hn : n = m
        · subst hn
          rw [if_pos rfl, hx]
          exact rosterGet_of_lt (rosterWfFrom_cons.2 ⟨le_refl k, (rosterWfFrom_cons.1 hw).2⟩) h1
        · rw [if_neg hn]
      · simp only [if_pos h1, if_neg hx, rosterGet]
    · by_cases h2 : n = k
      · subst h2
        by_cases hx : x = Record.vacant false
        · simp only [if_neg h1, if_pos hx, if_true, rosterGet]
          by_cases hn : n = m
          · subst hn
            rw [if_pos rfl, hx]
            exact rosterGet_of_lt h4 (by omega)
          · simp only [if_neg hn]
        · simp only [if_neg h1, if_neg hx, if_true, rosterGet]
          by_cases hn : n = m <;> simp [hn]
      · simp only [if_neg h1, if_neg h2, rosterGet]
        rw [ih h4]
        by_cases hk : k = m
        · have : n ≠ m := by omega
          simp [hk, this]
        · simp [hk]

theorem rosterWfFrom_rosterSet {low : Nat} {t : Roster} (hw : rosterWfFrom low t = true) {n : Nat} (hl : low ≤ n)
    (hn : n < 512) (x : Record) : rosterWfFrom low (rosterSet t n x) = true := by
  induction t generalizing low with
  | nil =>
    by_cases hx : x = Record.vacant false
    · simp [rosterSet, rosterWfFrom, hx]
    · simp only [rosterSet, if_neg hx]
      exact rosterWfFrom_cons.2 ⟨hl, hn, hx, rfl⟩
  | cons f rest ih =>
    obtain ⟨k, r⟩ := f
    obtain ⟨h1, h2, h3, h4⟩ := rosterWfFrom_cons.1 hw
    simp only [rosterSet]
    split
    · split
      · exact hw
      · rename_i hx
        exact rosterWfFrom_cons.2 ⟨hl, hn, hx, rosterWfFrom_cons.2 ⟨by omega, h2, h3, h4⟩⟩
    · split
      · subst_vars
        split
        · exact rosterWfFrom_mono (by omega) h4
        · rename_i hx
          exact rosterWfFrom_cons.2 ⟨h1, h2, hx, h4⟩
      · exact rosterWfFrom_cons.2 ⟨h1, h2, h3, ih h4 (by omega)⟩

/-- Two canonical rosters that read the same at every slot are equal. -/
theorem rosterWfFrom_ext {low : Nat} {t u : Roster} (ht : rosterWfFrom low t = true) (hu : rosterWfFrom low u = true)
    (h : ∀ n, rosterGet t n = rosterGet u n) : t = u := by
  induction t generalizing low u with
  | nil =>
    cases u with
    | nil => rfl
    | cons f rest =>
      obtain ⟨k, r⟩ := f
      have := h k
      simp [rosterGet] at this
      exact absurd this.symm (rosterWfFrom_cons.1 hu).2.2.1
  | cons e restT ih =>
    obtain ⟨k, r⟩ := e
    obtain ⟨a1, a2, a3, a4⟩ := rosterWfFrom_cons.1 ht
    cases u with
    | nil =>
      have := h k
      simp [rosterGet] at this
      exact absurd this a3
    | cons f restU =>
      obtain ⟨j, q⟩ := f
      obtain ⟨b1, b2, b3, b4⟩ := rosterWfFrom_cons.1 hu
      have hkj : k = j := by
        rcases Nat.lt_trichotomy k j with hlt | heq | hgt
        · have hk := h k
          have hz : rosterGet ((j, q) :: restU) k = Record.vacant false :=
            rosterGet_of_lt (rosterWfFrom_cons.2 ⟨le_refl j, b2, b3, b4⟩) hlt
          rw [hz] at hk
          simp [rosterGet] at hk
          exact absurd hk a3
        · exact heq
        · have hj := h j
          have hz : rosterGet ((k, r) :: restT) j = Record.vacant false :=
            rosterGet_of_lt (rosterWfFrom_cons.2 ⟨le_refl k, a2, a3, a4⟩) hgt
          rw [hz] at hj
          simp [rosterGet] at hj
          exact absurd hj.symm b3
      subst hkj
      have hr : r = q := by have := h k; simpa [rosterGet] using this
      subst hr
      congr 1
      refine ih a4 b4 fun n => ?_
      by_cases hn : k = n
      · subst hn
        rw [rosterGet_of_lt a4 (by omega), rosterGet_of_lt b4 (by omega)]
      · have := h n
        simpa [rosterGet, hn] using this

/-! ## Over State -/

theorem State.setRecord_of_lt {s : State} {n : Nat} (hn : n < 512) (x : Record) :
    s.setRecord n x = { s with roster := rosterSet s.roster n x } := if_pos hn

theorem State.setRecord_of_ge {s : State} {n : Nat} (hn : ¬ n < 512) (x : Record) : s.setRecord n x = s := if_neg hn

theorem State.record_setRecord {s : State} (hw : rosterWf s.roster = true) {n : Nat} (hn : n < 512) (x : Record) (k : Nat) :
    (s.setRecord n x).record k = if n = k then x else s.record k := by
  rw [State.setRecord_of_lt hn]
  exact rosterGet_rosterSet hw n k x

theorem State.record_setRecord_self {s : State} (hw : rosterWf s.roster = true) {n : Nat} (hn : n < 512) (x : Record) :
    (s.setRecord n x).record n = x := by
  rw [State.record_setRecord hw hn, if_pos rfl]

theorem State.record_setRecord_of_ne {s : State} (hw : rosterWf s.roster = true) (n : Nat) (x : Record) {k : Nat}
    (hk : k ≠ n) : (s.setRecord n x).record k = s.record k := by
  by_cases hn : n < 512
  · rw [State.record_setRecord hw hn, if_neg (Ne.symm hk)]
  · rw [State.setRecord_of_ge hn]

theorem rosterWf_setRecord {s : State} (hw : rosterWf s.roster = true) (n : Nat) (x : Record) :
    rosterWf (s.setRecord n x).roster = true := by
  by_cases hn : n < 512
  · rw [State.setRecord_of_lt hn]
    exact rosterWfFrom_rosterSet hw (Nat.zero_le n) hn x
  · rwa [State.setRecord_of_ge hn]

theorem State.record_of_ge {s : State} (hw : rosterWf s.roster = true) {n : Nat} (hn : 512 ≤ n) :
    s.record n = Record.vacant false := rosterGet_of_ge hw hn

/-- A non-vacant record's slot is one of the 512. -/
theorem State.lt_of_nonVacant {s : State} (hw : rosterWf s.roster = true) {n : Nat}
    (h : (s.record n).nonVacant = true) : n < 512 := by
  by_contra hn
  rw [State.record_of_ge hw (by omega)] at h
  exact absurd h (by decide)

theorem State.mem_roster_of_nonVacant {s : State} {n : Nat} (h : (s.record n).nonVacant = true) :
    (n, s.record n) ∈ s.roster := by
  refine mem_of_rosterGet fun hne => ?_
  have : (s.record n).nonVacant = (Record.vacant false).nonVacant := by rw [State.record, hne]
  rw [this] at h
  exact absurd h (by decide)

theorem State.record_of_mem {s : State} (hw : rosterWf s.roster = true) {e : Nat × Record} (he : e ∈ s.roster) :
    s.record e.1 = e.2 := rosterGet_of_mem hw he

/-- Writing what a slot holds changes nothing. -/
theorem State.setRecord_record {s : State} (hw : rosterWf s.roster = true) (n : Nat) : s.setRecord n (s.record n) = s := by
  by_cases hn : n < 512
  · have h : rosterSet s.roster n (s.record n) = s.roster := by
      refine rosterWfFrom_ext (rosterWfFrom_rosterSet hw (Nat.zero_le n) hn _) hw fun k => ?_
      rw [rosterGet_rosterSet hw]
      split
      · subst_vars; rfl
      · rfl
    rw [State.setRecord_of_lt hn, h]
  · rw [State.setRecord_of_ge hn]

/-! ## Lookups (R63, R77, R78, R118) -/

theorem State.lookup_eq_none {s : State} (hw : rosterWf s.roster = true) {l : Line} {a : Nat} :
    s.lookup l a = none ↔ ∀ n, (s.record n).at l a = false := by
  simp only [State.lookup, Option.map_eq_none_iff, List.find?_eq_none]
  constructor
  · intro h n
    by_contra hc
    have hc : (s.record n).at l a = true := by simpa using hc
    have hv : (s.record n).nonVacant = true := by
      simp only [Record.at, Bool.and_eq_true] at hc; exact hc.1
    exact h _ (State.mem_roster_of_nonVacant hv) hc
  · intro h e he hc
    rw [← State.record_of_mem hw he] at hc
    simp [h e.1] at hc

theorem State.at_of_lookup {s : State} (hw : rosterWf s.roster = true) {l : Line} {a n : Nat}
    (h : s.lookup l a = some n) : (s.record n).at l a = true := by
  simp only [State.lookup, Option.map_eq_some_iff] at h
  obtain ⟨e, he, rfl⟩ := h
  rw [State.record_of_mem hw (List.mem_of_find?_eq_some he)]
  have := List.find?_some (p := fun e : Nat × Record => e.2.at l a) he
  exact this

theorem Record.at_iff {r : Record} {l : Line} {a : Nat} :
    r.at l a = true ↔ r.nonVacant = true ∧ r.place = some ⟨l, a⟩ := by
  simp [Record.at]

theorem State.lookupUid_eq_none {s : State} (hw : rosterWf s.roster = true) {uid : Nat} :
    s.lookupUid uid = none ↔ ∀ n, ¬ ((s.record n).nonVacant = true ∧ (s.record n).uid = uid) := by
  simp only [State.lookupUid, Option.map_eq_none_iff, List.find?_eq_none, Bool.and_eq_true, beq_iff_eq]
  constructor
  · exact fun h n hc => h _ (State.mem_roster_of_nonVacant hc.1) hc
  · intro h e he hc
    rw [← State.record_of_mem hw he] at hc
    exact h e.1 hc

theorem State.uid_of_lookupUid {s : State} (hw : rosterWf s.roster = true) {uid n : Nat}
    (h : s.lookupUid uid = some n) : (s.record n).nonVacant = true ∧ (s.record n).uid = uid := by
  simp only [State.lookupUid, Option.map_eq_some_iff] at h
  obtain ⟨e, he, rfl⟩ := h
  rw [State.record_of_mem hw (List.mem_of_find?_eq_some he)]
  simpa using List.find?_some he

theorem State.uidElsewhere_iff {s : State} (hw : rosterWf s.roster = true) {n uid : Nat} :
    s.uidElsewhere n uid = true ↔ ∃ k, k ≠ n ∧ (s.record k).nonVacant = true ∧ (s.record k).uid = uid := by
  simp only [State.uidElsewhere, List.any_eq_true, Bool.and_eq_true, bne_iff_ne, beq_iff_eq]
  constructor
  · rintro ⟨e, he, ⟨h1, h2⟩, h3⟩
    refine ⟨e.1, h1, ?_⟩
    rw [State.record_of_mem hw he]
    exact ⟨h2, h3⟩
  · rintro ⟨k, h1, h2, h3⟩
    exact ⟨_, State.mem_roster_of_nonVacant h2, ⟨h1, h2⟩, h3⟩

end Sys2Proof.Machine
end

