-- ==== Sys2Proof/Laws/Frames.lean ====
section
/-! SUPPORT. The frames of Safety.lean as relations: what each leaves alone, that each is reflexive and transitive, and
the writes that stay inside it. -/

namespace Sys2Proof.Machine

/-! ## OnlySweeps -/

theorem OnlySweeps.refl (s : State) : OnlySweeps s s :=
  ⟨s.portals, s.sweeps, s.notices.classes, rfl, fun _ => rfl, fun _ => ⟨rfl, fun _ => rfl⟩⟩

theorem OnlySweeps.portal {s t : State} (h : OnlySweeps s t) (p : Fin 4) :
    t.portal p = { s.portal p with refreshTimer := (t.portal p).refreshTimer } := by
  obtain ⟨ps, ws, cs, rfl, hp, -⟩ := h
  exact hp p

theorem OnlySweeps.noticeClass {s t : State} (h : OnlySweeps s t) (c : Fin 32) :
    t.noticeClass c = { s.noticeClass c with pending := (t.noticeClass c).pending } := by
  obtain ⟨ps, ws, cs, rfl, -, hc⟩ := h
  exact (hc c).1

theorem OnlySweeps.noticeClass_eq {s t : State} (h : OnlySweeps s t) {c : Fin 32} (hc : ∀ p, c ≠ sweepDoneClass p) :
    t.noticeClass c = s.noticeClass c := by
  obtain ⟨ps, ws, cs, rfl, -, h⟩ := h
  exact (h c).2 hc

theorem OnlySweeps.trans {s t u : State} (h : OnlySweeps s t) (k : OnlySweeps t u) : OnlySweeps s u := by
  have hp := h.portal
  have hc := h.noticeClass
  have he := fun c => @OnlySweeps.noticeClass_eq _ _ h c
  obtain ⟨ps, ws, cs, rfl, -, -⟩ := h
  obtain ⟨ps', ws', cs', rfl, hp', hc'⟩ := k
  refine ⟨ps', ws', cs', rfl, fun p => ?_, fun c => ⟨?_, fun hne => ?_⟩⟩
  · rw [hp' p, hp p]
  · rw [(hc' c).1, hc c]
  · rw [(hc' c).2 hne, he c hne]

theorem OnlySweeps.resetN {s t : State} (h : OnlySweeps s t) : t.resetN = s.resetN := by
  obtain ⟨_, _, _, rfl, -, -⟩ := h; rfl
theorem OnlySweeps.straps {s t : State} (h : OnlySweeps s t) : t.straps = s.straps := by
  obtain ⟨_, _, _, rfl, -, -⟩ := h; rfl
theorem OnlySweeps.emergN {s t : State} (h : OnlySweeps s t) : t.emergN = s.emergN := by
  obtain ⟨_, _, _, rfl, -, -⟩ := h; rfl
theorem OnlySweeps.meters {s t : State} (h : OnlySweeps s t) : t.meters = s.meters := by
  obtain ⟨_, _, _, rfl, -, -⟩ := h; rfl
theorem OnlySweeps.plans {s t : State} (h : OnlySweeps s t) : t.plans = s.plans := by
  obtain ⟨_, _, _, rfl, -, -⟩ := h; rfl
theorem OnlySweeps.roster {s t : State} (h : OnlySweeps s t) : t.roster = s.roster := by
  obtain ⟨_, _, _, rfl, -, -⟩ := h; rfl
theorem OnlySweeps.lineA {s t : State} (h : OnlySweeps s t) : t.lineA = s.lineA := by
  obtain ⟨_, _, _, rfl, -, -⟩ := h; rfl
theorem OnlySweeps.lineB {s t : State} (h : OnlySweeps s t) : t.lineB = s.lineB := by
  obtain ⟨_, _, _, rfl, -, -⟩ := h; rfl
theorem OnlySweeps.stack {s t : State} (h : OnlySweeps s t) : t.notices.stack = s.notices.stack := by
  obtain ⟨_, _, _, rfl, -, -⟩ := h; rfl
theorem OnlySweeps.snapshots {s t : State} (h : OnlySweeps s t) : t.snapshots = s.snapshots := by
  obtain ⟨_, _, _, rfl, -, -⟩ := h; rfl
theorem OnlySweeps.port {s t : State} (h : OnlySweeps s t) : t.port = s.port := by
  obtain ⟨_, _, _, rfl, -, -⟩ := h; rfl
theorem OnlySweeps.pending {s t : State} (h : OnlySweeps s t) : t.pending = s.pending := by
  obtain ⟨_, _, _, rfl, -, -⟩ := h; rfl

theorem OnlySweeps.line {s t : State} (h : OnlySweeps s t) (l : Line) : t.line l = s.line l := by
  cases l
  · exact h.lineA
  · exact h.lineB

theorem OnlySweeps.record {s t : State} (h : OnlySweeps s t) (n : Nat) : t.record n = s.record n := by
  rw [State.record, h.roster]; rfl

theorem OnlySweeps.inFootprint {s t : State} (h : OnlySweeps s t) (p : Fin 4) (n : Nat) :
    inFootprint t p n = inFootprint s p n := by
  unfold Sys2Proof.Machine.inFootprint State.plan; rw [h.plans]

theorem OnlySweeps.mode {s t : State} (h : OnlySweeps s t) (p : Fin 4) : (t.portal p).mode = (s.portal p).mode := by
  rw [h.portal p]

theorem OnlySweeps.intro {s t : State}
    (h : t = { s with portals := t.portals, sweeps := t.sweeps, notices := { s.notices with classes := t.notices.classes } })
    (hp : ∀ p, t.portal p = { s.portal p with refreshTimer := (t.portal p).refreshTimer })
    (hc : ∀ c, t.noticeClass c = { s.noticeClass c with pending := (t.noticeClass c).pending }
      ∧ ((∀ p, c ≠ sweepDoneClass p) → t.noticeClass c = s.noticeClass c)) : OnlySweeps s t :=
  ⟨_, _, _, h, hp, hc⟩

theorem OnlySweeps.of_setSweep (s : State) (p : Fin 4) (x : Sweep) : OnlySweeps s (s.setSweep p x) :=
  .intro rfl (fun _ => rfl) fun _ => ⟨rfl, fun _ => rfl⟩

theorem OnlySweeps.of_refresh (s : State) (p : Fin 4) (r : Option Nat) :
    OnlySweeps s (s.setPortal p { s.portal p with refreshTimer := r }) := by
  refine .intro rfl (fun q => ?_) fun _ => ⟨rfl, fun _ => rfl⟩
  by_cases h : q = p
  · subst h; rw [State.portal_setPortal_self]
  · rw [State.portal_setPortal_of_ne _ _ _ _ h]

theorem OnlySweeps.of_sweepDone (s : State) (p : Fin 4) : OnlySweeps s (handEvent (sweepDoneClass p) s) := by
  refine .intro rfl (fun _ => rfl) fun c => ?_
  by_cases h : c = sweepDoneClass p
  · subst h
    simp only [handEvent, State.noticeClass_setNoticeClass_self, true_and]
    exact fun hne => absurd rfl (hne p)
  · simp only [handEvent, State.noticeClass_setNoticeClass_of_ne _ _ _ _ h, true_and]
    exact fun _ => trivial

/-! ## The notice unit (R150 to R153) -/

theorem NoticesKept.refl (touched : Fin 32 → Prop) (s : State) : NoticesKept touched s s :=
  ⟨rfl, fun _ => ⟨rfl, rfl, fun _ => ⟨rfl, id⟩, fun _ => rfl⟩⟩

theorem NoticesKept.mono {few more : Fin 32 → Prop} {s t : State} (h : NoticesKept few s t) (hm : ∀ c, few c → more c) :
    NoticesKept more s t :=
  ⟨h.1, fun c => ⟨(h.2 c).1, (h.2 c).2.1, (h.2 c).2.2.1, fun hc => (h.2 c).2.2.2 fun hf => hc (hm c hf)⟩⟩

theorem NoticesKept.trans {touched : Fin 32 → Prop} {s t u : State} (h : NoticesKept touched s t)
    (h' : NoticesKept touched t u) : NoticesKept touched s u := by
  refine ⟨by rw [h'.1, h.1], fun c => ?_⟩
  obtain ⟨hp, hm, he, hk⟩ := h.2 c
  obtain ⟨hp', hm', he', hk'⟩ := h'.2 c
  exact ⟨hp'.trans hp, hm'.trans hm, fun hc => ⟨(he' hc).1.trans (he hc).1, fun hs => (he' hc).2 ((he hc).2 hs)⟩,
    fun hc => (hk' hc).trans (hk hc)⟩

end Sys2Proof.Machine
end

