-- ==== Sys2Proof/Laws/Sweeps.lean ====
section
/-! SUPPORT. What the operations of the sweep unit can do: each stays inside OnlySweeps, and a sweep that is owed or
running stays so until it ends. -/

namespace Sys2Proof.Machine

/-- An operation repeated over a list keeps what it keeps each time. -/
theorem forEach_induction {α : Type} {P : State → Prop} {f : α → State → State} (xs : List α) {s : State} (h : P s)
    (step : ∀ x ∈ xs, ∀ t, P t → P (f x t)) : P (forEach xs f s) := by
  induction xs generalizing s with
  | nil => exact h
  | cons x xs ih =>
    exact ih (step x (List.mem_cons_self ..) s h) fun y hy => step y (List.mem_cons_of_mem _ hy)

@[simp] theorem forEach_nil {α : Type} (f : α → State → State) (s : State) : forEach [] f s = s := rfl

@[simp] theorem forEach_cons {α : Type} (x : α) (xs : List α) (f : α → State → State) (s : State) :
    forEach (x :: xs) f s = forEach xs f (f x s) := rfl

/-- An operation that stays inside OnlySweeps does so over a list. -/
theorem OnlySweeps.forEach {α : Type} (xs : List α) {f : α → State → State} (h : ∀ x t, OnlySweeps t (f x t)) (s : State) :
    OnlySweeps s (forEach xs f s) :=
  forEach_induction (P := OnlySweeps s) xs (.refl s) fun x _ t ht => ht.trans (h x t)

theorem mem_allPortals (p : Fin 4) : p ∈ allPortals := by revert p; decide

/-! ## OnlySweeps of every operation -/

theorem onlySweeps_settleCursors (p : Fin 4) (s : State) : OnlySweeps s (settleCursors p s) := by
  unfold settleCursors
  split
  · exact .refl s
  · exact .of_setSweep ..

theorem onlySweeps_beginSweep (cls : SweepClass) (p : Fin 4) (s : State) : OnlySweeps s (beginSweep cls p s) :=
  ((OnlySweeps.of_refresh s p _).trans (.of_setSweep ..)).trans (onlySweeps_settleCursors p _)

theorem onlySweeps_closeSweep (p : Fin 4) (s : State) : OnlySweeps s (closeSweep p s) :=
  (OnlySweeps.of_setSweep ..).trans (.of_sweepDone ..)

theorem onlySweeps_closeIfPassed (p : Fin 4) (s : State) : OnlySweeps s (closeIfPassed p s) := by
  unfold closeIfPassed
  split
  · exact onlySweeps_closeSweep p s
  · exact .refl s

theorem onlySweeps_startOwed (p : Fin 4) (s : State) : OnlySweeps s (startOwed p s) := by
  unfold startOwed
  split
  · dsimp only
    split
    · exact .of_setSweep ..
    · exact ((OnlySweeps.of_setSweep ..).trans (onlySweeps_beginSweep ..)).trans (onlySweeps_closeIfPassed ..)
  · exact .refl s

theorem onlySweeps_endIfPassed (p : Fin 4) (s : State) : OnlySweeps s (endIfPassed p s) := by
  unfold endIfPassed
  split
  · exact (onlySweeps_closeSweep p s).trans (onlySweeps_startOwed ..)
  · exact .refl s

theorem onlySweeps_startSweep (cls : SweepClass) (p : Fin 4) (s : State) : OnlySweeps s (startSweep cls p s) :=
  (onlySweeps_beginSweep ..).trans (onlySweeps_endIfPassed ..)

theorem onlySweeps_restartSweep (p : Fin 4) (s : State) : OnlySweeps s (restartSweep p s) :=
  ((OnlySweeps.of_setSweep ..).trans (onlySweeps_beginSweep ..)).trans (onlySweeps_endIfPassed ..)

theorem onlySweeps_requestSweep (p : Fin 4) (s : State) : OnlySweeps s (requestSweep p s) := by
  unfold requestSweep
  split
  · exact .refl s
  · split
    · exact onlySweeps_startSweep ..
    · exact .of_setSweep ..

theorem onlySweeps_requestEmergencySweep (p : Fin 4) (s : State) : OnlySweeps s (requestEmergencySweep p s) := by
  unfold requestEmergencySweep
  split
  · exact onlySweeps_startSweep ..
  · exact onlySweeps_restartSweep ..

theorem onlySweeps_requestForSlot (n : Nat) (s : State) : OnlySweeps s (requestForSlot n s) := by
  unfold requestForSlot
  split
  · exact .refl s
  · exact onlySweeps_requestSweep ..

theorem onlySweeps_settleSweeps (s : State) : OnlySweeps s (settleSweeps s) :=
  .forEach _ (fun p t => (onlySweeps_settleCursors p t).trans (onlySweeps_endIfPassed p _)) s

theorem onlySweeps_cursorCompleted (p : Fin 4) (l : Line) (s : State) : OnlySweeps s (cursorCompleted p l s) := by
  unfold cursorCompleted
  split
  · exact .refl s
  · dsimp only
    split
    · exact .of_setSweep ..
    · exact .of_setSweep ..
    · exact .refl s
    · exact .refl s

theorem onlySweeps_abandonSweep (p : Fin 4) (s : State) : OnlySweeps s (abandonSweep p s) := by
  unfold abandonSweep
  split
  · exact .refl s
  · exact .of_setSweep ..

/-! ## Other portals are left alone -/

/-- Nothing of a portal's sweep or controller differs. -/
def SweepKept (k : Fin 4) (s t : State) : Prop :=
  t.sweep k = s.sweep k ∧ t.portal k = s.portal k ∧ t.noticeClass (sweepDoneClass k) = s.noticeClass (sweepDoneClass k)

theorem SweepKept.refl (k : Fin 4) (s : State) : SweepKept k s s := ⟨rfl, rfl, rfl⟩

theorem SweepKept.trans {k : Fin 4} {s t u : State} (h : SweepKept k s t) (h' : SweepKept k t u) : SweepKept k s u :=
  ⟨h'.1.trans h.1, h'.2.1.trans h.2.1, h'.2.2.trans h.2.2⟩

theorem sweepDoneClass_injective {p k : Fin 4} (h : sweepDoneClass p = sweepDoneClass k) : p = k := by
  revert p k; decide

theorem SweepKept.of_setSweep {k p : Fin 4} (h : k ≠ p) (s : State) (x : Sweep) : SweepKept k s (s.setSweep p x) :=
  ⟨State.sweep_setSweep_of_ne _ _ _ _ h, rfl, rfl⟩

theorem SweepKept.of_setPortal {k p : Fin 4} (h : k ≠ p) (s : State) (x : Portal) : SweepKept k s (s.setPortal p x) :=
  ⟨rfl, State.portal_setPortal_of_ne _ _ _ _ h, rfl⟩

theorem SweepKept.of_sweepDone {k p : Fin 4} (h : k ≠ p) (s : State) : SweepKept k s (handEvent (sweepDoneClass p) s) :=
  ⟨rfl, rfl, State.noticeClass_setNoticeClass_of_ne _ _ _ _ fun e => h (sweepDoneClass_injective e)⟩

theorem sweepKept_settleCursors {k p : Fin 4} (h : k ≠ p) (s : State) : SweepKept k s (settleCursors p s) := by
  unfold settleCursors
  split
  · exact .refl ..
  · exact .of_setSweep h ..

theorem sweepKept_beginSweep {k p : Fin 4} (h : k ≠ p) (cls : SweepClass) (s : State) :
    SweepKept k s (beginSweep cls p s) :=
  ((SweepKept.of_setPortal h s _).trans (.of_setSweep h ..)).trans (sweepKept_settleCursors h _)

theorem sweepKept_closeSweep {k p : Fin 4} (h : k ≠ p) (s : State) : SweepKept k s (closeSweep p s) :=
  (SweepKept.of_setSweep h ..).trans (.of_sweepDone h ..)

theorem sweepKept_startOwed {k p : Fin 4} (h : k ≠ p) (s : State) : SweepKept k s (startOwed p s) := by
  unfold startOwed
  split
  · dsimp only
    split
    · exact .of_setSweep h ..
    · have hc : ∀ u, SweepKept k u (closeIfPassed p u) := fun u => by
        unfold closeIfPassed
        split
        · exact sweepKept_closeSweep h u
        · exact .refl ..
      exact ((SweepKept.of_setSweep h ..).trans (sweepKept_beginSweep h ..)).trans (hc _)
  · exact .refl ..

theorem sweepKept_endIfPassed {k p : Fin 4} (h : k ≠ p) (s : State) : SweepKept k s (endIfPassed p s) := by
  unfold endIfPassed
  split
  · exact (sweepKept_closeSweep h s).trans (sweepKept_startOwed h _)
  · exact .refl ..

theorem sweepKept_requestSweep {k p : Fin 4} (h : k ≠ p) (s : State) : SweepKept k s (requestSweep p s) := by
  unfold requestSweep
  split
  · exact .refl ..
  · split
    · exact (sweepKept_beginSweep h ..).trans (sweepKept_endIfPassed h _)
    · exact .of_setSweep h ..

theorem sweepKept_requestEmergencySweep {k p : Fin 4} (h : k ≠ p) (s : State) :
    SweepKept k s (requestEmergencySweep p s) := by
  unfold requestEmergencySweep
  split
  · exact (sweepKept_beginSweep h ..).trans (sweepKept_endIfPassed h _)
  · exact ((SweepKept.of_setSweep h ..).trans (sweepKept_beginSweep h ..)).trans (sweepKept_endIfPassed h _)

/-! ## A request is not lost (R98, R106) -/

/-- What is owed, running or done of a portal's sweep is still so, or the sweep has ended with SWEEP_DONE. -/
def SweepPending (p : Fin 4) (t u : State) : Prop :=
  ((t.sweep p).owed = true → (u.sweep p).owed = true ∨ (u.noticeClass (sweepDoneClass p)).pending = true)
    ∧ ((t.noticeClass (sweepDoneClass p)).pending = true → (u.noticeClass (sweepDoneClass p)).pending = true)
    ∧ ((t.sweep p).running ≠ none →
      (u.sweep p).running ≠ none ∨ (u.noticeClass (sweepDoneClass p)).pending = true)

theorem SweepPending.refl (p : Fin 4) (t : State) : SweepPending p t t := ⟨.inl, id, .inl⟩

theorem SweepPending.trans {p : Fin 4} {t u v : State} (h : SweepPending p t u) (k : SweepPending p u v) :
    SweepPending p t v :=
  ⟨fun a => (h.1 a).elim k.1 fun b => .inr (k.2.1 b), fun a => k.2.1 (h.2.1 a),
    fun a => (h.2.2 a).elim k.2.2 fun b => .inr (k.2.1 b)⟩

theorem SweepPending.of_kept {p : Fin 4} {t u : State} (h : SweepKept p t u) : SweepPending p t u := by
  unfold SweepPending
  rw [h.1, h.2.2]
  exact ⟨.inl, id, .inl⟩

theorem sweepDone_pending_handEvent (p : Fin 4) (s : State) :
    ((handEvent (sweepDoneClass p) s).noticeClass (sweepDoneClass p)).pending = true := by
  simp [handEvent]

theorem closeSweep_pending (p : Fin 4) (s : State) :
    ((closeSweep p s).noticeClass (sweepDoneClass p)).pending = true := sweepDone_pending_handEvent ..

theorem settleCursors_running (p : Fin 4) (s : State) :
    ((settleCursors p s).sweep p).running ≠ none ↔ (s.sweep p).running ≠ none := by
  unfold settleCursors
  split
  · rename_i h; simp
  · rename_i h; simp [h]

theorem settleCursors_owed (p : Fin 4) (s : State) : ((settleCursors p s).sweep p).owed = (s.sweep p).owed := by
  unfold settleCursors
  split <;> simp

theorem settleCursors_done (p : Fin 4) (s : State) : ((settleCursors p s).sweep p).done = (s.sweep p).done := by
  unfold settleCursors
  split <;> simp

@[simp] theorem settleCursors_noticeClass (p : Fin 4) (s : State) (c : Fin 32) :
    (settleCursors p s).noticeClass c = s.noticeClass c := by
  unfold settleCursors
  split <;> simp

@[simp] theorem settleCursors_portal (p q : Fin 4) (s : State) : (settleCursors p s).portal q = s.portal q := by
  unfold settleCursors
  split <;> simp

theorem sweepPending_settleCursors (p : Fin 4) (s : State) : SweepPending p s (settleCursors p s) := by
  refine ⟨fun h => .inl ?_, fun h => ?_, fun h => .inl ((settleCursors_running p s).2 h)⟩
  · rw [settleCursors_owed]; exact h
  · rw [settleCursors_noticeClass]; exact h

theorem beginSweep_running (cls : SweepClass) (p : Fin 4) (s : State) : ((beginSweep cls p s).sweep p).running ≠ none := by
  unfold beginSweep
  rw [settleCursors_running]
  simp

theorem beginSweep_owed (cls : SweepClass) (p : Fin 4) (s : State) :
    ((beginSweep cls p s).sweep p).owed = (s.sweep p).owed := by
  unfold beginSweep
  rw [settleCursors_owed]
  simp

@[simp] theorem beginSweep_noticeClass (cls : SweepClass) (p : Fin 4) (s : State) (c : Fin 32) :
    (beginSweep cls p s).noticeClass c = s.noticeClass c := by
  simp [beginSweep]

theorem beginSweep_refreshTimer (cls : SweepClass) (p : Fin 4) (s : State) :
    ((beginSweep cls p s).portal p).refreshTimer = some (s.portal p).ramp.refresh := by
  simp [beginSweep]

/-- SWEEP_DONE stays pending through everything that stays inside OnlySweeps by events alone. -/
theorem startOwed_pending {p q : Fin 4} {s : State} (h : (s.noticeClass (sweepDoneClass q)).pending = true) :
    ((startOwed p s).noticeClass (sweepDoneClass q)).pending = true := by
  unfold startOwed
  split
  · dsimp only
    split
    · simpa using h
    · unfold closeIfPassed
      split
      · by_cases hq : q = p
        · subst hq; exact closeSweep_pending ..
        · rw [(sweepKept_closeSweep hq _).2.2]; simpa using h
      · simpa using h
  · exact h

theorem sweepPending_endIfPassed (p : Fin 4) (s : State) : SweepPending p s (endIfPassed p s) := by
  unfold endIfPassed
  split
  · have := startOwed_pending (p := p) (closeSweep_pending p s)
    exact ⟨fun _ => .inr this, fun _ => this, fun _ => .inr this⟩
  · exact .refl ..

theorem sweepPending_requestSweep (p : Fin 4) (s : State) : SweepPending p s (requestSweep p s) := by
  unfold requestSweep
  split
  · exact .refl ..
  · split
    · refine SweepPending.trans ⟨fun h => .inl ?_, fun h => ?_, fun _ => .inl (beginSweep_running _ _ _)⟩
        (sweepPending_endIfPassed p _)
      · rw [beginSweep_owed]; exact h
      · simpa using h
    · rename_i h
      exact ⟨fun _ => .inl (by simp), fun h => by simpa using h, fun _ => .inl (by simp [h])⟩

/-- A portal's requests and ends keep every portal's sweep pending. -/
theorem SweepPending.of_op {f : Fin 4 → State → State} (own : ∀ p s, SweepPending p s (f p s))
    (other : ∀ k p s, k ≠ p → SweepKept k s (f p s)) (k p : Fin 4) (s : State) : SweepPending k s (f p s) := by
  by_cases h : k = p
  · subst h; exact own k s
  · exact .of_kept (other k p s h)

theorem sweepPending_settleSweeps (p : Fin 4) (s : State) : SweepPending p s (settleSweeps s) :=
  forEach_induction (P := SweepPending p s) _ (.refl p s) fun q _ t ht =>
    ht.trans (((SweepPending.of_op sweepPending_settleCursors (fun _ _ s h => sweepKept_settleCursors h s)) p q t).trans
      ((SweepPending.of_op sweepPending_endIfPassed (fun _ _ s h => sweepKept_endIfPassed h s)) p q _))

theorem sweepPending_requestForSlot (p : Fin 4) (n : Nat) (s : State) : SweepPending p s (requestForSlot n s) := by
  unfold requestForSlot
  split
  · exact .refl ..
  · exact SweepPending.of_op sweepPending_requestSweep (fun _ _ s h => sweepKept_requestSweep h s) p _ s

end Sys2Proof.Machine
end

