-- ==== Sys2Proof/Laws/Port.lean ====
section
/-! SUPPORT. Taking a command and letting an event happen: what each answers while RESET_N is low, while READY is low, and
while the port listens. -/

namespace Sys2Proof.Machine

theorem transfer_of_low {s : State} (h : s.resetN = false) (n : Nat) (f : State → State) : transfer n f s = s := by
  simp [transfer, powered, h]

/-- R162: a transfer that was in progress at the release of RESET_N is ignored whole, whatever it would do. -/
theorem transfer_of_ignoring {s : State} (hr : s.resetN = true) (h : s.port.ignoring = true) (n : Nat) (f : State → State) :
    transfer n f s = { s with port := { s.port with ignoring := false, miso := List.replicate n 0 } } := by
  simp [transfer, powered, hr, h, ignoreTransfer, zeros]

theorem transfer_of_not_ignoring {s : State} (hr : s.resetN = true) (h : s.port.ignoring = false) (n : Nat)
    (f : State → State) : transfer n f s = f s := by
  simp [transfer, powered, hr, h]

theorem takeCommand_of_low {s : State} (h : s.resetN = false) (n : Nat) (work : State → Answered) :
    takeCommand n work s = .next s := by
  simp [takeCommand, takeTransfer, transfer_of_low h]

theorem takeCommand_of_ignoring {s : State} (hr : s.resetN = true) (h : s.port.ignoring = true) (n : Nat)
    (work : State → Answered) :
    takeCommand n work s
      = .next { s with port := { s.port with ignoring := false, miso := List.replicate (n + 4) 0 } } := by
  simp [takeCommand, takeTransfer, transfer_of_ignoring hr h, transferLength]

theorem takeCommand_of_busy {s : State} (hr : s.resetN = true) (hi : s.port.ignoring = false) (h : s.port.ready = false)
    (n : Nat) (work : State → Answered) :
    takeCommand n work s = .next { s with port := { s.port with miso := List.replicate (n + 4) 0 } } := by
  simp [takeCommand, takeTransfer, transfer_of_not_ignoring hr hi, h, discard, zeros, transferLength]

theorem takeCommand_of_listening {s : State} (h : s.listening) (n : Nat) (work : State → Answered) :
    takeCommand n work s = .next { (work s).state with
      port := { ready := false, held := none, preparing := some (work s).reply, ignoring := false,
                miso := List.replicate (n + 4) 0 } } := by
  simp [takeCommand, takeTransfer, transfer_of_not_ignoring h.1 h.2.2, h.2.1, prepare, zeros, transferLength]

theorem event_of_low {s : State} (h : s.resetN = false) (f : State → State) : event f s = .next s := by
  simp [event, powered, h]

theorem event_of_high {s : State} (h : s.resetN = true) (f : State → State) : event f s = .next (f s) := by
  simp [event, powered, h]

/-- A command whose own rule gives an answer and a state with the port as it was answers so. -/
theorem Answers.of_work {c : Instr} {s : State} {n : Nat} {work : State → Answered} (hc : exec c s = takeCommand n work s)
    (hs : s.listening) {code : Answer} {payload : List Byte} {t : State}
    (hw : work s = { reply := { answer := code, payload := payload }, state := t }) (hp : t.port = s.port) :
    Answers c s code payload t := by
  refine ⟨_, hc.trans (takeCommand_of_listening hs n work), rfl, rfl, ?_, ?_⟩
  · rw [hw]
  · rw [hw, ← hp]

theorem Refuses.of_work {c : Instr} {s : State} {n : Nat} {work : State → Answered} (hc : exec c s = takeCommand n work s)
    (hs : s.listening) {code : Answer} (hw : work s = refuse code s) : Refuses c s code :=
  Answers.of_work hc hs hw rfl

/-- The checks of a table, one by one. -/
theorem Checked.cons {c : Instr} {s : State} {bad : Prop} {code : Answer} {rest : List (Prop × Answer)} {passed : Prop}
    (h : bad → Refuses c s code) (k : ¬ bad → Checked c s rest passed) : Checked c s ((bad, code) :: rest) passed :=
  ⟨h, k⟩

theorem Checked.nil {c : Instr} {s : State} {passed : Prop} (h : passed) : Checked c s [] passed := h

/-- The checks of a command whose own rule refuses at each and else does what it does. -/
theorem Checked.append {c : Instr} {s : State} {xs ys : List (Prop × Answer)} {passed : Prop} :
    Checked c s (xs ++ ys) passed ↔ Checked c s xs (Checked c s ys passed) := by
  induction xs with
  | nil => exact Iff.rfl
  | cons x xs ih =>
    obtain ⟨b, a⟩ := x
    exact and_congr_right fun _ => imp_congr_right fun _ => ih

theorem clamp_eq_within {low high : Nat} (h : low ≤ high) (n : Nat) : clamp low high n = within low high n := by
  unfold clamp within
  split
  · omega
  · split <;> omega

theorem outside_eq {low high n : Nat} : outside low high n = true ↔ n < low ∨ high < n := by
  simp [outside]

/-- 00_scope.md section 7: the model's division rounds to the nearest whole number, halves upward. -/
theorem roundDiv_rounds {a b : Nat} (h : 0 < b) : Rounds a b (roundDiv a b) := by
  unfold Rounds roundDiv
  have h2 : 0 < 2 * b := by omega
  constructor
  · exact Nat.mul_div_le _ _
  · have := Nat.lt_mul_div_succ (2 * a + b) h2
    simpa using this

theorem Rounds.unique {a b q r : Nat} (h : Rounds a b q) (k : Rounds a b r) : q = r := by
  unfold Rounds at h k
  have h1 : 2 * b * q < 2 * b * (r + 1) := lt_of_le_of_lt h.1 k.2
  have h2 : 2 * b * r < 2 * b * (q + 1) := lt_of_le_of_lt k.1 h.2
  have := Nat.lt_of_mul_lt_mul_left h1
  have := Nat.lt_of_mul_lt_mul_left h2
  omega

theorem rounds_iff {a b q : Nat} (h : 0 < b) : Rounds a b q ↔ q = roundDiv a b :=
  ⟨fun k => k.unique (roundDiv_rounds h), fun k => k ▸ roundDiv_rounds h⟩

end Sys2Proof.Machine
end

