-- ==== Sys2Proof/Laws/Photometry.lean ====
section
/-! SUPPORT. What the evaluations of photometry and of STAGE_SHORT can do. -/

namespace Sys2Proof.Machine

/-! ## Notices handed over -/

theorem handTrue_cases (c : Fin 32) (s : State) :
    handTrue c s = s.setNoticeClass c { s.noticeClass c with
      holds := true, pending := (s.noticeClass c).pending || !(s.noticeClass c).holds } := by
  unfold handTrue
  split
  · rename_i h
    have hx : { s.noticeClass c with holds := true, pending := (s.noticeClass c).pending || !(s.noticeClass c).holds }
        = s.noticeClass c := by
      rw [h, Bool.not_true, Bool.or_false, ← h]
    rw [hx]
    have : s.notices.classes.set c (s.noticeClass c) = s.notices.classes := by
      ext i hi
      simp only [Vector.getElem_set]
      split
      · subst_vars; rfl
      · rfl
    simp only [State.setNoticeClass, this]
  · rename_i h
    have h : (s.noticeClass c).holds = false := by simpa using h
    rw [h]; simp

/-! ## OnlyStageShort and OnlyPhotometry -/

theorem OnlyPhotometry.refl (s : State) : OnlyPhotometry s s :=
  ⟨s.portals, s.notices.classes, rfl, fun _ => rfl, fun _ => ⟨rfl, fun _ => rfl⟩⟩

theorem OnlyPhotometry.intro {s t : State}
    (h : t = { s with portals := t.portals, notices := { s.notices with classes := t.notices.classes } })
    (hp : ∀ p, t.portal p = { s.portal p with
      condition := (t.portal p).condition, lf := (t.portal p).lf, stageShort := (t.portal p).stageShort })
    (hc : ∀ c, t.noticeClass c = { s.noticeClass c with
        pending := (t.noticeClass c).pending, holds := (t.noticeClass c).holds }
      ∧ ((∀ p, c ≠ photometryClass p ∧ c ≠ stageShortClass p) → t.noticeClass c = s.noticeClass c)) :
    OnlyPhotometry s t :=
  ⟨_, _, h, hp, hc⟩

theorem OnlyPhotometry.portal {s t : State} (h : OnlyPhotometry s t) (p : Fin 4) :
    t.portal p = { s.portal p with
      condition := (t.portal p).condition, lf := (t.portal p).lf, stageShort := (t.portal p).stageShort } := by
  obtain ⟨ps, cs, rfl, hp, -⟩ := h
  exact hp p

theorem OnlyPhotometry.noticeClass {s t : State} (h : OnlyPhotometry s t) (c : Fin 32) :
    t.noticeClass c = { s.noticeClass c with
        pending := (t.noticeClass c).pending, holds := (t.noticeClass c).holds }
      ∧ ((∀ p, c ≠ photometryClass p ∧ c ≠ stageShortClass p) → t.noticeClass c = s.noticeClass c) := by
  obtain ⟨ps, cs, rfl, -, hc⟩ := h
  exact hc c

theorem OnlyPhotometry.rest {s t : State} (h : OnlyPhotometry s t) :
    t = { s with portals := t.portals, notices := { s.notices with classes := t.notices.classes } } := by
  obtain ⟨ps, cs, rfl, -, -⟩ := h
  rfl

theorem OnlyPhotometry.trans {s t u : State} (h : OnlyPhotometry s t) (k : OnlyPhotometry t u) : OnlyPhotometry s u := by
  refine .intro ?_ (fun p => ?_) fun c => ⟨?_, fun hne => ?_⟩
  · rw [k.rest, h.rest]
  · rw [k.portal p, h.portal p]
  · rw [(k.noticeClass c).1, (h.noticeClass c).1]
  · rw [(k.noticeClass c).2 hne, (h.noticeClass c).2 hne]

/-- A portal whose condition, Lf or STAGE_SHORT result is written. -/
theorem OnlyPhotometry.of_setPortal (s : State) (p : Fin 4) (c : Condition) (lf : Option Nat) (b : Bool) :
    OnlyPhotometry s (s.setPortal p { s.portal p with condition := c, lf := lf, stageShort := b }) := by
  refine .intro rfl (fun q => ?_) fun _ => ⟨rfl, fun _ => rfl⟩
  by_cases h : q = p
  · subst h; rw [State.portal_setPortal_self]
  · rw [State.portal_setPortal_of_ne _ _ _ _ h]

/-- A PHOTOMETRY or STAGE_SHORT class whose marks are written. -/
theorem OnlyPhotometry.of_setNoticeClass (s : State) (c : Fin 32) (h : ∃ p, c = photometryClass p ∨ c = stageShortClass p)
    (pending holds : Bool) :
    OnlyPhotometry s (s.setNoticeClass c { s.noticeClass c with pending := pending, holds := holds }) := by
  refine .intro rfl (fun _ => rfl) fun k => ?_
  by_cases hk : k = c
  · subst hk
    simp only [State.noticeClass_setNoticeClass_self, true_and]
    intro hne
    obtain ⟨p, hp⟩ := h
    rcases hp with hp | hp
    · exact absurd hp (hne p).1
    · exact absurd hp (hne p).2
  · simp only [State.noticeClass_setNoticeClass_of_ne _ _ _ _ hk, true_and]
    exact fun _ => trivial

theorem OnlyPhotometry.of_handCondition (s : State) (c : Fin 32) (h : ∃ p, c = photometryClass p ∨ c = stageShortClass p)
    (b : Bool) : OnlyPhotometry s (handCondition c b s) := by
  cases b
  · exact .of_setNoticeClass s c h false false
  · change OnlyPhotometry s (handTrue c s)
    rw [handTrue_cases]
    exact .of_setNoticeClass s c h _ true

theorem OnlyStageShort.refl (p : Fin 4) (s : State) : OnlyStageShort p s s := by
  refine ⟨(s.portal p).stageShort, s.noticeClass (stageShortClass p), ?_, rfl, rfl⟩
  have h1 : s.portals.set p { s.portal p with stageShort := (s.portal p).stageShort } = s.portals := by
    ext i hi
    simp only [Vector.getElem_set]
    split
    · subst_vars; rfl
    · rfl
  have h2 : s.notices.classes.set (stageShortClass p) (s.noticeClass (stageShortClass p)) = s.notices.classes := by
    ext i hi
    simp only [Vector.getElem_set]
    split
    · subst_vars; rfl
    · rfl
  rw [h1, h2]

/-- An evaluation of STAGE_SHORT writes its result and hands it over, and nothing else. -/
theorem onlyStageShort_evalStageShort (p : Fin 4) (s : State) : OnlyStageShort p s (evalStageShort p s) := by
  unfold evalStageShort
  dsimp only
  split
  · exact .refl p s
  · unfold handCondition
    split
    · rw [handTrue_cases]
      exact ⟨_, _, rfl, rfl, rfl⟩
    · exact ⟨_, _, rfl, rfl, rfl⟩

theorem shortHolds_congr {s t : State} (p : Fin 4) (hp : t.plan p = s.plan p) (ha : (t.portal p).active = (s.portal p).active)
    (hl : (t.portal p).lf = (s.portal p).lf) : shortHolds t p = shortHolds s p := by
  unfold shortHolds stageCount Portal.stageIsShort
  rw [hp, ha, hl]

/-- After an evaluation the stored result is the condition (R30, R31). -/
theorem evalStageShort_stageShort (p : Fin 4) (s : State) :
    ((evalStageShort p s).portal p).stageShort = shortHolds (evalStageShort p s) p := by
  unfold evalStageShort
  dsimp only
  split
  · rename_i h; exact h.symm
  · have hs : ∀ b, shortHolds (handCondition (stageShortClass p) b
        (s.setPortal p { s.portal p with stageShort := b })) p = shortHolds s p := by
      intro b
      refine shortHolds_congr p ?_ ?_ ?_ <;> cases b <;> simp [handCondition, handTrue_cases, handFalse]
    rw [hs]
    cases shortHolds s p <;> simp [handCondition, handTrue_cases, handFalse]

theorem OnlyStageShort.photometry {p : Fin 4} {s t : State} (h : OnlyStageShort p s t) : OnlyPhotometry s t := by
  obtain ⟨b, x, rfl, hx1, hx2⟩ := h
  have e1 : ({ s with
      portals := s.portals.set p { s.portal p with stageShort := b }
      notices := { s.notices with classes := s.notices.classes.set (stageShortClass p) x } } : State)
      = (s.setPortal p { s.portal p with stageShort := b }).setNoticeClass (stageShortClass p) x := rfl
  have e2 : x = { s.noticeClass (stageShortClass p) with pending := x.pending, holds := x.holds } := by
    cases x
    simp only at hx1 hx2
    subst hx1 hx2
    rfl
  rw [e1, e2]
  exact (OnlyPhotometry.of_setPortal s p _ _ b).trans (.of_setNoticeClass _ _ ⟨p, .inr rfl⟩ _ _)

theorem onlyPhotometry_evalStageShort (p : Fin 4) (s : State) : OnlyPhotometry s (evalStageShort p s) :=
  (onlyStageShort_evalStageShort p s).photometry

theorem onlyPhotometry_handPhotometry (p : Fin 4) (old new : Condition) (s : State) :
    OnlyPhotometry s (handPhotometry p old new s) := by
  unfold handPhotometry
  split
  · exact .of_handCondition s _ ⟨p, .inl rfl⟩ true
  · split
    · exact .of_handCondition s _ ⟨p, .inl rfl⟩ false
    · exact .refl s

theorem onlyPhotometry_evalOwnCondition (p : Fin 4) (s : State) : OnlyPhotometry s (evalOwnCondition p s) := by
  unfold evalOwnCondition
  dsimp only
  split
  · exact .refl s
  · exact ((OnlyPhotometry.of_setPortal s p _ _ (s.portal p).stageShort).trans (onlyPhotometry_handPhotometry ..)).trans
      (onlyPhotometry_evalStageShort ..)

theorem OnlyPhotometry.forEach {α : Type} (xs : List α) {f : α → State → State} (h : ∀ x t, OnlyPhotometry t (f x t))
    (s : State) : OnlyPhotometry s (forEach xs f s) :=
  forEach_induction (P := OnlyPhotometry s) xs (.refl s) fun x _ t ht => ht.trans (h x t)

theorem onlyPhotometry_evalCondition (p : Fin 4) (s : State) : OnlyPhotometry s (evalCondition p s) := by
  unfold evalCondition
  dsimp only
  split
  · exact onlyPhotometry_evalOwnCondition p s
  · exact (onlyPhotometry_evalOwnCondition p s).trans (.forEach _ onlyPhotometry_evalOwnCondition _)

theorem onlyPhotometry_revise (p : Fin 4) (la : Option Nat) (s : State) : OnlyPhotometry s (revise p la s) := by
  unfold revise
  split
  · exact .refl s
  · exact (OnlyPhotometry.of_setPortal s p (s.portal p).condition _ (s.portal p).stageShort).trans
      (onlyPhotometry_evalStageShort ..)

theorem onlyPhotometry_reviseFollowers (p : Fin 4) (la : Option Nat) (s : State) :
    OnlyPhotometry s (reviseFollowers p la s) := by
  refine .forEach _ (fun q t => ?_) s
  split
  · exact onlyPhotometry_revise q la t
  · exact .refl t

/-- A reading arrival changes photometry only (R7, R12 to R16). -/
theorem onlyPhotometry_readingArrival (p : Fin 4) (s : State) : OnlyPhotometry s (readingArrival p s) := by
  unfold readingArrival
  dsimp only
  refine OnlyPhotometry.trans ?_ (onlyPhotometry_reviseFollowers ..)
  have h2 : OnlyPhotometry s (if ((evalOwnCondition p s).portal p).condition = .live
      then revise p (approach (evalOwnCondition p s) p) (evalOwnCondition p s) else evalOwnCondition p s) := by
    split
    · exact (onlyPhotometry_evalOwnCondition p s).trans (onlyPhotometry_revise ..)
    · exact onlyPhotometry_evalOwnCondition p s
  split
  · exact h2
  · exact h2.trans (.forEach _ onlyPhotometry_evalOwnCondition _)

end Sys2Proof.Machine
end

