-- ==== Sys2Proof/Laws/Plans.lean ====
section
/-! SUPPORT. Plans, footprints and coordinates (R56, R57): the formula and its inverse. -/

namespace Sys2Proof.Machine

theorem Plan.wf_iff {q : Plan} : q.wf = true ↔
    (1 ≤ q.stages ∧ q.stages ≤ 6) ∧ (1 ≤ q.rows ∧ q.rows ≤ 8) ∧ (1 ≤ q.positions ∧ q.positions ≤ 64) ∧ q.base < 512
      ∧ q.positions ≤ q.rowStride ∧ (q.rows - 1) * q.rowStride + q.positions ≤ q.stageStride
      ∧ q.base + (q.stages - 1) * q.stageStride + (q.rows - 1) * q.rowStride + (q.positions - 1) < 512 := by
  unfold Plan.wf Plan.leastStageStride Plan.highest
  repeat rw [Bool.and_eq_true]
  repeat rw [decide_eq_true_iff]
  simp only [and_assoc]
  exact Iff.rfl

/-- The place lies in the plan. -/
def Plan.inside (q : Plan) (c : Coords) : Prop := c.stage < q.stages ∧ c.row < q.rows ∧ c.position < q.positions

theorem Plan.names_iff {q : Plan} {n : Nat} : q.names n ↔ ∃ c, q.inside c ∧ n = q.slotAt c := by
  constructor
  · rintro ⟨s, r, p, h1, h2, h3, h⟩
    exact ⟨⟨s, r, p⟩, ⟨h1, h2, h3⟩, h⟩
  · rintro ⟨⟨s, r, p⟩, ⟨h1, h2, h3⟩, h⟩
    exact ⟨s, r, p, h1, h2, h3, h⟩

/-- The part of the formula inside a stage stays below the stage stride. -/
theorem Plan.inStage_lt {q : Plan} (hw : q.wf = true) {row position : Nat} (hr : row < q.rows)
    (hp : position < q.positions) : row * q.rowStride + position < q.stageStride := by
  obtain ⟨_, _, _, _, _, h, _⟩ := Plan.wf_iff.1 hw
  have : row * q.rowStride ≤ (q.rows - 1) * q.rowStride := Nat.mul_le_mul_right _ (by omega)
  omega

/-- R57: coordinates invert the formula. -/
theorem Plan.coords_slotAt {q : Plan} (hw : q.wf = true) {c : Coords} (hc : q.inside c) : q.coords (q.slotAt c) = some c := by
  obtain ⟨hs, hr, hp⟩ := hc
  obtain ⟨_, _, _, _, hrs, _, _⟩ := Plan.wf_iff.1 hw
  have hin := Plan.inStage_lt hw hr hp
  have hps : c.position < q.rowStride := by omega
  have e : q.slotAt c - q.base = c.row * q.rowStride + c.position + c.stage * q.stageStride := by
    unfold Plan.slotAt; omega
  have hnot : ¬ q.slotAt c < q.base := by unfold Plan.slotAt; omega
  have hdiv : (q.slotAt c - q.base) / q.stageStride = c.stage := by
    rw [e, Nat.add_mul_div_right _ _ (by omega), Nat.div_eq_of_lt hin, Nat.zero_add]
  have hmod : (q.slotAt c - q.base) % q.stageStride = c.row * q.rowStride + c.position := by
    rw [e, Nat.add_mul_mod_self_right, Nat.mod_eq_of_lt hin]
  have hdiv2 : (c.row * q.rowStride + c.position) / q.rowStride = c.row := by
    rw [Nat.add_comm, Nat.add_mul_div_right _ _ (by omega), Nat.div_eq_of_lt hps, Nat.zero_add]
  have hmod2 : (c.row * q.rowStride + c.position) % q.rowStride = c.position := by
    rw [Nat.add_comm, Nat.add_mul_mod_self_right, Nat.mod_eq_of_lt hps]
  unfold Plan.coords
  simp only [if_neg hnot, hdiv, hmod, hdiv2, hmod2]
  rw [if_pos ⟨hs, hr, hp⟩]

/-- R57: a slot with coordinates is the formula's slot for them, and they lie in the plan. -/
theorem Plan.of_coords {q : Plan} {n : Nat} {c : Coords} (h : q.coords n = some c) : q.inside c ∧ n = q.slotAt c := by
  unfold Plan.coords at h
  split at h
  · exact absurd h (by simp)
  · rename_i hb
    dsimp only at h
    split at h
    · rename_i hc
      obtain rfl := Option.some.inj h
      refine ⟨hc, ?_⟩
      have h1 := Nat.div_add_mod (n - q.base) q.stageStride
      have h2 := Nat.div_add_mod ((n - q.base) % q.stageStride) q.rowStride
      simp only [Plan.slotAt]
      rw [Nat.mul_comm ((n - q.base) / q.stageStride), Nat.mul_comm ((n - q.base) % q.stageStride / q.rowStride)]
      omega
    · exact absurd h (by simp)

theorem Plan.holds_iff {q : Plan} (hw : q.wf = true) {n : Nat} : q.holds n = true ↔ q.names n := by
  rw [Plan.holds, Option.isSome_iff_exists, Plan.names_iff]
  constructor
  · rintro ⟨c, hc⟩
    exact ⟨c, Plan.of_coords hc⟩
  · rintro ⟨c, hc, rfl⟩
    exact ⟨c, Plan.coords_slotAt hw hc⟩

theorem Plan.slotAt_lt {q : Plan} (hw : q.wf = true) {c : Coords} (hc : q.inside c) : q.slotAt c < 512 := by
  obtain ⟨hs, hr, hp⟩ := hc
  obtain ⟨_, _, _, _, _, _, h⟩ := Plan.wf_iff.1 hw
  have h1 : c.stage * q.stageStride ≤ (q.stages - 1) * q.stageStride := Nat.mul_le_mul_right _ (by omega)
  have h2 : c.row * q.rowStride ≤ (q.rows - 1) * q.rowStride := Nat.mul_le_mul_right _ (by omega)
  unfold Plan.slotAt
  omega

theorem Plan.names_lt {q : Plan} (hw : q.wf = true) {n : Nat} (h : q.names n) : n < 512 := by
  obtain ⟨c, hc, rfl⟩ := Plan.names_iff.1 h
  exact Plan.slotAt_lt hw hc

theorem Plan.base_le_of_holds {q : Plan} {n : Nat} (h : q.holds n = true) : q.base ≤ n := by
  unfold Plan.holds Plan.coords at h
  split at h
  · simp at h
  · omega

/-! ## Footprints -/

theorem inFootprint_iff {s : State} {p : Fin 4} {n : Nat} :
    inFootprint s p n = true ↔ ∃ q, s.plan p = some q ∧ q.holds n = true := by
  unfold inFootprint
  split
  · rename_i h; simp [h]
  · rename_i q h; simp [h]

/-- Where footprints do not meet, the portal of a slot is the one whose footprint holds it. -/
theorem portalOfSlot_eq {s : State} {p : Fin 4} {n : Nat} (hn : inFootprint s p n = true)
    (hu : ∀ k, inFootprint s k n = true → k = p) : portalOfSlot s n = some p := by
  unfold portalOfSlot
  obtain ⟨q, hq⟩ : ∃ q, List.find? (fun p => inFootprint s p n) allPortals = some q := by
    rw [← Option.isSome_iff_exists, List.find?_isSome]
    exact ⟨p, mem_allPortals p, hn⟩
  rw [hq, hu q (by simpa using List.find?_some hq)]

theorem portalOfSlot_eq_none {s : State} {n : Nat} : portalOfSlot s n = none ↔ ∀ p, inFootprint s p n = false := by
  unfold portalOfSlot
  rw [List.find?_eq_none]
  constructor
  · intro h p
    simpa using h p (mem_allPortals p)
  · intro h p _
    simp [h p]

theorem FootprintLaw.unique {s : State} (h : FootprintLaw s) {p : Fin 4} {n : Nat} (hn : inFootprint s p n = true) :
    ∀ k, inFootprint s k n = true → k = p := fun k hk => h.2.1 k p n hk hn

theorem placeOfSlot_eq {s : State} (h : FootprintLaw s) {p : Fin 4} {q : Plan} {n : Nat} {c : Coords}
    (hq : s.plan p = some q) (hc : q.coords n = some c) : placeOfSlot s n = some (p, c) := by
  have hn : inFootprint s p n = true := inFootprint_iff.2 ⟨q, hq, by simp [Plan.holds, hc]⟩
  unfold placeOfSlot
  rw [portalOfSlot_eq hn (h.unique hn)]
  simp [hq, hc]

end Sys2Proof.Machine
end

