-- ==== Sys2Proof/Laws/Asked.lean ====
section
/-! SUPPORT. What a sweep request leaves (R98): a sweep that has been asked for is owed, has started, or has ended with no
eligible record; and what the end of a sweep after a change of the roster makes of it (R100, R106). -/

namespace Sys2Proof.Machine

/-! ## Eligible records ahead of a position (R100) -/

theorem inFootprint_congr {s t : State} (h : t.plans = s.plans) (p : Fin 4) (n : Nat) :
    inFootprint t p n = inFootprint s p n := by
  unfold inFootprint State.plan; rw [h]

theorem eligibleAt_congr {s t : State} (hr : t.roster = s.roster) (hp : t.plans = s.plans) {p : Fin 4} {l : Line} {n : Nat} :
    EligibleAt t p l n ↔ EligibleAt s p l n := by
  unfold EligibleAt State.record
  rw [hr, inFootprint_congr hp]

theorem OnlySweeps.eligibleAt {s t : State} (h : OnlySweeps s t) {p : Fin 4} {l : Line} {n : Nat} :
    EligibleAt t p l n ↔ EligibleAt s p l n := eligibleAt_congr h.roster h.plans

theorem OnlySweeps.walkOver {s t : State} (h : OnlySweeps s t) {p : Fin 4} {w : Walk} :
    WalkOver p w t ↔ WalkOver p w s :=
  forall_congr' fun _ => forall_congr' fun _ => imp_congr_left h.eligibleAt

/-- No record ahead of a position that finds no waiting slot is eligible. -/
theorem lt_of_waitingSlot_eq_none {s : State} {p : Fin 4} {l : Line} {k n : Nat} (h : waitingSlot s p l k = none)
    (hn : EligibleAt s p l n) : n < k := by
  by_contra hk
  have hne : s.record n ≠ Record.vacant false := fun hv => by
    have := hn.1
    rw [hv] at this
    simp [Record.eligibleOn, Record.onLine, Record.vacant] at this
  have hm : (n, s.record n) ∈ s.roster := mem_of_rosterGet hne
  have h' : s.roster.find? (fun e => decide (k ≤ e.1) && e.2.eligibleOn l && inFootprint s p e.1) = none := by
    simpa [waitingSlot] using h
  rw [List.find?_eq_none] at h'
  exact h' _ hm (by simp [hn.1, hn.2, Nat.le_of_not_lt hk])

/-- Every eligible record of a portal lies at or ahead of the first slot of its walk. -/
theorem first_le_of_eligibleAt {s : State} {p : Fin 4} {l : Line} {n : Nat} (h : EligibleAt s p l n) :
    ∃ k, firstPosition s p = some k ∧ k ≤ n := by
  obtain ⟨q, hq, hn⟩ := inFootprint_iff.1 h.2
  exact ⟨q.base, by simp [firstPosition, hq], Plan.base_le_of_holds hn⟩

/-! ## Walks that are over (R100, R106) -/

/-- Cursors that are PASSED once their phases have been found have nothing left of their walk. -/
theorem walkOver_of_bothPassed {s : State} {p : Fin 4} {w : Walk} (hw : (s.sweep p).running = some w)
    (h : bothPassed (settleCursors p s) p = true) : WalkOver p w s := by
  have hc : ∀ l, (settledCursor s p l (w.cursor l)).phase = .passed := by
    simp only [bothPassed, settleCursors, hw, State.sweep_setSweep_self, Bool.and_eq_true, beq_iff_eq] at h
    intro l
    cases l
    · exact h.1
    · exact h.2
  intro l n hn
  have := hc l
  unfold settledCursor at this
  cases hp : (w.cursor l).phase with
  | waiting =>
    intro k hk
    simp only [hp, hk] at this
    split at this
    · rw [hp] at this; cases this
    · rename_i hs
      exact lt_of_waitingSlot_eq_none (by simpa using hs) hn
  | onLine k => simp only [hp] at this; cases this
  | onLineRestarted => simp only [hp] at this; cases this
  | passed => trivial

/-- A sweep that both cursors pass as it starts has no eligible record. -/
theorem not_eligibleAt_of_beginSweep {cls : SweepClass} {p : Fin 4} {s : State} (hi : (s.sweep p).running = none)
    (h : bothPassed (beginSweep cls p s) p = true) (l : Line) (n : Nat) : ¬ EligibleAt s p l n := by
  intro hn
  obtain ⟨k, hk, hkn⟩ := first_le_of_eligibleAt hn
  have hw := walkOver_of_bothPassed (w := ⟨cls, .from (firstPosition s p), .from (firstPosition s p)⟩)
    (by simp [hi, placedCursor]) h l n (eligibleAt_congr rfl rfl |>.2 hn)
  have hc : (Walk.cursor ⟨cls, .from (firstPosition s p), .from (firstPosition s p)⟩ l) = .from (firstPosition s p) := by
    cases l <;> rfl
  rw [hc, hk] at hw
  exact absurd (hw k rfl) (by omega)

/-! ## What a start leaves (R99, R106) -/

/-- A NORMAL sweep of an IDLE portal that owes none has started: it runs, or has ended with no eligible record. -/
theorem closeIfPassed_beginSweep {p : Fin 4} {s : State} (hi : (s.sweep p).running = none)
    (ho : (s.sweep p).owed = false) :
    let u := closeIfPassed p (beginSweep .normal p s)
    (u.portal p).refreshTimer = some (s.portal p).ramp.refresh
      ∧ ((u.sweep p).running ≠ none
        ∨ u.sweep p = { running := none, owed := false, done := true }
          ∧ (u.noticeClass (sweepDoneClass p)).pending = true ∧ ∀ l n, ¬ EligibleAt u p l n) := by
  dsimp only
  unfold closeIfPassed
  split
  · rename_i h
    refine ⟨beginSweep_refreshTimer .normal p s, .inr ⟨?_, closeSweep_pending p _, fun l n hn => ?_⟩⟩
    · have := beginSweep_owed .normal p s
      rw [ho] at this
      simp [closeSweep, handEvent, this]
    · exact not_eligibleAt_of_beginSweep hi h l n
        (((onlySweeps_beginSweep .normal p s).trans (onlySweeps_closeSweep p _)).eligibleAt.1 hn)
  · exact ⟨beginSweep_refreshTimer .normal p s, .inl (beginSweep_running _ _ _)⟩

/-- R106: what the end of a sweep that owes another leaves, on a portal that is not HALTED. -/
theorem endIfPassed_owed {p : Fin 4} {s : State} (hm : (s.portal p).mode ≠ .halted) (h : bothPassed s p = true)
    (ho : (s.sweep p).owed = true) :
    let u := endIfPassed p s
    (u.noticeClass (sweepDoneClass p)).pending = true
      ∧ (u.portal p).refreshTimer = some (s.portal p).ramp.refresh
      ∧ ((u.sweep p).running ≠ none
        ∨ u.sweep p = { running := none, owed := false, done := true } ∧ ∀ l n, ¬ EligibleAt u p l n) := by
  dsimp only
  have hc : ((closeSweep p s).sweep p).owed = true := by simp [closeSweep, handEvent, ho]
  have hpend := startOwed_pending (p := p) (closeSweep_pending p s)
  have hp : (closeSweep p s).portal p = s.portal p := rfl
  have key : startOwed p (closeSweep p s)
      = closeIfPassed p (beginSweep .normal p
          ((closeSweep p s).setSweep p { (closeSweep p s).sweep p with owed := false })) := by
    unfold startOwed
    rw [if_pos hc]
    dsimp only
    rw [if_neg]
    rw [hp]
    exact hm
  have hs := closeIfPassed_beginSweep (p := p)
    (s := (closeSweep p s).setSweep p { (closeSweep p s).sweep p with owed := false })
    (by simp [closeSweep, handEvent]) (by simp)
  unfold endIfPassed
  rw [if_pos h]
  refine ⟨hpend, ?_, ?_⟩
  · rw [key]
    exact hs.1
  · rw [key]
    exact hs.2.imp id fun ⟨a, _, b⟩ => ⟨a, b⟩

/-! ## Requests (R98) -/

/-- A request asks for a sweep. -/
theorem sweepAsked_requestSweep (p : Fin 4) (s : State) : SweepAsked p s (requestSweep p s) := by
  intro hm
  dsimp only
  unfold requestSweep
  rw [if_neg hm]
  split
  · rename_i hi
    have hr := beginSweep_refreshTimer .normal p s
    have hmode : ((beginSweep .normal p s).portal p).mode ≠ .halted := by
      rw [(onlySweeps_beginSweep .normal p s).mode]; exact hm
    have hramp : ((beginSweep .normal p s).portal p).ramp.refresh = (s.portal p).ramp.refresh := by
      rw [(onlySweeps_beginSweep .normal p s).portal p]
    unfold startSweep
    by_cases hb : bothPassed (beginSweep .normal p s) p = true
    · by_cases ho : ((beginSweep .normal p s).sweep p).owed = true
      · obtain ⟨h1, h2, h3⟩ := endIfPassed_owed hmode hb ho
        rw [hramp] at h2
        rcases h3 with h3 | ⟨h3, h4⟩
        · exact .inr (.inl ⟨h3, h2, .inl hi⟩)
        · exact .inr (.inr ⟨h3, h2, h1, h4⟩)
      · have hc : ¬ ((closeSweep p (beginSweep .normal p s)).sweep p).owed = true := by
          simpa [closeSweep, handEvent] using ho
        unfold endIfPassed
        rw [if_pos hb]
        unfold startOwed
        rw [if_neg hc]
        refine .inr (.inr ⟨?_, hr, closeSweep_pending p _, fun l n hn => ?_⟩)
        · simpa [closeSweep, handEvent] using ho
        · exact not_eligibleAt_of_beginSweep hi hb l n
            (((onlySweeps_beginSweep .normal p s).trans (onlySweeps_closeSweep p _)).eligibleAt.1 hn)
    · unfold endIfPassed
      rw [if_neg hb]
      exact .inr (.inl ⟨beginSweep_running _ _ _, hr, .inl hi⟩)
  · rename_i w hw
    exact .inl ⟨by simp [hw], by simp⟩

/-- R100, R106: a sweep that has been asked for stays so when the cursors follow a roster and a walk that is over ends, where
the walk that ends is one that the sweep asked of had, or the sweep's own. -/
theorem SweepAsked.settled {p : Fin 4} {s t : State} (h : SweepAsked p s t)
    (hm : (t.portal p).mode = (s.portal p).mode) (hr : (t.portal p).ramp.refresh = (s.portal p).ramp.refresh)
    (hw : ∀ w w', (s.sweep p).running = some w → (t.sweep p).running = some w' → WalkOver p w' t → WalkOver p w t)
    (ho : (t.sweep p).owed = false → bothPassed (settleCursors p t) p = false) :
    SweepAsked p s (endIfPassed p (settleCursors p t)) := by
  intro hne
  dsimp only
  have hk := onlySweeps_settleCursors p t
  by_cases hb : bothPassed (settleCursors p t) p = true
  · have howed : (t.sweep p).owed = true := by
      by_contra hn
      rw [ho (by simpa using hn)] at hb
      cases hb
    have ho' : ((settleCursors p t).sweep p).owed = true := by rw [settleCursors_owed]; exact howed
    have hm' : ((settleCursors p t).portal p).mode ≠ .halted := by rw [settleCursors_portal, hm]; exact hne
    obtain ⟨h1, h2, h3⟩ := endIfPassed_owed hm' hb ho'
    rw [settleCursors_portal, hr] at h2
    rcases h3 with h3 | ⟨h3, h4⟩
    · refine .inr (.inl ⟨h3, h2, ?_⟩)
      cases hs : (s.sweep p).running with
      | none => exact .inl rfl
      | some w =>
        refine .inr ⟨h1, w, rfl, ?_⟩
        obtain ⟨w', hw'⟩ : ∃ w', (t.sweep p).running = some w' := by
          cases ht : (t.sweep p).running with
          | none => simp [bothPassed, settleCursors, ht] at hb
          | some w' => exact ⟨w', rfl⟩
        exact (hk.trans (onlySweeps_endIfPassed p _)).walkOver.2 (hw w w' hs hw' (walkOver_of_bothPassed hw' hb))
    · exact .inr (.inr ⟨h3, h2, h1, h4⟩)
  · unfold endIfPassed
    rw [if_neg hb]
    have hrun := settleCursors_running p t
    have hnc := settleCursors_noticeClass p t (sweepDoneClass p)
    rcases h hne with ⟨a, b⟩ | ⟨a, b, c⟩ | ⟨a, b, c, d⟩
    · exact .inl ⟨hrun.2 a, by rw [settleCursors_owed]; exact b⟩
    · refine .inr (.inl ⟨hrun.2 a, by rw [settleCursors_portal]; exact b, ?_⟩)
      rcases c with c | ⟨c, w, e, f⟩
      · exact .inl c
      · exact .inr ⟨by rw [hnc]; exact c, w, e, hk.walkOver.2 f⟩
    · have hi : settleCursors p t = t := by simp [settleCursors, a]
      rw [hi]
      exact .inr (.inr ⟨a, b, c, d⟩)

/-- What a sweep is asked of may differ from the state named in everything but the portal's mode, its refresh period and its
walk. -/
theorem SweepAsked.of_eq {p : Fin 4} {s s' t : State} (h : SweepAsked p s t) (hm : (s'.portal p).mode = (s.portal p).mode)
    (hr : (s'.portal p).ramp.refresh = (s.portal p).ramp.refresh) (hs : (s'.sweep p).running = (s.sweep p).running) :
    SweepAsked p s' t := by
  intro hne
  rw [hm] at hne
  have := h hne
  dsimp only at this ⊢
  rw [hr, hs]
  exact this

/-- A request for a slot asks the portal whose footprint holds it, where footprints do not meet. -/
theorem sweepAsked_requestForSlot {p : Fin 4} {n : Nat} {s : State} (hn : inFootprint s p n = true)
    (hu : ∀ k, inFootprint s k n = true → k = p) : SweepAsked p s (requestForSlot n s) := by
  unfold requestForSlot
  rw [portalOfSlot_eq hn hu]
  exact sweepAsked_requestSweep p s

end Sys2Proof.Machine
end

