-- ==== Sys2Proof/Laws/Concrete.lean ====
section
/-! SUPPORT. Finite checks that decide the laws of a state whose tables are written out: each check looks at the listed
records, entries and slots only, and implies the law over all numbers. -/

namespace Sys2Proof.Machine

/-- What holds of every listed record, and of the VACANT record, holds of every slot's record. -/
theorem State.forall_record {s : State} {P : Record → Prop} (h0 : P (Record.vacant false))
    (h : ∀ e ∈ s.roster, P e.2) (n : Nat) : P (s.record n) := by
  by_cases hn : s.record n = Record.vacant false
  · rw [hn]; exact h0
  · exact h _ (mem_of_rosterGet hn)

/-- A bound over what an option holds, as a check. -/
theorem forall_some_iff {α : Type} {P : α → Prop} [DecidablePred P] {o : Option α} :
    (∀ a, o = some a → P a) ↔ o.all (fun a => decide (P a)) = true := by
  cases o <;> simp

theorem RecordLaw.vacant (b : Bool) : RecordLaw (Record.vacant b) := by
  refine ⟨fun _ => rfl, ?_, ?_, ?_⟩ <;> simp [Record.vacant, Record.nonVacant]

/-! ## Roster -/

/-- RECORDS AND PAIRS: the checks of `RosterLaw`. -/
def rosterCheck (s : State) : Bool :=
  rosterWf s.roster
    && s.roster.all (fun e => decide ((e.2.state = .vacant → e.2 = Record.vacant e.2.changed)
      ∧ (e.2.nonVacant = true → e.2.place ≠ none) ∧ (e.2.state = .probation → e.2.confirmed = false)
      ∧ (e.2.state = .dark → e.2.fault ≠ none)))
    && s.roster.all (fun e => s.roster.all fun f => decide (e.2.nonVacant = true → f.2.nonVacant = true →
      (e.2.place = f.2.place ∨ e.2.uid ≠ 0 ∧ e.2.uid = f.2.uid) → e.1 = f.1))
    && allPortals.all (fun p => (s.plan p).all (·.wf))
    && allPortals.all (fun p => allPortals.all fun k => decide (p = k)
      || (s.plan p).all fun q => (s.plan k).all fun r => !q.overlaps r)
    && s.roster.all (fun e => !e.2.nonVacant || allPortals.any fun p => inFootprint s p e.1)

theorem rosterLaw_of_check {s : State} (h : rosterCheck s = true) : RosterLaw s := by
  simp only [rosterCheck, Bool.and_eq_true] at h
  obtain ⟨⟨⟨⟨⟨hw, hr⟩, hu⟩, hp⟩, ho⟩, hf⟩ := h
  rw [List.all_eq_true] at hr hu hp ho hf
  have hwf : ∀ p q, s.plan p = some q → q.wf = true := fun p q hq => by
    have := hp p (mem_allPortals p)
    rwa [hq] at this
  refine ⟨hw, fun n => State.forall_record (P := RecordLaw) (RecordLaw.vacant _) (fun e he => by
      have := of_decide_eq_true (hr e he); exact this) n,
    fun n k hn hk hs => ?_, hwf, fun p k n hpn hkn => ?_, fun n hn => ?_⟩
  · have := hu _ (State.mem_roster_of_nonVacant hn)
    rw [List.all_eq_true] at this
    exact of_decide_eq_true (this _ (State.mem_roster_of_nonVacant hk)) hn hk hs
  · obtain ⟨q, hq, hqn⟩ := inFootprint_iff.1 hpn
    obtain ⟨r, hr', hrn⟩ := inFootprint_iff.1 hkn
    have := ho p (mem_allPortals p)
    rw [List.all_eq_true] at this
    have := this k (mem_allPortals k)
    rw [Bool.or_eq_true, decide_eq_true_iff] at this
    rcases this with h | h
    · exact h
    · rw [hq, hr'] at h
      simp only [Option.all_some, Bool.not_eq_true'] at h
      have hlt : n < 512 := Plan.names_lt (hwf p q hq) ((Plan.holds_iff (hwf p q hq)).1 hqn)
      simp only [Plan.overlaps, List.any_eq_false, Bool.and_eq_true, not_and] at h
      exact absurd hrn (h n (List.mem_range.2 hlt) hqn)
  · have := hf _ (State.mem_roster_of_nonVacant hn)
    rw [hn] at this
    simp only [Bool.not_true, Bool.false_or, List.any_eq_true] at this
    obtain ⟨p, _, hp'⟩ := this
    exact ⟨p, hp'⟩

/-! ## The other laws -/

/-- The checks of `MissLaw`. -/
def missCheck (s : State) : Bool :=
  s.roster.all fun e => e.2.place.all fun q => decide (e.2.misses ≤ (s.line q.line).missLimit
    ∧ (e.2.state = .active ∨ e.2.state = .probation ∨ e.2.state = .dark → e.2.misses < (s.line q.line).missLimit))

theorem missLaw_of_check {s : State} (h : missCheck s = true) : MissLaw s := fun n =>
  State.forall_record (P := fun r => ∀ q, r.place = some q → r.misses ≤ (s.line q.line).missLimit
      ∧ (r.state = .active ∨ r.state = .probation ∨ r.state = .dark → r.misses < (s.line q.line).missLimit))
    (fun q hq => absurd hq (by simp [Record.vacant]))
    (fun e he => forall_some_iff.2 (List.all_eq_true.1 h e he)) n

/-- The checks of `MeterTableLaw`. -/
def meterCheck (s : State) : Bool :=
  allMeters.all (fun m =>
    let x := s.meter m
    decide ((x.site = none ↔ x.state = .unconfigured) ∧ (x.hold ≠ none ↔ x.state = .awaiting ∨ x.state = .online)
        ∧ (x.state = .online → x.reading ≠ none))
      && x.site.all fun q => decide (1 ≤ q.address ∧ q.address ≤ 31))
  && allMeters.all (fun m => allMeters.all fun k => (s.meter m).site.all fun x => (s.meter k).site.all fun y =>
      decide (x.address = y.address → m = k))
  && allPortals.all fun p => decide ((ownMeters s p).length ≤ 2)

theorem mem_allMeters (m : Fin 8) : m ∈ allMeters := by revert m; decide

theorem meterTableLaw_of_check {s : State} (h : meterCheck s = true) : MeterTableLaw s := by
  simp only [meterCheck, Bool.and_eq_true, List.all_eq_true] at h
  obtain ⟨⟨h1, h2⟩, h3⟩ := h
  refine ⟨fun m => ?_, fun m k x y hx hy => ?_, fun p => of_decide_eq_true (h3 p (mem_allPortals p))⟩
  · obtain ⟨a, b⟩ := h1 m (mem_allMeters m)
    obtain ⟨a1, a2, a3⟩ := of_decide_eq_true a
    exact ⟨a1, forall_some_iff.2 b, a2, a3⟩
  · have := h2 m (mem_allMeters m) k (mem_allMeters k)
    rw [hx, hy] at this
    exact of_decide_eq_true this

/-- The checks of `Profile.inRange`. -/
def profileCheck (v : Profile) : Bool :=
  decide ((20 ≤ v.kp ∧ v.kp ≤ 120) ∧ (v.f2 ≤ 1000 ∧ v.f3 ≤ v.f2 ∧ v.f4 ≤ v.f3 ∧ v.f5 ≤ v.f4 ∧ v.f6 ≤ v.f5)
    ∧ (∀ i : Fin 6, 100 ≤ v.lmax[i] ∧ v.lmax[i] ≤ 200000) ∧ v.lin ≤ 2000 ∧ v.dmin ≤ 3000 ∧ (1 ≤ v.w ∧ v.w ≤ 16)
    ∧ v.lfb ≤ 12000 ∧ (2 ≤ v.hold ∧ v.hold ≤ 60) ∧ v.boost ≤ 500)

theorem Profile.inRange_of_check {v : Profile} (h : profileCheck v = true) : v.inRange := by
  have := of_decide_eq_true h; exact this

/-- The check of a carried level. -/
def frameCheck : LineFrame → Bool
  | .level v => decide (v ≤ 10000)
  | .identify => true
  | .query => true
  | .forget => true

/-- The check of a bound on what an option holds. -/
def boundCheck (low high : Nat) (o : Option Nat) : Bool := o.all fun v => decide (low ≤ v ∧ v ≤ high)

theorem bound_of_check {low high : Nat} {o : Option Nat} (h : boundCheck low high o = true) :
    ∀ v, o = some v → low ≤ v ∧ v ≤ high := forall_some_iff.2 h

theorem top_of_check {high : Nat} {o : Option Nat} (h : boundCheck 0 high o = true) : ∀ v, o = some v → v ≤ high :=
  fun v hv => (bound_of_check h v hv).2

/-- The checks of `Meter.inRange`. -/
def meterRangeCheck (x : Meter) : Bool :=
  boundCheck 1 31 (x.site.map (·.address)) && boundCheck 0 12000 x.reading && boundCheck 2 60 x.hold

theorem Meter.inRange_of_check {x : Meter} (h : meterRangeCheck x = true) : x.inRange := by
  simp only [meterRangeCheck, Bool.and_eq_true] at h
  exact ⟨fun q hq => bound_of_check h.1.1 q.address (by simp [hq]), top_of_check h.1.2, bound_of_check h.2⟩

/-- The checks of `Portal.inRange`. -/
def portalRangeCheck (x : Portal) : Bool :=
  boundCheck 0 12000 x.lf && profileCheck x.active && x.pendingProfile.all profileCheck
    && decide ((∀ i : Fin 6, x.levels[i] ≤ 10000 ∧ x.manual[i] ≤ 10000)
      ∧ (2 ≤ x.ramp.steps ∧ x.ramp.steps ≤ 40) ∧ (1 ≤ x.ramp.up ∧ x.ramp.up ≤ 10000)
      ∧ (1 ≤ x.ramp.down ∧ x.ramp.down ≤ 10000) ∧ x.ramp.deadband ≤ 500
      ∧ (10 ≤ x.ramp.refresh ∧ x.ramp.refresh ≤ 600))
    && boundCheck 2 40 x.rampTimer && boundCheck 10 600 x.refreshTimer

theorem Portal.inRange_of_check {x : Portal} (h : portalRangeCheck x = true) : x.inRange := by
  simp only [portalRangeCheck, Bool.and_eq_true] at h
  obtain ⟨⟨⟨⟨⟨h1, h2⟩, h3⟩, h4⟩, h5⟩, h6⟩ := h
  obtain ⟨a, b, c, d, e, f⟩ := of_decide_eq_true h4
  refine ⟨top_of_check h1, Profile.inRange_of_check h2, fun v hv => ?_, a, b, c, d, e, f, bound_of_check h5,
    bound_of_check h6⟩
  rw [hv] at h3
  exact Profile.inRange_of_check h3

/-- The checks of `Record.inRange`. -/
def recordRangeCheck (r : Record) : Bool :=
  boundCheck 1 254 (r.place.map (·.address)) && decide (r.uid < 2 ^ 48 ∧ (500 ≤ r.m ∧ r.m ≤ 1000) ∧ r.lmin ≤ 3000)
    && boundCheck 0 10000 r.pinned && boundCheck 0 10000 r.lastSent && boundCheck 0 10000 r.lastAcked

theorem Record.inRange_of_check {r : Record} (h : recordRangeCheck r = true) : r.inRange := by
  simp only [recordRangeCheck, Bool.and_eq_true] at h
  obtain ⟨⟨⟨⟨h1, h2⟩, h3⟩, h4⟩, h5⟩ := h
  obtain ⟨a, b, c⟩ := of_decide_eq_true h2
  exact ⟨fun q hq => bound_of_check h1 q.address (by simp [hq]), a, b, c, top_of_check h3, top_of_check h4, top_of_check h5⟩

/-- The checks of `Stray.inRange`. -/
def strayRangeCheck (e : Stray) : Bool :=
  decide (1 ≤ e.address ∧ e.address ≤ 254) && e.uid.all (fun u => decide (u < 2 ^ 48)) && boundCheck 0 3000 e.lmin

theorem Stray.inRange_of_check {e : Stray} (h : strayRangeCheck e = true) : e.inRange := by
  simp only [strayRangeCheck, Bool.and_eq_true] at h
  exact ⟨of_decide_eq_true h.1.1, forall_some_iff.2 h.1.2, top_of_check h.2⟩

/-- The checks of `LineCtl.inRange`. -/
def lineRangeCheck (c : LineCtl) : Bool :=
  let driver := fun a : Nat => decide (1 ≤ a ∧ a ≤ 254)
  decide ((1 ≤ c.missLimit ∧ c.missLimit ≤ 7) ∧ c.fairness ≤ 4)
    && (match c.state with
        | .busy x => driver x.address && frameCheck x.frame
        | .idle => true
        | .quiet => true)
    && c.admin.all (fun e => driver e.address) && c.service.all driver && c.strays.all strayRangeCheck
    && c.ignored.all driver

theorem LineCtl.inRange_of_check {c : LineCtl} (h : lineRangeCheck c = true) : c.inRange := by
  simp only [lineRangeCheck, Bool.and_eq_true, List.all_eq_true] at h
  obtain ⟨⟨⟨⟨⟨h1, h2⟩, h3⟩, h4⟩, h5⟩, h6⟩ := h
  obtain ⟨a, b⟩ := of_decide_eq_true h1
  refine ⟨a, b, fun x hx => ?_, fun e he => of_decide_eq_true (h3 e he), fun n hn => of_decide_eq_true (h4 n hn),
    fun e he => Stray.inRange_of_check (h5 e he), fun n hn => of_decide_eq_true (h6 n hn)⟩
  rw [hx] at h2
  simp only [Bool.and_eq_true] at h2
  refine ⟨of_decide_eq_true h2.1, fun v hv => ?_⟩
  have := h2.2
  simp only [frameCheck, hv] at this
  exact of_decide_eq_true this

/-- The checks of `RangeLaw`. -/
def rangeCheck (s : State) : Bool :=
  allMeters.all (fun m => meterRangeCheck (s.meter m)) && boundCheck 1 31 s.poll
    && allPortals.all (fun p => portalRangeCheck (s.portal p)) && s.roster.all (fun e => recordRangeCheck e.2)
    && lineRangeCheck s.lineA && lineRangeCheck s.lineB
    && allClasses.all (fun c => decide (1 ≤ (s.noticeClass c).priority ∧ (s.noticeClass c).priority ≤ 15))
    && s.notices.stack.all fun e => decide (1 ≤ e.priority ∧ e.priority ≤ 15)

theorem rangeLaw_of_check {s : State} (h : rangeCheck s = true) : RangeLaw s := by
  simp only [rangeCheck, Bool.and_eq_true, List.all_eq_true] at h
  obtain ⟨⟨⟨⟨⟨⟨⟨hm, hq⟩, hp⟩, hr⟩, ha⟩, hb⟩, hc⟩, hs⟩ := h
  refine ⟨fun m => Meter.inRange_of_check (hm m (mem_allMeters m)), bound_of_check hq,
    fun p => Portal.inRange_of_check (hp p (mem_allPortals p)),
    fun n => State.forall_record (P := Record.inRange) (Record.inRange_of_check (by decide))
      (fun e he => Record.inRange_of_check (hr e he)) n,
    LineCtl.inRange_of_check ha, LineCtl.inRange_of_check hb,
    fun c => of_decide_eq_true (hc c (List.mem_finRange c)), fun e he => of_decide_eq_true (hs e he)⟩

/-- The checks of `LineBLaw`. -/
def lineBCheck (s : State) : Bool :=
  s.linePresent .b || decide (s.lineB = .powerOn) && s.roster.all fun e => e.2.place.all fun q => decide (q.line = .a)

theorem lineBLaw_of_check {s : State} (h : lineBCheck s = true) : LineBLaw s := by
  intro hb
  simp only [lineBCheck, hb, Bool.false_or, Bool.and_eq_true, decide_eq_true_eq, List.all_eq_true] at h
  refine ⟨h.1, fun n => State.forall_record (P := fun r => ∀ q, r.place = some q → q.line = .a)
    (fun q hq => absurd hq (by simp [Record.vacant])) (fun e he => ?_) n⟩
  exact forall_some_iff.2 (by simpa using h.2 e he)

/-- The checks of `CursorLaw`. -/
def cursorCheck (s : State) (p : Fin 4) (l : Line) (c : Cursor) : Bool :=
  match c.phase with
  | .waiting => c.position.any fun n => (waitingSlot s p l n).isSome
  | .passed => c.position.isNone
  | .onLine n => decide (c.position = some n)
  | .onLineRestarted => true

theorem cursorLaw_of_check {s : State} {p : Fin 4} {l : Line} {c : Cursor} (h : cursorCheck s p l c = true) :
    CursorLaw s p l c := by
  unfold cursorCheck at h
  unfold CursorLaw
  cases hc : c.phase <;> simp only [hc] at h ⊢
  · obtain ⟨n, hn, hs⟩ := (Option.any_eq_true _ _).1 h
    exact ⟨n, hn, by cases hw : waitingSlot s p l n <;> simp_all⟩
  · exact of_decide_eq_true h
  · exact Option.isNone_iff_eq_none.1 h

/-- The checks of `SweepLaw`. -/
def sweepCheck (s : State) : Bool :=
  allPortals.all fun p =>
    match (s.sweep p).running with
    | some w => cursorCheck s p .a w.cursorA && cursorCheck s p .b w.cursorB
        && decide (w.cursorA.phase ≠ .passed ∨ w.cursorB.phase ≠ .passed) && !(s.sweep p).done
    | none => !(s.sweep p).owed

theorem sweepLaw_of_check {s : State} (h : sweepCheck s = true) : SweepLaw s := by
  intro p
  have := List.all_eq_true.1 h p (mem_allPortals p)
  cases hr : (s.sweep p).running with
  | none => simpa [hr] using this
  | some w =>
    simp only [hr, Bool.and_eq_true, Bool.not_eq_true', decide_eq_true_eq] at this ⊢
    exact ⟨cursorLaw_of_check this.1.1.1, cursorLaw_of_check this.1.1.2, this.1.2, this.2⟩

/-- The checks of `CollectionsLaw`. -/
def collectionsCheck (s : State) (l : Line) : Bool :=
  let c := s.line l
  rosterWf s.roster
    && decide (c.service.length ≤ 32 ∧ c.service.Nodup ∧ c.admin.length ≤ 16 ∧ c.admin.Nodup ∧ c.forgets.Nodup
      ∧ c.strays.length ≤ 8 ∧ (c.strays.map (·.address)).Nodup ∧ c.ignored.length ≤ 8 ∧ c.ignored.Nodup)
    && c.service.all (fun a => (s.lookup l a).any fun n => decide ((s.record n).state ≠ .retiring))
    && c.forgets.all (fun a => (s.lookup l a).any fun n => decide ((s.record n).state = .retiring))
    && c.strays.all fun e => decide (e.address ∉ c.ignored) && (s.lookup l e.address).isNone

theorem collectionsLaw_of_check {s : State} {l : Line} (h : collectionsCheck s l = true) : CollectionsLaw s l := by
  simp only [collectionsCheck, Bool.and_eq_true, List.all_eq_true] at h
  obtain ⟨⟨⟨⟨hw, hd⟩, hs⟩, hf⟩, he⟩ := h
  obtain ⟨d1, d2, d3, d4, d5, d6, d7, d8, d9⟩ := of_decide_eq_true hd
  have at' : ∀ {P : Nat → Prop} [DecidablePred P] {a : Nat}, ((s.lookup l a).any fun n => decide (P n)) = true →
      ∃ n, (s.record n).at l a = true ∧ P n := by
    intro P _ a h
    obtain ⟨n, hn, hp⟩ := (Option.any_eq_true _ _).1 h
    exact ⟨n, State.at_of_lookup hw hn, of_decide_eq_true hp⟩
  refine ⟨⟨d1, d2, fun a ha => at' (hs a ha)⟩, ⟨d3, d4⟩, ⟨d5, fun a ha => at' (hf a ha)⟩, ⟨d6, d7, fun e hm => ?_⟩, d8, d9⟩
  obtain ⟨h1, h2⟩ := he e hm
  exact ⟨of_decide_eq_true h1, (State.lookup_eq_none hw).1 (Option.isNone_iff_eq_none.1 h2)⟩

end Sys2Proof.Machine
end

