-- ==== Sys2Proof/Laws/Decode.lean ====
section
/-! SUPPORT. The fields of a frame read back as they were written, and what the four checks of R163 make of a counted and
checked body. -/

namespace Sys2Proof

theorem crcShift_zero : crcShift 0 false = 0 := by decide

theorem crc8_nil : crc8 [] = 0 := by decide

/-- A two-byte field reads back. -/
theorem u8_append_put16 (x : Half) : (x.extractLsb' 8 8 ++ x.extractLsb' 0 8 : Half) = x := by
  ext i hi
  simp only [BitVec.getElem_append, BitVec.getElem_extractLsb']
  split
  · simp only [Nat.zero_add, BitVec.getLsbD_eq_getElem hi]
  · rename_i h
    simp only [BitVec.getLsbD_eq_getElem hi, show 8 + (i - 8) = i by omega]

/-- A three-byte field reads back. -/
theorem u8_append_put24 (x : Triple) :
    (x.extractLsb' 16 8 ++ (x.extractLsb' 8 8 ++ x.extractLsb' 0 8 : Half) : Triple) = x := by
  ext i hi
  simp only [BitVec.getElem_append, BitVec.getElem_extractLsb']
  split
  · split
    · simp only [Nat.zero_add, BitVec.getLsbD_eq_getElem hi]
    · rename_i h
      simp only [show 8 + (i - 8) = i by omega, BitVec.getLsbD_eq_getElem hi]
  · rename_i h
    simp only [show 16 + (i - 16) = i by omega, BitVec.getLsbD_eq_getElem hi]

/-- A six-byte field reads back. -/
theorem u24_append_put48 (x : UidField) :
    ((x.extractLsb' 40 8 ++ (x.extractLsb' 32 8 ++ x.extractLsb' 24 8 : Half) : Triple)
      ++ (x.extractLsb' 16 8 ++ (x.extractLsb' 8 8 ++ x.extractLsb' 0 8 : Half) : Triple) : UidField) = x := by
  ext i hi
  simp only [BitVec.getElem_append, BitVec.getElem_extractLsb']
  split
  · split
    · split
      · simp only [Nat.zero_add, BitVec.getLsbD_eq_getElem hi]
      · simp only [show 8 + (i - 8) = i by omega, BitVec.getLsbD_eq_getElem hi]
    · simp only [show 16 + (i - 16) = i by omega, BitVec.getLsbD_eq_getElem hi]
  · split
    · split
      · simp only [show 24 + (i - 24) = i by omega, BitVec.getLsbD_eq_getElem hi]
      · simp only [show 32 + (i - 24 - 8) = i by omega, BitVec.getLsbD_eq_getElem hi]
    · simp only [show 40 + (i - 24 - 16) = i by omega, BitVec.getLsbD_eq_getElem hi]

/-- R163: a code and payload of the index's length, counted and checked, pass the four checks and build their command. -/
theorem Frame.parse_counted {code : Byte} {payload : List Byte} {row : CommandRow} (hl : payload.length + 1 < 256)
    (hf : (commandIndex.find? fun row => row.code == code.toNat) = some row) (hn : payload.length = row.length) :
    Frame.parse (BitVec.ofNat 8 (payload.length + 1) :: (code :: payload)
      ++ [crc8 (BitVec.ofNat 8 (payload.length + 1) :: code :: payload)]) = .ok (row.build payload) := by
  have hc : (BitVec.ofNat 8 (payload.length + 1)).toNat = payload.length + 1 := by simp; omega
  have ht : ((code :: payload) ++ [crc8 (BitVec.ofNat 8 (payload.length + 1) :: code :: payload)]).take
      (payload.length + 1) = code :: payload := by simp
  have hu : u8 ((code :: payload) ++ [crc8 (BitVec.ofNat 8 (payload.length + 1) :: code :: payload)])
      (payload.length + 1) = crc8 (BitVec.ofNat 8 (payload.length + 1) :: code :: payload) := by simp [u8]
  simp only [List.cons_append, Frame.parse, hc]
  rw [← List.cons_append, ht, hu, if_neg (by simp)]
  simp only [hf]
  rw [if_neg (by simp [hn])]

end Sys2Proof
end

