-- ==== Sys2Proof/Laws/Lines.lean ====
section
/-! SUPPORT. The line controllers: phases of an exchange, who waits on a line, and whom the arbiter chooses. -/

namespace Sys2Proof.Machine

/-! ## Phases -/

theorem withPhase_busy {s : State} {l : Line} {x : Exchange} (h : (s.line l).state = .busy x) (f : Phase → Phase) :
    withPhase l f s = s.setLine l { s.line l with state := .busy { x with phase := f x.phase } } := by
  simp [withPhase, h]

theorem withPhase_of_not_busy {s : State} {l : Line} (h : (s.line l).state = .quiet ∨ (s.line l).state = .idle)
    (f : Phase → Phase) : withPhase l f s = s := by
  rcases h with h | h <;> simp [withPhase, h]

/-- Characters received in the request slot are appended to it. -/
theorem foldl_receive_slot (said asked chars : List Byte) :
    chars.foldl Phase.receive (.slot said asked) = .slot said (asked ++ chars) := by
  induction chars generalizing asked with
  | nil => simp
  | cons c rest ih => simp [Phase.receive, ih, List.append_assoc]

/-- A reply is whole once its code is there and its length is reached. -/
theorem replyComplete_iff {got : List Byte} :
    replyComplete got = true ↔ 2 ≤ got.length ∧ ∃ k, replyLength (got.getD 1 0) = some k ∧ k ≤ got.length := by
  match got with
  | [] => simp [replyComplete]
  | [_] => simp [replyComplete]
  | a :: c :: rest =>
    have h1 : (a :: c :: rest).getD 1 0 = c := rfl
    have h2 : 2 ≤ (a :: c :: rest).length := by simp
    rw [h1]
    unfold replyComplete
    cases hk : replyLength c <;> simp [hk]

/-! ## Who waits (R128, R129) -/

theorem cursorWaits_iff {s : State} {l : Line} {cls : SweepClass} {p : Fin 4} {n : Nat} :
    cursorWaits s l cls p = some n ↔ CursorWaits s l cls p n := by
  unfold cursorWaits CursorWaits
  cases hr : (s.sweep p).running with
  | none => simp
  | some w =>
    simp only [Option.some.injEq, exists_and_left, exists_eq_left']
    by_cases hc : w.cls = cls ∧ (w.cursor l).phase = .waiting
    · rw [if_pos hc]
      cases hk : (w.cursor l).position <;> simp [hc]
    · rw [if_neg hc]
      constructor
      · intro h; simp at h
      · rintro ⟨h1, h2, _⟩; exact absurd ⟨h1, h2⟩ hc

/-- R129: how far a portal comes after a pointer. -/
def turnAfter (pointer p : Fin 4) : Nat := (p.val + 3 - pointer.val) % 4

theorem turns_sorted (pointer : Fin 4) : (turns pointer).Pairwise fun a b => turnAfter pointer a < turnAfter pointer b := by
  revert pointer; decide

theorem mem_turns (pointer p : Fin 4) : p ∈ turns pointer := by
  revert pointer p; decide

theorem turnAfter_injective {pointer p q : Fin 4} (h : turnAfter pointer p = turnAfter pointer q) : p = q := by
  revert pointer p q; decide

/-- Nobody of the class waits. -/
theorem firstWaiting_eq_none {s : State} {l : Line} {cls : SweepClass} {pointer : Fin 4} :
    firstWaiting s l cls pointer = none ↔ ∀ p n, ¬ CursorWaits s l cls p n := by
  unfold firstWaiting
  rw [List.findSome?_eq_none_iff]
  constructor
  · intro h p n hw
    have := h p (mem_turns pointer p)
    rw [cursorWaits_iff.2 hw] at this
    simp at this
  · intro h p _
    cases hc : cursorWaits s l cls p with
    | none => rfl
    | some n => exact absurd (cursorWaits_iff.1 hc) (h p n)

/-- The first after the pointer that waits. -/
theorem firstWaiting_eq_some {s : State} {l : Line} {cls : SweepClass} {pointer p : Fin 4} {n : Nat} :
    firstWaiting s l cls pointer = some (p, n) ↔
      CursorWaits s l cls p n ∧ ∀ q k, CursorWaits s l cls q k → turnAfter pointer p ≤ turnAfter pointer q := by
  have key : ∀ ps : List (Fin 4), ps.Pairwise (fun a b => turnAfter pointer a < turnAfter pointer b) →
      (ps.findSome? (fun p => (cursorWaits s l cls p).map fun n => (p, n)) = some (p, n) ↔
        p ∈ ps ∧ CursorWaits s l cls p n ∧
          ∀ q ∈ ps, ∀ k, CursorWaits s l cls q k → turnAfter pointer p ≤ turnAfter pointer q) := by
    intro ps
    induction ps with
    | nil => intro _; simp
    | cons a rest ih =>
      intro hp
      rw [List.pairwise_cons] at hp
      rw [List.findSome?_cons]
      cases hc : cursorWaits s l cls a with
      | none =>
        simp only [Option.map_none]
        rw [ih hp.2]
        constructor
        · rintro ⟨hm, hw, hmin⟩
          refine ⟨List.mem_cons_of_mem _ hm, hw, fun q hq k hk => ?_⟩
          rcases List.mem_cons.1 hq with rfl | hq
          · rw [cursorWaits_iff.2 hk] at hc; simp at hc
          · exact hmin q hq k hk
        · rintro ⟨hm, hw, hmin⟩
          rcases List.mem_cons.1 hm with rfl | hm
          · rw [cursorWaits_iff.2 hw] at hc; simp at hc
          · exact ⟨hm, hw, fun q hq k hk => hmin q (List.mem_cons_of_mem _ hq) k hk⟩
      | some m =>
        simp only [Option.map_some, Option.some.injEq, Prod.mk.injEq]
        constructor
        · rintro ⟨rfl, rfl⟩
          refine ⟨List.mem_cons_self, cursorWaits_iff.1 hc, fun q hq k _ => ?_⟩
          rcases List.mem_cons.1 hq with rfl | hq
          · exact le_refl _
          · exact (hp.1 q hq).le
        · rintro ⟨hm, hw, hmin⟩
          have hle := hmin a List.mem_cons_self m (cursorWaits_iff.1 hc)
          rcases List.mem_cons.1 hm with rfl | hm
          · rw [cursorWaits_iff.2 hw, Option.some.injEq] at hc
            exact ⟨rfl, hc.symm⟩
          · have := hp.1 p hm
            omega
  have := key (turns pointer) (turns_sorted pointer)
  unfold firstWaiting
  rw [this]
  exact ⟨fun ⟨_, hw, hm⟩ => ⟨hw, fun q k hk => hm q (mem_turns _ _) k hk⟩,
    fun ⟨hw, hm⟩ => ⟨mem_turns _ _, hw, fun q _ k hk => hm q k hk⟩⟩

/-! ## Whom the arbiter chooses (R128) -/

theorem chooseGrantee_emergency {s : State} {l : Line} {p : Fin 4} {n : Nat}
    (h : firstWaiting s l .emergency (s.line l).emergencyPointer = some (p, n)) :
    chooseGrantee s l = some (.cursor .emergency p n) := by
  simp [chooseGrantee, h]

theorem chooseGrantee_normal {s : State} {l : Line} {p : Fin 4} {n : Nat}
    (he : firstWaiting s l .emergency (s.line l).emergencyPointer = none)
    (h : firstWaiting s l .normal (s.line l).normalPointer = some (p, n))
    (hf : (s.line l).fairness = 4 ∨ (s.line l).admin = [] ∧ (s.line l).service = []) :
    chooseGrantee s l = some (.cursor .normal p n) := by
  unfold chooseGrantee
  simp only [he, h]
  by_cases h4 : (s.line l).fairness = Config.fairnessLimit
  · simp [h4]
  · rcases hf with hf | ⟨ha, hs⟩
    · exact absurd hf h4
    · simp [h4, chooseUnhurried, ha, hs]

theorem chooseGrantee_unhurried {s : State} {l : Line}
    (he : firstWaiting s l .emergency (s.line l).emergencyPointer = none)
    (hf : (s.line l).fairness ≠ 4 ∨ firstWaiting s l .normal (s.line l).normalPointer = none) :
    chooseGrantee s l = chooseUnhurried (s.line l) (firstWaiting s l .normal (s.line l).normalPointer) := by
  unfold chooseGrantee
  simp only [he]
  cases hn : firstWaiting s l .normal (s.line l).normalPointer with
  | none => rfl
  | some q =>
    have h4 : (s.line l).fairness ≠ Config.fairnessLimit := by
      rcases hf with hf | hf
      · exact hf
      · rw [hn] at hf; simp at hf
    simp [h4]

theorem arbiterGrant_of_not_idle {s : State} {l : Line} (h : (s.line l).state ≠ .idle) : arbiterGrant l s = s := by
  unfold arbiterGrant
  cases hc : (s.line l).state <;> simp_all

theorem arbiterGrant_none {s : State} {l : Line} (hi : (s.line l).state = .idle) (h : chooseGrantee s l = none) :
    arbiterGrant l s = s := by
  simp [arbiterGrant, hi, h]

theorem arbiterGrant_some {s : State} {l : Line} {g : Grantee} (hi : (s.line l).state = .idle)
    (h : chooseGrantee s l = some g) : arbiterGrant l s = grantTo l g s := by
  simp [arbiterGrant, hi, h]

end Sys2Proof.Machine
end

