-- ==== Sys2Proof/WellFormed.lean ====
section
/-! DEFINITION. The commands that are what their row of the table says they are. Host commands and events carry
operands whose types admit exactly the values that can arrive; the checks below are on the rows that carry raw bytes. -/

namespace Sys2Proof

/-- R163: a BAD_COMMAND_FRAME fails one of the frame checks. -/
def badFrameCheck (frame : List Byte) : Bool :=
  match Frame.parse frame with
  | .error _ => true
  | .ok _ => false

/-- R162: an IGNORED_TRANSFER has no whole byte, or a first byte that is neither selector. -/
def ignoredCheck (bytes : List Byte) : Bool :=
  match bytes with
  | [] => true
  | first :: _ => first != 0xA5 && first != 0x5A

/-- R115: a REPLY_RECEIVED brings at least one character. -/
def receivedCheck (chars : List Byte) : Bool := !chars.isEmpty

/-- The command has the form its row asks for. -/
def WellFormed : Instr → Bool
  | .badCommandFrame frame => badFrameCheck frame
  | .ignoredTransfer bytes => ignoredCheck bytes
  | .replyReceived _ chars => receivedCheck chars
  | .restart => true
  | .readIdent => true
  | .setMeter _ _ _ _ => true
  | .readPortal _ => true
  | .setProfile _ _ _ => true
  | .start _ _ => true
  | .halt _ => true
  | .setRamp _ _ _ _ _ _ => true
  | .requestMode _ _ => true
  | .setStageLevel _ _ _ => true
  | .setCoupling _ _ => true
  | .setEmergencyEnable _ _ => true
  | .release _ => true
  | .setPlan _ _ _ _ _ _ _ => true
  | .admitRecord _ _ _ _ _ _ => true
  | .amend _ _ _ _ _ _ => true
  | .move _ _ => true
  | .retire _ => true
  | .clearFault _ => true
  | .readRecord _ => true
  | .find _ _ => true
  | .findUid _ => true
  | .list _ _ _ _ => true
  | .resweep _ => true
  | .setLine _ _ => true
  | .readLine _ => true
  | .readStrays _ => true
  | .admitStray _ _ _ _ _ => true
  | .rejectStray _ _ => true
  | .clearIgnore _ => true
  | .setPriority _ _ => true
  | .mask _ _ => true
  | .takeNotice => true
  | .finishNotice => true
  | .setAutoFinish _ => true
  | .readNotices => true
  | .snapshot _ _ => true
  | .readSnapshot _ => true
  | .discardedCommandTransfer _ => true
  | .replyRead _ => true
  | .resetNAsserted => true
  | .resetNRelease _ _ => true
  | .emergNAssertion => true
  | .emergNRelease => true
  | .rampExpiry _ => true
  | .refreshTimerExpiry _ => true
  | .holdTimerExpiry _ => true
  | .pollDue _ => true
  | .pollStart => true
  | .pollCompletion _ _ _ _ _ => true
  | .pollWindowClose => true
  | .quietPeriodEnd _ => true
  | .arbiterGrant _ => true
  | .frameEnd _ => true
  | .replyWindowClose _ => true
  | .replyGapTimeout _ => true
  | .exchangeCompletion _ _ => true
  | .replyBegun _ _ => true
  | .readyRise => true

end Sys2Proof
end

