-- ==== Sys2Proof/Tests/Slice0.lean ====
section
/-! SUPPORT. The model's own tests: ill-formed terms that are refused, the check byte, the answers of every command at
the ends of its ranges, the worked examples of the spec, and a state that meets the hypotheses of each statement. -/

namespace Sys2Proof.Tests

open Sys2Proof Sys2Proof.Machine

-- Each test is a kernel evaluation: one after the other, so that few threads are held at once.
set_option Elab.async false

/-! ## Small states -/

/-- The state after these commands and events in turn. -/
def play (cs : List Instr) (s : State) : State :=
  cs.foldl (fun s c => match exec c s with | .next t => t | .fault _ => s | .refused _ => s) s

/-- The state after these host commands, READY rising after each. -/
def host (cs : List Instr) (s : State) : State := play (cs.flatMap fun c => [c, .readyRise]) s

/-- The answers each of these host commands would be given in this state. -/
def codes (s : State) (cs : List Instr) : List Answer :=
  cs.filterMap fun c => (play [c] s).port.preparing.map (·.answer)

/-- The payload a host command is given in this state, as numbers. -/
def payload (s : State) (c : Instr) : List Nat :=
  ((play [c] s).port.preparing.map fun r => r.payload.map BitVec.toNat).getD []

/-- The part after the release of RESET_N with these straps, EMERG_N high, with both lines past their quiet period. -/
def released (straps : BitVec 4) : State :=
  play [.resetNRelease straps ⟨true, true⟩, .quietPeriodEnd .a, .quietPeriodEnd .b] State.reset

/-- A record at a place, with every other field as a new record has it. -/
def lamp (state : RecordState) (l : Line) (address uid : Nat) : Record :=
  { Record.vacant false with state := state, place := some ⟨l, address⟩, uid := uid }

/-- Plans of portals 0 (slots 0 to 3) and 2 (slots 508 to 511), meters 0 and 7, and five records. -/
def planned : State :=
  let s := host [.setPlan 0 2 1 2 0 2 2, .setPlan 2 1 1 4 508 4 4, .setMeter 0 0 1 0, .setMeter 7 0 31 1] (released 4)
  (((((s.setRecord 0
    { lamp .active .a 1 40417 with confirmed := true, capability := some true, lmin := 500 }).setRecord 1
    (lamp .probation .a 2 0)).setRecord 2
    { lamp .dark .b 254 9 with fault := some .thermal }).setRecord 3
    (lamp .retiring .a 3 5)).setRecord 511
    { lamp .silent .b 1 0 with misses := 3, changed := true })

/-- `planned` with portal 0 in AUTO, portal 1 in MANUAL and the follower of portal 0; portals 2 and 3 are HALTED. -/
def world : State := host [.start 0 0, .start 1 1, .setCoupling 1 0] planned

/-- `world` with EMERG_N asserted. -/
def crisis : State := play [.emergNAssertion] world

/-- The profile of section 2.8. -/
def profile28 : RawProfile :=
  { kp := 60, f2 := 500, f3 := 250, f4 := 120, f5 := 60, f6 := 30, lmax1 := 30000, lmax2 := 18000, lmax3 := 12000,
    lmax4 := 8000, lmax5 := 6000, lmax6 := 4000, lin := 400, dmin := 1000, w := 4, lfb := 8000, hold := 10, boost := 200 }

/-! ## Ill-formed terms -/

/-- A frame that passes the checks is no BAD_COMMAND_FRAME. -/
theorem test_wellFormed_refuses_good_frame : WellFormed (.badCommandFrame [1, 0x42, crc8 [1, 0x42]]) = false := by
  decide +kernel

/-- A transfer that begins with a selector is no IGNORED_TRANSFER. -/
theorem test_wellFormed_refuses_selector :
    WellFormed (.ignoredTransfer [0xA5]) = false ∧ WellFormed (.ignoredTransfer [0x5A, 0]) = false := by decide +kernel

/-- A reply without a character is no REPLY_RECEIVED. -/
theorem test_wellFormed_refuses_empty_reply : WellFormed (.replyReceived .a []) = false := by decide +kernel

/-! ## The check byte and the frames (R163, R164, section 10.10) -/

/-- The three properties of R164. -/
theorem test_crc8_properties : crc8 [0x31, 0x32, 0x33, 0x34, 0x35, 0x36, 0x37, 0x38, 0x39] = 0xF4 ∧ crc8 [0] = 0
    ∧ crc8 [0x31, 0x32, crc8 [0x31, 0x32]] = 0 := by decide +kernel

/-- No word of the table spells a command, and none is put in front of the queue. -/
theorem test_decodeTableWord_reads_no_word : decodeTableWord 8 1 = none ∧ world.withFetchWord 8 1 = world := by
  decide +kernel

/-- R163: the four frame checks, and a frame that passes. -/
theorem test_frame_checks : codes world
    [.badCommandFrame [], .badCommandFrame [2, 0x30, 0], .badCommandFrame [2, 0x30, 0, 0],
     .badCommandFrame [0, 0], .badCommandFrame [1, 0x03, crc8 [1, 0x03]],
     .badCommandFrame [1, 0x30, crc8 [1, 0x30]], .badCommandFrame [2, 0x42, 0, crc8 [2, 0x42, 0]],
     .badCommandFrame [2, 0x30, 0, crc8 [2, 0x30, 0], 7]]
    = [.badCheck, .badCheck, .badCheck, .badLength, .unknownCommand, .badLength, .badLength, .ok] := by decide +kernel

/-! ## The answers of the commands at the ends of their ranges -/

theorem test_setMeter_answers :
    codes world [.setMeter 8 0 2 0, .setMeter 1 2 2 0, .setMeter 1 0 0 0, .setMeter 1 0 32 0, .setMeter 1 0 2 4,
      .setMeter 1 0 31 3, .setMeter 7 0 31 3, .setMeter 1 0 2 3, .setMeter 0 1 0 0, .setMeter 1 1 0 0]
      = [.badValue, .badValue, .badValue, .badValue, .badValue, .addressInUse, .ok, .ok, .ok, .ok]
    ∧ codes (host [.setMeter 1 0 2 0] world) [.setMeter 2 0 3 0, .setMeter 1 0 3 0] = [.meterLimit, .ok] := by
  decide +kernel

theorem test_setProfile_answers :
    codes world [.setProfile 4 0 profile28, .setProfile 3 2 profile28, .setProfile 3 0 { profile28 with f3 := 501 },
      .setProfile 3 0 { profile28 with f2 := 1001, f3 := 1000 }, .setProfile 3 1 profile28, .setProfile 3 0 profile28,
      .setProfile 3 1 { profile28 with kp := 19 }]
      = [.badValue, .badValue, .badProfile, .clamped, .ok, .ok, .clamped] := by decide +kernel

theorem test_start_halt_answers :
    codes world [.start 4 0, .start 3 2, .start 0 0, .start 1 0, .start 3 1, .halt 4, .halt 3, .halt 0]
      = [.badValue, .badValue, .portalRunning, .portalRunning, .ok, .badValue, .ok, .ok]
    ∧ codes crisis [.start 0 0, .halt 0] = [.emergencyActive, .emergencyActive] := by decide +kernel

theorem test_setRamp_answers :
    codes world [.setRamp 4 2 1 1 0 10, .setRamp 3 2 1 1 0 10, .setRamp 3 40 10000 10000 500 600, .setRamp 3 1 1 1 0 10,
      .setRamp 3 41 1 1 0 10, .setRamp 3 2 0 1 0 10, .setRamp 3 2 1 10001 0 10, .setRamp 3 2 1 1 501 10,
      .setRamp 3 2 1 1 0 9, .setRamp 3 2 1 1 0 601]
      = [.badValue, .ok, .ok, .clamped, .clamped, .clamped, .clamped, .clamped, .clamped, .clamped] := by decide +kernel

theorem test_requestMode_setStageLevel_answers :
    codes world [.requestMode 4 0, .requestMode 0 2, .requestMode 3 0, .requestMode 0 0, .requestMode 0 1,
      .setStageLevel 4 1 0, .setStageLevel 1 0 0, .setStageLevel 1 7 0, .setStageLevel 0 1 0, .setStageLevel 1 6 10000,
      .setStageLevel 1 1 10001]
      = [.badValue, .badValue, .portalHalted, .ok, .ok, .badValue, .badValue, .badValue, .notManual, .ok, .clamped]
    ∧ codes crisis [.requestMode 0 1] = [.ok] := by decide +kernel

theorem test_setCoupling_answers :
    codes world [.setCoupling 4 0, .setCoupling 2 4, .setCoupling 2 254, .setCoupling 2 2, .setCoupling 2 1,
      .setCoupling 0 2, .setCoupling 2 0, .setCoupling 1 3, .setCoupling 1 255, .setCoupling 3 255]
      = [.badValue, .badValue, .badValue, .badCoupling, .badCoupling, .badCoupling, .ok, .ok, .ok, .ok] := by
  decide +kernel

theorem test_emergency_answers :
    codes world [.setEmergencyEnable 4 0, .setEmergencyEnable 3 2, .setEmergencyEnable 3 1, .release 4, .release 0]
      = [.badValue, .badValue, .ok, .badValue, .notEmergency]
    ∧ codes crisis [.release 0] = [.stillAsserted] ∧ codes (play [.emergNRelease] crisis) [.release 0] = [.ok] := by
  decide +kernel

theorem test_setPlan_answers :
    codes world [.setPlan 4 0 1 1 0 1 1, .setPlan 0 0 1 1 0 1 1, .setPlan 2 0 1 1 0 1 1, .setPlan 3 0 0 0 0 0 0,
      .setPlan 3 7 1 1 4 1 1, .setPlan 3 1 0 1 4 1 1, .setPlan 3 1 9 1 4 1 9, .setPlan 3 1 1 0 4 1 1,
      .setPlan 3 1 1 65 4 65 65, .setPlan 3 1 1 1 512 1 1, .setPlan 3 1 2 4 4 3 8, .setPlan 3 1 2 4 4 4 7,
      .setPlan 3 6 1 64 129 64 64, .setPlan 3 6 1 64 128 64 64, .setPlan 3 1 1 1 3 1 1, .setPlan 3 6 8 8 4 8 64,
      .setPlan 3 6 1 64 124 64 64]
      = [.badValue, .portalRunning, .planOccupied, .ok, .badPlan, .badPlan, .badPlan, .badPlan, .badPlan, .badPlan,
        .badPlan, .badPlan, .badPlan, .planOverlap, .planOverlap, .ok, .ok] := by decide +kernel

theorem test_admit_answers :
    codes world [.admitRecord 512 0 9 0 500 0, .admitRecord 4 0 9 0 500 0, .admitRecord 0 0 9 0 500 0,
      .admitRecord 508 2 9 0 500 0, .admitRecord 508 0 0 0 500 0, .admitRecord 508 0 255 0 500 0,
      .admitRecord 508 0 9 0 500 3, .admitRecord 508 0 3 0 500 0, .admitRecord 508 0 9 9 500 0,
      .admitRecord 508 0 254 0 500 2, .admitRecord 508 1 2 0 1000 0, .admitRecord 508 0 9 0 499 0,
      .admitRecord 508 0 9 0 1001 0]
      = [.badSlot, .outsidePlan, .slotOccupied, .badValue, .badValue, .badValue, .badValue, .addressInUse, .uidInUse, .ok,
        .ok, .clamped, .clamped]
    ∧ codes (host [.setPlan 2 1 1 4 508 4 4] (released 0)) [.admitRecord 508 1 9 0 500 0, .admitRecord 508 0 9 0 500 0]
      = [.noLine, .ok] := by decide +kernel

theorem test_amend_answers :
    codes world [.amend 512 0 0 0 0 0, .amend 0 32 0 0 0 0, .amend 0 12 0 0 0 0, .amend 0 2 0 3 0 0,
      .amend 508 0 0 0 0 0, .amend 3 0 0 0 0 0, .amend 0 16 0 0 0 7, .amend 1 16 0 0 0 9, .amend 1 16 0 0 0 7,
      .amend 0 31 0 0 0 0, .amend 0 1 1000 0 0 0, .amend 0 1 1001 0 0 0, .amend 0 4 0 0 10000 0, .amend 0 4 0 0 10001 0]
      = [.badSlot, .badValue, .badValue, .badValue, .slotVacant, .recordBusy, .recordBusy, .uidInUse, .ok, .badValue, .ok,
        .clamped, .ok, .clamped] := by decide +kernel

theorem test_move_answers :
    codes world [.move 512 0, .move 0 512, .move 508 509, .move 3 508, .move 0 4, .move 0 1, .move 0 0, .move 0 508]
      = [.badSlot, .badSlot, .slotVacant, .recordBusy, .outsidePlan, .slotOccupied, .slotOccupied, .ok] := by
  decide +kernel

/-- `world` with the admin queue of line A full. -/
def fullQueue : State :=
  world.setLine .a { world.line .a with admin := (List.range 16).map fun k => ⟨.identify, 100 + k⟩ }

theorem test_retire_clearFault_answers :
    codes world [.retire 512, .retire 508, .retire 3, .retire 0, .clearFault 512, .clearFault 508, .clearFault 3,
      .clearFault 2, .clearFault 0]
      = [.badSlot, .slotVacant, .recordBusy, .ok, .badSlot, .slotVacant, .recordBusy, .ok, .ok]
    ∧ codes fullQueue [.retire 0, .retire 2] = [.lineBusy, .ok] := by decide +kernel

theorem test_lookup_answers :
    codes world [.readRecord 512, .readRecord 511, .find 2 1, .find 0 0, .find 0 255, .find 0 77, .find 0 3, .find 1 254,
      .findUid 0, .findUid 8, .findUid 9, .list 512 255 63 0, .list 0 4 63 0, .list 0 254 63 0, .list 0 255 64 0,
      .list 0 255 63 2, .list 511 255 63 1]
      = [.badSlot, .ok, .badValue, .badValue, .badValue, .notFound, .ok, .ok, .badValue, .notFound, .ok, .badSlot, .badValue,
        .badValue, .badValue, .badValue, .ok]
    ∧ codes (released 0) [.find 1 1] = [.noLine] := by decide +kernel

theorem test_resweep_line_answers :
    codes world [.resweep 4, .resweep 3, .resweep 0, .setLine 2 1, .setLine 0 0, .setLine 0 1, .setLine 1 7, .setLine 1 8,
      .readLine 2, .readLine 1, .readStrays 2, .readStrays 1, .clearIgnore 2, .clearIgnore 1]
      = [.badValue, .portalHalted, .ok, .badValue, .clamped, .ok, .ok, .clamped, .badValue, .ok, .badValue, .ok, .badValue,
        .ok]
    ∧ codes (released 0) [.setLine 1 1, .readLine 1, .readStrays 1, .clearIgnore 1, .rejectStray 1 1]
      = [.noLine, .ok, .noLine, .noLine, .noLine] := by decide +kernel

/-- `world` with two strays on line A. -/
def strays : State :=
  (world.setLine .a { world.line .a with strays := [⟨88, some 61502, some true, some 3000⟩, ⟨90, none, none, none⟩] }).setNoticeClass
    (strayClass .a) { world.noticeClass (strayClass .a) with holds := true, pending := true }

theorem test_stray_answers :
    codes strays [.admitStray 0 88 512 500 0, .admitStray 0 88 4 500 0, .admitStray 0 88 0 500 0,
      .admitStray 0 88 508 500 3, .admitStray 0 2 508 500 0, .admitStray 0 89 508 500 0, .admitStray 0 90 508 500 0,
      .admitStray 0 88 508 1001 0, .rejectStray 2 88, .rejectStray 0 0, .rejectStray 0 255, .rejectStray 0 89,
      .rejectStray 0 90]
      = [.badSlot, .outsidePlan, .slotOccupied, .badValue, .addressInUse, .notFound, .ok, .clamped, .badValue, .badValue,
        .badValue, .notFound, .ok] := by decide +kernel

theorem test_notice_answers :
    codes world [.setPriority 32 8, .setPriority 254 8, .setPriority 31 1, .setPriority 255 15, .setPriority 0 0,
      .setPriority 0 16, .mask 32 0, .mask 255 2, .mask 31 1, .mask 255 0, .takeNotice, .finishNotice, .setAutoFinish 2,
      .setAutoFinish 1, .readNotices]
      = [.badValue, .badValue, .ok, .ok, .clamped, .clamped, .badValue, .badValue, .ok, .ok, .ok, .ok, .badValue, .ok,
        .ok] := by decide +kernel

theorem test_snapshot_answers :
    codes world [.snapshot 16 0, .snapshot 0 4, .snapshot 0 0, .snapshot 15 3, .readSnapshot 4, .readSnapshot 3,
      .readPortal 4, .readPortal 3, .readIdent, .restart]
      = [.badValue, .badValue, .ok, .ok, .badValue, .ok, .badValue, .ok, .ok, .ok] := by decide +kernel

/-! ## The worked examples of the spec -/

/-- The check byte taken with a message. -/
def checked (message : List Byte) : List Byte := message ++ [crc8 message]

/-- Section 10.10 steps 1 to 5: the FIND of address 21 held at slot 45, read three bytes short, whole, and again. -/
theorem test_find_and_reply_reads :
    let s := host [.badCommandFrame (checked [3, 0x27, 0, 21])] ((released 0).setRecord 45 (lamp .active .a 21 0))
    s.port.held = some ⟨.ok, [0, 45, 2]⟩
      ∧ (play [.replyRead 3] s).port = { s.port with miso := [0, 4, 0, 0] }
      ∧ (play [.replyRead 6] s).port = { s.port with held := none, miso := [0] ++ checked [4, 0, 0, 45, 2] }
      ∧ (play [.replyRead 6, .replyRead 2] s).port.miso = [0, 0, 0] := by decide +kernel

/-- R165: a transfer begun while READY is low leaves the reply in preparation as it is. -/
theorem test_discarded_transfer :
    (play [.readIdent, .discardedCommandTransfer [1, 2], .halt 9] (released 4)).port.preparing
      = some ⟨.ok, [4, 0x16, 1, 4, 0, 1, 0]⟩ := by decide +kernel

/-- R162: an ignored transfer clocks out zeros and leaves the port as it is. -/
theorem test_ignored_transfer :
    (play [.ignoredTransfer [1, 2, 3]] world) = { world with port := { world.port with miso := [0, 0, 0] } } := by
  decide +kernel

/-- The part after a release of RESET_N inside a transfer. -/
def interrupted : State := play [.resetNRelease 4 ⟨true, false⟩] State.reset

/-- R162: a transfer in progress at the release is ignored whole, whatever its bytes are, and the next one is taken. -/
theorem test_transfer_in_progress_at_release :
    misoPin interrupted = some false ∧ readyPin interrupted = true
      ∧ (play [.ignoredTransfer [0xA5, 1, 2, crc8 [1, 2]]] interrupted).port = ⟨true, none, none, false, [0, 0, 0, 0]⟩
      ∧ (play [.restart] interrupted).port = (play [.ignoredTransfer [0xA5, 1, 2, 3]] interrupted).port
      ∧ (play [.replyRead 1, .readIdent] interrupted).port.preparing = some ⟨.ok, [4, 0x16, 1, 4, 0, 1, 0]⟩
      ∧ misoPin (play [.replyRead 1] interrupted) = none := by decide +kernel

/-- R169 and section 10.7: both straps of the rate at 1 read as 19200, and EMERG_N high is asserted under STRAP3. -/
theorem test_release_of_reset :
    payload (play [.resetNRelease 0xB ⟨true, true⟩] State.reset) .readIdent = [4, 0x16, 1, 11, 0, 0, 1]
      ∧ ((play [.resetNRelease 0xB ⟨true, true⟩] State.reset).portal 3).mode = .emergency
      ∧ ((play [.resetNRelease 0x3 ⟨true, true⟩] State.reset).portal 3).mode = .halted
      ∧ play [.resetNAsserted] world = { State.reset with emergN := true } := by decide +kernel

/-- R114, R115, R169: the pins of the buses in a FRAME phase, after it, in a poll, and while RESET_N is low. -/
theorem test_pins :
    let g := play [.arbiterGrant .a] world
    (lineEnable g .a = true ∧ lineTx g .a = .sending (checked [1, 0x61, 0x27, 0x10]) ∧ lineTx g .b = .idle)
      ∧ (lineEnable (play [.frameEnd .a] g) .a = false ∧ lineTx (play [.frameEnd .a] g) .a = .idle)
      ∧ meterTx (play [.pollStart] world) = .sending (checked [1, 0x50]) ∧ meterEnable world = some false
      ∧ (meterTx (play [.resetNAsserted] g) = .idle ∧ lineEnable (play [.resetNAsserted] g) .a = false
        ∧ notifyPin State.reset = true ∧ readyPin State.reset = false) := by decide +kernel

/-- R168: RESTART keeps the plan and the site, and hands FALLBACK afresh only for a portal without a meter. -/
theorem test_restart :
    let s := host [.restart] world
    (s.plan 0 = world.plan 0 ∧ (s.meter 0).state = .awaiting ∧ (s.portal 0).condition = .unset
      ∧ (s.portal 2).condition = .fallback ∧ (s.record 3).state = .vacant ∧ (s.record 3).changed = true
      ∧ (s.record 511).misses = 0 ∧ s.lineA.state = .quiet) := by decide +kernel

/-- R35, R99, R112, R158: RESTART with EMERG_N asserted. Portal 2, without a meter, takes Lf 8000, so its only stage wants
48000 of 20000; portal 0 sweeps slots 0 and 2 of its two lines, portal 2 slot 511 of line B, and portal 1 has no plan. -/
theorem test_restart_hands_afresh :
    let s := host [.restart] crisis
    ((s.noticeClass (stageShortClass 2)).pending = true ∧ (s.noticeClass (stageShortClass 2)).holds = true
      ∧ (s.noticeClass (stageShortClass 0)).holds = false ∧ (s.portal 0).refreshTimer = some 60
      ∧ s.sweep 0 = ⟨some ⟨.emergency, ⟨some 0, .waiting⟩, ⟨some 0, .waiting⟩⟩, false, false⟩
      ∧ s.sweep 2 = ⟨some ⟨.emergency, ⟨none, .passed⟩, ⟨some 508, .waiting⟩⟩, false, false⟩
      ∧ s.sweep 1 = ⟨none, false, true⟩ ∧ (s.noticeClass (sweepDoneClass 1)).pending = true
      ∧ (s.noticeClass (sweepDoneClass 0)).pending = false) := by decide +kernel

/-- R12: the two examples of the filter. -/
theorem test_filter : filterStep 4 (some 4000) 4250 = 4063 ∧ filterStep 4 (some 4063) 3900 = 4022 := by decide +kernel

/-- A poll of meter 0 that is answered with this status and luminance. -/
def answered (status : Byte) (luminance : Nat) (s : State) : State :=
  let c := checked ([1, status] ++ put2 luminance)
  play [.pollStart, .pollCompletion (c.getD 0 0) (c.getD 1 0) (c.getD 2 0) (c.getD 3 0) (c.getD 4 0)] s

/-- R4 to R9: polls in turn; a VALID, a WARMING and a missed poll; and the loss of the meter. -/
theorem test_polls :
    ((play [.pollStart] world).poll = some 1 ∧ (play [.pollStart, .pollWindowClose, .pollStart] world).poll = some 31)
      ∧ ((answered 1 12001 world).meter 0).reading = some 12000 ∧ ((answered 1 4000 world).portal 0).lf = some 4000
      ∧ ((answered 2 4000 world).meter 0).status = some .warming ∧ ((answered 2 4000 world).portal 0).lf = none
      ∧ ((play [.pollStart, .pollWindowClose] world).meter 0).status = none
      ∧ ((play [.holdTimerExpiry 0] (answered 1 4000 world)).meter 0).state = .lost
      ∧ ((play [.holdTimerExpiry 0] (answered 1 4000 world)).noticeClass 1).pending = true
      ∧ ((play [.pollDue 0] (answered 1 4000 world)).meter 0).due = true := by decide +kernel

/-- Section 2.8: the targets for Lf = 4063 and Lf = 50, and the boundary of STAGE_SHORT for stage 1. -/
theorem test_targets :
    let x := { Portal.powerOn with active := (plainProfile profile28).clamped }
    (List.finRange 6).map (fun i => Portal.target { x with lf := some 4063 } i) = [8126, 6772, 5079, 3656, 2438, 1828]
      ∧ (List.finRange 6).map (fun i => Portal.target { x with lf := some 50 } i) = [1000, 1000, 1000, 1000, 1000, 1000]
      ∧ Portal.stageIsShort { x with lf := some 5000 } 6 0 = false ∧ Portal.stageIsShort { x with lf := some 5001 } 6 0 = true
      ∧ Portal.stageIsShort { x with lf := some 5001 } 0 0 = false := by decide +kernel

/-- R41 and section 2.8: the examples of the stage step. -/
theorem test_stage_steps :
    let r : RampSettings := { steps := 10, up := 2000, down := 100, deadband := 20, refresh := 60 }
    stepLevel r 1000 6772 7000 = 6900 ∧ stepLevel r 1000 6772 6800 = 6772 ∧ stepLevel r 1000 1000 1015 = 1000
      ∧ stepLevel r 0 0 15 = 0 ∧ stepLevel r 0 40 15 = 40 ∧ stepLevel r 0 30 15 = 15 := by decide +kernel

/-- R44, R48: one expiry of the leader steps the MANUAL follower too, and takes a mode request. -/
theorem test_ramp_expiry :
    let s := play [.rampExpiry 0] (host [.setStageLevel 1 1 9950, .requestMode 0 1] world)
    (s.portal 1).levels[0] = 9950 ∧ (s.portal 0).mode = .manual ∧ (s.noticeClass (modeSettledClass 0)).pending = true
      ∧ (s.sweep 1).done = true ∧ (s.sweep 0).owed = false := by decide +kernel

/-- R49, R51, R53: the assertion puts every portal into EMERGENCY, and RELEASE returns portal 0 to AUTO. -/
theorem test_emergency :
    (crisis.portal 0).returnMode = some .auto ∧ (crisis.portal 3).returnMode = some .halted
      ∧ (((crisis.sweep 0).running.map (·.cls)) = some .emergency)
      ∧ ((host [.release 0] (play [.emergNRelease] crisis)).portal 0).mode = .auto := by decide +kernel

/-- R57 and section 4.12: slot 45 is stage 2, row 0, position 5 of the plan 3, 2, 12, 0, 16, 40. -/
theorem test_coordinates :
    let q : Plan := { base := 0, stages := 3, rows := 2, positions := 12, rowStride := 16, stageStride := 40 }
    q.coords 45 = some ⟨1, 0, 5⟩ ∧ q.coords 12 = none ∧ q.highest = 107 ∧ q.wf = true := by decide +kernel

/-- R66, R71, R73, R75: what the roster commands leave. -/
theorem test_roster_commands :
    (host [.admitRecord 508 0 9 7 499 1] world).record 508
        = { lamp .probation .a 9 7 with m := 500, override := .forceOn }
      ∧ ((host [.amend 0 4 0 0 10001 0] world).record 0).pinned = some 10000
      ∧ (host [.move 0 509] world).record 509 = world.record 0
      ∧ (host [.retire 0] world).lineA.admin = [⟨.forget, 1⟩]
      ∧ ((host [.clearFault 2] world).record 2).state = .probation
      ∧ ((host [.readRecord 511] world).record 511).changed = false := by decide +kernel

/-- R76 to R79: the bytes of the lookups. -/
theorem test_lookup_replies :
    payload world (.find 1 254) = [0, 2, 3] ∧ payload world (.findUid 5) = [0, 3, 5]
      ∧ payload world (.list 0 0 0x3F 0) = [4, 0, 0, 0, 1, 0, 2, 0, 3, 255, 255]
      ∧ payload world (.list 508 2 1 0) = [3, 1, 252, 1, 253, 1, 254, 255, 255]
      ∧ payload world (.readRecord 0)
        = [0, 0, 2, 0, 1, 0, 0, 0, 0, 157, 225, 1, 3, 232, 0, 2, 1, 244, 0, 0, 0, 0, 0, 0, 0, 0, 0, 0, 0, 0, 1, 0, 1, 0, 0]
      := by decide +kernel

/-- Section 5.6: the row of eight with a DARK and a SILENT record, and its levels. -/
def row56 : State :=
  let s := host [.setPlan 0 6 2 8 0 8 16, .start 0 0] (released 4)
  let able := fun (state : RecordState) (a m : Nat) =>
    { lamp state .a a 0 with m := m, capability := some true, lmin := 500, confirmed := true }
  let t := (((((((s.setRecord 24 { able .active 1 1000 with capability := some false }).setRecord 25
    (able .active 2 850)).setRecord 26 { able .dark 3 950 with fault := some .open }).setRecord 27
    { lamp .active .b 4 0 with m := 850, override := .forceOn, capability := some false, lmin := 500 }).setRecord 29
    (able .silent 5 1000)).setRecord 30 { able .active 6 900 with override := .forceOff }).setRecord 31
    { able .active 7 1000 with pinned := some 4000 })
  t.setPortal 0 { t.portal 0 with levels := #v[0, 6900, 0, 0, 0, 0] }

theorem test_levels_of_row : [24, 25, 27, 29, 30, 31].map (levelOfSlot row56) = [6900, 9742, 9742, 6900, 7667, 4000] := by
  decide +kernel

/-- Section 6.11 with one record a line: a refresh starts a sweep, a grant sends LEVEL, and the end sets SWEEP_DONE. -/
theorem test_sweep :
    let s := host [.setPlan 3 1 1 2 200 2 2] (released 4)
    let t := host [.start 3 0] (((s.setRecord 200 (lamp .active .a 7 0)).setRecord 201 (lamp .probation .b 8 0)))
    let g := play [.arbiterGrant .a, .arbiterGrant .b] t
    let e := play [.frameEnd .a, .replyReceived .a (checked [7, 0xC1]), .exchangeCompletion .a []] g
    ((t.sweep 3).running = some ⟨.normal, ⟨some 200, .waiting⟩, ⟨some 200, .waiting⟩⟩
        ∧ waitingSlot t 3 .b 200 = some 201)
      ∧ g.lineA.state = .busy ⟨.level 10000, 7, .cursor 3, .frame⟩
      ∧ g.lineB.state = .busy ⟨.identify, 8, .cursor 3, .frame⟩ ∧ (g.record 200).lastSent = some 10000
      ∧ (e.record 200).lastAcked = some 10000 ∧ (e.sweep 3).running = some ⟨.normal, ⟨none, .passed⟩, ⟨some 201, .onLine 201⟩⟩
      ∧ ((play [.frameEnd .b, .replyWindowClose .b, .exchangeCompletion .b []] e).sweep 3) = ⟨none, false, true⟩ := by
  decide +kernel

/-- A sweep restarted while its exchange is on the line keeps its place (R107, section 6.11). -/
theorem test_refresh_timer :
    let s := play [.refreshTimerExpiry 0] world
    (s.sweep 0).owed = true ∧ (s.portal 0).refreshTimer = none := by decide +kernel

/-- Section 7.13 grants 1, 7 and 8: the admin queue first, a NORMAL cursor at a count of 4, then the service set. -/
theorem test_grants :
    let s := world.setLine .a { world.line .a with admin := [⟨.identify, 17⟩, ⟨.forget, 40⟩], service := [31, 12] }
    let g := play [.arbiterGrant .a] s
    let full := play [.arbiterGrant .a] (s.setLine .a { s.line .a with fairness := 4 })
    let served := play [.arbiterGrant .a] (s.setLine .a { s.line .a with admin := [] })
    (g.lineA.state = .busy ⟨.identify, 17, .admin, .frame⟩ ∧ g.lineA.fairness = 1 ∧ g.lineA.admin = [⟨.forget, 40⟩])
      ∧ (full.lineA.state = .busy ⟨.level 10000, 1, .cursor 0, .frame⟩ ∧ full.lineA.fairness = 0
          ∧ full.lineA.normalPointer = 0)
      ∧ served.lineA.state = .busy ⟨.query, 31, .service, .frame⟩ ∧ served.lineA.service = [12] := by decide +kernel

/-- Line A with a LEVEL frame of 6900 for address 1 from portal 0's cursor, in this phase. -/
def onLineA (f : LineFrame) (a : Nat) (ph : Phase) (s : State) : State :=
  s.setLine .a { s.line .a with state := .busy ⟨f, a, .admin, ph⟩ }

/-- R115: the phases of an exchange. -/
theorem test_exchange_phases :
    let s := onLineA (.level 6900) 1 .frame world
    let w := play [.frameEnd .a] s
    play [.frameEnd .a] s = onLineA (.level 6900) 1 .window world
      ∧ play [.replyWindowClose .a] w = onLineA (.level 6900) 1 (.slot [] []) world
      ∧ play [.replyBegun .a 1] w = onLineA (.level 6900) 1 (.reply [1]) world
      ∧ play [.replyBegun .a 1, .replyGapTimeout .a] w = onLineA (.level 6900) 1 (.slot [1] []) world
      ∧ play [.replyReceived .a (checked [1, 0xC1])] w = onLineA (.level 6900) 1 (.slot (checked [1, 0xC1]) []) world
      ∧ (play [.quietPeriodEnd .b] (play [.resetNRelease 4 ⟨true, true⟩] State.reset)).lineB.state = .idle := by decide +kernel

/-- The record of slot 0 after an exchange of this kind that received these characters. -/
def completed (f : LineFrame) (a : Nat) (got : List Byte) (s : State) : State :=
  play [.exchangeCompletion .a []] (onLineA f a (.slot got []) s)

/-- R121, R127: the first FAULT reply hands FAULT of line A over; the same reason again, with the class withdrawn, does not. -/
theorem test_repeated_fault_is_no_event :
    let c := lineEventClass .a .fault
    let first := completed (.level 6900) 1 (checked [1, 0xC3, 3]) world
    let quiet := first.setNoticeClass c { first.noticeClass c with pending := false }
    (first.noticeClass c).pending = true
      ∧ ((completed (.level 6900) 1 (checked [1, 0xC3, 3]) quiet).noticeClass c).pending = false
      ∧ ((completed (.level 6900) 1 (checked [1, 0xC3, 4]) quiet).noticeClass c).pending = true := by decide +kernel

/-- R119 to R126: misses, FAULT, IDENT, NEWS and FORGET. -/
theorem test_completions :
    ((completed (.level 6900) 1 [] world).record 0).misses = 1
      ∧ ((completed (.level 6900) 1 (checked [1, 0xC3, 2]) world).record 0).fault = some .short
      ∧ (completed .identify 2 (checked [2, 0xC4, 0, 0, 0, 0, 0x9D, 0xE2, 1, 0x0F, 0xA0]) world).record 1
          = { lamp .active .a 2 40418 with confirmed := true, capability := some true, lmin := 3000, changed := true }
      ∧ ((completed .identify 1 (checked [1, 0xC4, 0, 0, 0, 0, 0x9D, 0xE2, 1, 0, 0]) world).record 0).uid = 40418
      ∧ ((completed .query 1 (checked [1, 0xC6, 1, 4]) world).record 0).fault = some .supply
      ∧ (completed .query 1 (checked [1, 0xC6, 1, 4]) world).lineA.service = [1]
      ∧ (completed .forget 3 [] world).record 3 = Record.vacant true := by decide +kernel

/-- Section 8.6 steps 1, 3, 5, 7 and 8, each on its own. -/
theorem test_strays :
    let join := fun (a : Byte) (s : State) =>
      play [.exchangeCompletion .a (checked [0xE1, a])] (onLineA .forget 40 (.slot [] []) s)
    (join 88 world).lineA.strays = [⟨88, none, none, none⟩] ∧ (join 88 world).lineA.admin = [⟨.identify, 88⟩]
      ∧ ((join 88 world).noticeClass 24).pending = true
      ∧ (join 88 (join 88 world)).lineA.admin = [⟨.identify, 88⟩]
      ∧ (completed .identify 90 (checked [90, 0xC4, 0, 0, 0, 0, 0xF0, 0x3E, 1, 0x0E, 0x10]) strays).lineA.strays
        = [⟨88, some 61502, some true, some 3000⟩, ⟨90, some 61502, some true, some 3000⟩]
      ∧ (host [.rejectStray 0 90] strays).lineA.ignored = [90]
      ∧ (join 90 (host [.rejectStray 0 90] strays)).lineA.strays = [⟨88, some 61502, some true, some 3000⟩]
      ∧ (host [.admitStray 0 88 508 1000 0] strays).record 508
        = { lamp .probation .a 88 61502 with capability := some true, lmin := 3000 }
      ∧ payload strays (.readStrays 0)
        = [2, 88, 1, 0, 0, 0, 0, 240, 62, 2, 1, 11, 184, 90, 0, 0, 0, 0, 0, 0, 0, 0, 0, 0, 0, 0]
      ∧ (host [.clearIgnore 0, .setLine 0 1] (host [.rejectStray 0 90] strays)).lineA.ignored = [] := by decide +kernel

/-- R131: lowering the limit of line B to 1 leaves the SILENT record with a count of 1. -/
theorem test_setLine : ((host [.setLine 1 0] world).record 511).misses = 1 ∧ (host [.setLine 1 0] world).lineB.missLimit = 1
    ∧ payload world (.readLine 0) = [1, 0, 3, 1, 0, 0, 0, 0, 3, 3, 0, 0, 0, 0] := by decide +kernel

/-- Section 9.5 steps 2 and 6: class 26 is taken, then class 5 above it. -/
def notices : State :=
  let s := host [.mask 26 0, .mask 5 0, .setPriority 26 10, .setPriority 5 14] (released 4)
  s.setNoticeClass 26 { s.noticeClass 26 with pending := true }

theorem test_notices :
    let t := host [.takeNotice] notices
    let u := host [.takeNotice] (t.setNoticeClass 5 { t.noticeClass 5 with pending := true })
    notifyAsserted notices = true ∧ t.notices.stack = [⟨26, 10⟩] ∧ notifyAsserted t = false
      ∧ u.notices.stack = [⟨5, 14⟩, ⟨26, 10⟩] ∧ (host [.finishNotice] u).notices.stack = [⟨26, 10⟩]
      ∧ payload notices .takeNotice = [26, 10, 1] ∧ payload t .takeNotice = [255, 0, 1]
      ∧ payload u .finishNotice = [5, 0, 1] ∧ (payload u .readNotices).length = 51
      ∧ payload (host [.setAutoFinish 1] notices) .takeNotice = [26, 10, 0] := by decide +kernel

/-- R160, R161: a latched part stays as it was copied, a free one is live, and reading frees both. -/
theorem test_snapshots :
    let s := host [.snapshot 1 2] world
    (payload world (.snapshot 3 1) = [5, 0] ∧ payload s (.snapshot 1 3) = [1, 2])
      ∧ (s.snapshotOf 0).photo = none ∧ (s.snapshotOf 0).output.map (·.mode) = some .auto
      ∧ (host [.readSnapshot 0] s).snapshotOf 0 = ⟨none, none⟩
      ∧ (payload world (.readPortal 0)).length = 169 ∧ (payload world (.readPortal 3)).length = 161 := by decide +kernel

/-! ## States that meet the hypotheses of the statements

One theorem for each statement that has hypotheses: a state and operands that meet them together, and operands at the
ends of the clauses' ranges. The operands that meet each check of a command are those of its answers above. -/

/-- `world` with service, admin, stray, ignored and in-service entries, and a grant waiting in the queue. -/
def lively : State :=
  let s := strays.setLine .a { strays.line .a with service := [1], admin := [⟨.forget, 3⟩, ⟨.identify, 88⟩], ignored := [99] }
  { s with notices := { s.notices with stack := [⟨5, 14⟩, ⟨26, 10⟩] }, pending := [.arbiterGrant .a] }

theorem world_listening : world.listening := ⟨by decide +kernel, by decide +kernel, by decide +kernel⟩

theorem world_rosterLaw : RosterLaw world := rosterLaw_of_check (by decide +kernel)

theorem world_sweepLaw : SweepLaw world := (@sweepLaw_of_check world (by decide +kernel) : _)

theorem crisis_listening : crisis.listening := ⟨by decide +kernel, by decide +kernel, by decide +kernel⟩

theorem strays_listening : strays.listening := ⟨by decide +kernel, by decide +kernel, by decide +kernel⟩

theorem strays_rosterLaw : RosterLaw strays := rosterLaw_of_check (by decide +kernel)

theorem lively_steps : ∃ t, step lively = .next t := ⟨_, rfl⟩

theorem test_witness_StepRunsTheFrontCommand : world.pending = [] := by decide +kernel

theorem test_witness_CheckByteIsTheRemainder :
    Frame.parse (checked [3, 0x27, 0, 21]) = .ok (.find 0 21) ∧ acceptReply (.level 0) 254 (checked [254, 0xC1]) ≠ none
      ∧ readRequest (checked [0xE0, 1]) ≠ none ∧ readMeterReply 31 31 1 0x3F 0xFF (crc8 [31, 1, 0x3F, 0xFF]) ≠ none := by
  decide +kernel

theorem test_witness_CommandFramesParseBack :
    Frame.encode .takeNotice = some (checked [1, 0x42])
      ∧ Frame.encode (.findUid 0xFFFFFFFFFFFE) = some (checked [7, 0x28, 255, 255, 255, 255, 255, 254])
      ∧ (Frame.encode (.setProfile 3 1 profile28)).map (·.length) = some 45 := by decide +kernel

theorem test_witness_TypedCommandEqualsItsTransfer :
    Frame.encode (.find 0 21) = some (checked [3, 0x27, 0, 21])
      ∧ payload world (.find 0 1) = payload world (.badCommandFrame (checked [3, 0x27, 0, 1])) := by decide +kernel

theorem test_witness_FrameChecksAreMadeInOrder : world.listening := world_listening

theorem test_witness_ReplyReadSendsTheHeldReply :
    let s := host [.find 0 1] world
    s.resetN = true ∧ s.port.ignoring = false ∧ s.port.ready = true ∧ s.port.held = some ⟨.ok, [0, 0, 2]⟩
      ∧ (play [.replyRead 5] s).port.held = s.port.held ∧ (play [.replyRead 6] s).port.held = none
      ∧ (play [.find 0 1] world).port.ready = false ∧ (play [.replyRead 6] s).port.ready = true := by decide +kernel

theorem test_witness_ReadyAndTransfersThatAreNotTaken :
    let s := play [.find 0 1] world
    s.resetN = true ∧ s.port.ready = false ∧ s.port.preparing = some ⟨.ok, [0, 0, 2]⟩ ∧ s.port.ignoring = false
      ∧ (interrupted.resetN = true ∧ interrupted.port.ignoring = true)
      ∧ Frame.encode .takeNotice = some (checked [1, 0x42])
      ∧ ([] : List Byte).head? ≠ some 0xA5 ∧ ([0xA4] : List Byte).head? ≠ some 0x5A := by decide +kernel

theorem test_witness_RefusedCommandsChangeNothing : world.listening ∧ Frame.body (.release 0) ≠ none
    ∧ codes world [.release 0, .halt 0, .setLine 0 0] = [.notEmergency, .ok, .clamped] :=
  ⟨world_listening, by decide +kernel, by decide +kernel⟩

theorem test_witness_ReadIdentReportsTheSampledStraps : world.listening ∧ crisis.listening :=
  ⟨world_listening, crisis_listening⟩

theorem test_witness_ReleaseOfResetStartsThePart :
    let s := play [.resetNAsserted] crisis
    s.resetN = false ∧ ResetLaw s ∧ (s.emergN, crisis.straps.getLsbD 3) = (false, false) :=
  ⟨by decide +kernel, fun _ => by decide +kernel, by decide +kernel⟩

theorem test_witness_RestartResetsOperationAndKeepsConfiguration :
    world.listening ∧ rosterWf world.roster = true ∧ crisis.listening ∧ rosterWf crisis.roster = true
      ∧ (crisis.emergN = crisis.straps.getLsbD 3 ∧ (crisis.portal 0).emergencyEnable = true)
      ∧ (world.meter 0).site = some ⟨1, 0⟩ ∧ (∀ m, (world.meter m).site.all fun q => decide (q.portal ≠ 2)) :=
  ⟨world_listening, by decide +kernel, crisis_listening, by decide +kernel, by decide +kernel, by decide +kernel,
    by decide +kernel⟩

theorem world_photometryLaw : PhotometryLaw world := by unfold PhotometryLaw; decide +kernel

theorem world_couplingLaw : CouplingLaw world := by unfold CouplingLaw; decide +kernel

theorem test_witness_SetMeterConfiguresOrRemoves : world.listening ∧ CouplingLaw world ∧ PhotometryLaw world
    ∧ world.meter 6 = .unconfigured
    ∧ (world.meter 7).site = some ⟨31, 1⟩ ∧ codes world [.setMeter 7 1 0 0, .setMeter 6 0 30 3] = [.ok, .ok] :=
  ⟨world_listening, world_couplingLaw, world_photometryLaw, by decide +kernel, by decide +kernel, by decide +kernel⟩

theorem test_witness_PollsFollowTheTableInTurn :
    let after0 := play [.pollStart, .pollWindowClose] world
    (world.resetN = true ∧ world.poll = none ∧ world.lastPolled = none ∧ (world.meter 0).site = some ⟨1, 0⟩
        ∧ (world.meter 0).due = true)
      ∧ (after0.resetN = true ∧ after0.poll = none ∧ after0.lastPolled = some 0 ∧ (after0.meter 7).site = some ⟨31, 1⟩
        ∧ (after0.meter 7).due = true ∧ (after0.meter 0).due = false)
      ∧ (world.meter 3).site = none ∧ (play [.pollStart] world).poll = some 1
      ∧ (∀ k : Fin 8, ¬ (((play [.pollStart, .pollWindowClose] after0).meter k).due = true)) := by decide +kernel

/-- `world` with a poll of address 1 in progress. -/
def polling : State := play [.pollStart] world

theorem polling_meterTableLaw : MeterTableLaw polling := meterTableLaw_of_check (by decide +kernel)

theorem test_witness_PollsWithoutAReadingWriteOnlyTheStatus :
    polling.resetN = true ∧ MeterTableLaw polling ∧ polling.poll = some 1 ∧ (polling.meter 0).site = some ⟨1, 0⟩
      ∧ (∀ m, ((host [.setMeter 0 1 0 0] polling).meter m).site.all fun q => decide (q.address ≠ 1))
      ∧ (host [.setMeter 0 1 0 0] polling).poll = some 1
      ∧ ((play [.pollCompletion 1 1 0x40 0 (crc8 [1, 1, 0x40, 0])] polling).meter 0).status = none
      ∧ ((play [.pollCompletion 1 3 0x40 0 (crc8 [1, 3, 0x40, 0])] polling).meter 0).status = some .fault :=
  ⟨by decide +kernel, polling_meterTableLaw, by decide +kernel, by decide +kernel, by decide +kernel, by decide +kernel,
    by decide +kernel, by decide +kernel⟩

theorem polling_couplingLaw : CouplingLaw polling := by unfold CouplingLaw; decide +kernel

theorem test_witness_ValidReplyIsAReadingArrival :
    polling.resetN = true ∧ MeterTableLaw polling ∧ CouplingLaw polling ∧ (polling.meter 0).site = some ⟨1, 0⟩
      ∧ polling.poll = some 1 ∧ (0x3F : Byte).toNat * 256 + (0xFF : Byte).toNat ≤ 16383
      ∧ ((play [.pollCompletion 1 1 0x3F 0xFF (crc8 [1, 1, 0x3F, 0xFF])] polling).meter 0).reading = some 12000 :=
  ⟨by decide +kernel, polling_meterTableLaw, polling_couplingLaw, by decide +kernel, by decide +kernel, by decide +kernel,
    by decide +kernel⟩

/-- Portal 1 follows portal 0 and has no meter of its own. -/
def following : State := host [.setMeter 7 1 0 0] (answered 1 4000 world)

theorem following_couplingLaw : CouplingLaw following := by unfold CouplingLaw; decide +kernel

/-- `following` with the next poll of meter 0 in progress. -/
def borrowing : State := play [.pollDue 0, .pollStart] following

theorem borrowing_couplingLaw : CouplingLaw borrowing := by unfold CouplingLaw; decide +kernel

/-- A BORROWED follower filters from its own Lf; one that enters BORROWED without an Lf starts from the leader's. -/
theorem test_witness_FilterStepsTowardTheReadingAndFollowersBorrowIt :
    borrowing.resetN = true ∧ MeterTableLaw borrowing ∧ CouplingLaw borrowing ∧ (borrowing.meter 0).site = some ⟨1, 0⟩
      ∧ borrowing.poll = some 1 ∧ (borrowing.portal 1).leader = some 0 ∧ (borrowing.portal 1).condition = .borrowed
      ∧ ((answered 1 5000 following).portal 1).condition = .borrowed
      ∧ (polling.portal 1).leader = some 0 ∧ (polling.portal 1).condition = .unset ∧ (polling.portal 1).lf = none
      ∧ ((answered 1 5000 world).portal 1).condition = .borrowed ∧ ((answered 1 5000 world).portal 1).lf = some 5000
      ∧ ((answered 1 4000 (answered 1 5000 world)).portal 2).leader = none
      ∧ filterStep 1 (some 4007) 4000 = 4007 ∧ filterStep 16 (some 0) 12000 = 12000 :=
  ⟨by decide +kernel, meterTableLaw_of_check (by decide +kernel), borrowing_couplingLaw, by decide +kernel⟩

/-- R13 to R16: the larger of Lf and Lfb on the entry into FALLBACK, and Lf kept on the entry into BORROWED. -/
theorem test_condition_entries :
    ((play [.holdTimerExpiry 0] (answered 1 9000 world)).portal 0).lf = some 9000
      ∧ ((play [.holdTimerExpiry 0] (answered 1 4000 world)).portal 0).lf = some 8000
      ∧ ((host [.setCoupling 2 0] (answered 1 4000 world)).portal 2).condition = .borrowed
      ∧ ((host [.setCoupling 2 0] (answered 1 4000 world)).portal 2).lf = some 8000
      ∧ ((host [.setMeter 0 0 1 0] (answered 1 4000 world)).portal 0).lf = none := by decide +kernel

theorem test_witness_HoldTimerExpiryLosesTheMeter :
    world.resetN = true ∧ (world.meter 0).site = some ⟨1, 0⟩ ∧ (world.meter 0).hold ≠ none
      ∧ (world.meter 0).state = .awaiting ∧ (following.meter 0).state = .online ∧ (following.meter 0).hold ≠ none
      ∧ CouplingLaw following ∧ PhotometryLaw following :=
  ⟨by decide +kernel, by decide +kernel, by decide +kernel, by decide +kernel, by decide +kernel, by decide +kernel,
    following_couplingLaw, by unfold PhotometryLaw; decide +kernel⟩

theorem lively_laws : ResetLaw lively ∧ PortLaw lively ∧ LineBLaw lively ∧ MeterTableLaw lively ∧ CouplingLaw lively
    ∧ PhotometryLaw lively ∧ (∀ p, ModeLaw (lively.portal p)) ∧ RangeLaw lively ∧ RosterLaw lively ∧ MissLaw lively
    ∧ SweepLaw lively ∧ (∀ l, CollectionsLaw lively l) ∧ StackLaw lively ∧ MarksLaw lively := by
  refine ⟨fun h => absurd h (by decide +kernel), ?_, lineBLaw_of_check (by decide +kernel),
    meterTableLaw_of_check (by decide +kernel), ?_, ?_, ?_, rangeLaw_of_check (by decide +kernel),
    rosterLaw_of_check (by decide +kernel), missLaw_of_check (by decide +kernel),
    (@sweepLaw_of_check lively (by decide +kernel) : _),
    fun l => ?_, ?_, ?_⟩
  · unfold PortLaw; decide +kernel
  · unfold CouplingLaw; decide +kernel
  · unfold PhotometryLaw; decide +kernel
  · unfold ModeLaw; decide +kernel
  · cases l <;> exact collectionsLaw_of_check (by decide +kernel)
  · unfold StackLaw; decide +kernel
  · refine ⟨by decide +kernel, fun l => ?_, by decide +kernel⟩
    cases l <;> decide +kernel

theorem test_witness_StepKeepsMeterCouplingAndPhotometryLaws : ResetLaw lively ∧ MeterTableLaw lively
    ∧ CouplingLaw lively ∧ PhotometryLaw lively ∧ ∃ t, step lively = .next t :=
  ⟨lively_laws.1, lively_laws.2.2.2.1, lively_laws.2.2.2.2.1, lively_laws.2.2.2.2.2.1, lively_steps⟩

theorem test_witness_StageTargetsFollowTheFormula :
    let x := { Portal.powerOn with active := (plainProfile profile28).clamped, lf := some 12000 }
    (world.portal 0).lf = none ∧ x.lf = some 12000 ∧ 12000 ≤ 12000 ∧ x.active.inRange :=
  ⟨by decide +kernel, rfl, le_refl _, Profile.inRange_of_check (by decide +kernel)⟩

theorem test_witness_StageShortWhenDriveExceedsFull : (world.portal 0).active.inRange :=
  Profile.inRange_of_check (by decide +kernel)

theorem test_witness_SetProfileWritesClampedValues : world.listening
    ∧ codes world [.setProfile 0 0 profile28, .setProfile 3 1 profile28] = [.ok, .ok] :=
  ⟨world_listening, by decide +kernel⟩

theorem test_witness_StageStepIsLimitedAndNeverPassesItsTarget :
    let r : RampSettings := { steps := 10, up := 2000, down := 100, deadband := 20, refresh := 60 }
    (0 ≤ 10000 ∧ 10000 ≤ 10000) ∧ stepLevel r 1000 5000 4980 = 4980 ∧ stepLevel r 1000 5000 4979 = 5000
      ∧ stepLevel r 1000 5000 5021 = 5000 ∧ stepLevel r 1000 10000 9999 = 10000 ∧ stepLevel r 0 10000 7999 = 9999 := by
  decide +kernel

theorem test_witness_RampExpiryRunsThePhases :
    let s := host [.setStageLevel 1 1 9950, .requestMode 0 1] world
    s.resetN = true ∧ CouplingLaw s ∧ (s.portal 0).rampTimer ≠ none ∧ (s.portal 0).mode = .auto
      ∧ ((s.portal 1).leader = some 0 ∧ (s.portal 1).mode = .manual) ∧ (s.portal 0).pendingMode ≠ none
      ∧ (s.portal 1).expired.levels ≠ (s.portal 1).levels ∧ (s.portal 0).expired.levels = (s.portal 0).levels
      ∧ (s.portal 1).rampTimer ≠ none :=
  ⟨by decide +kernel, by unfold CouplingLaw; decide +kernel, by decide +kernel, by decide +kernel, by decide +kernel,
    by decide +kernel, by decide +kernel, by decide +kernel, by decide +kernel⟩

theorem test_witness_RampModeAndStageCommandsWriteTheirPortal : world.listening ∧ crisis.listening
    ∧ (crisis.portal 3).mode = .emergency ∧ codes crisis [.requestMode 3 1, .setRamp 3 2 1 1 0 10] = [.ok, .ok] :=
  ⟨world_listening, crisis_listening, by decide +kernel, by decide +kernel⟩

theorem test_witness_StartAndHaltChangeThePortalsMode : world.listening ∧ (world.portal 3).mode = .halted
    ∧ (world.portal 0).mode = .auto ∧ (world.sweep 0).running ≠ none ∧ (world.portal 1).mode = .manual
    ∧ (world.sweep 1).running = none ∧ crisis.listening :=
  ⟨world_listening, by decide +kernel, by decide +kernel, by decide +kernel, by decide +kernel, by decide +kernel,
    crisis_listening⟩

theorem test_witness_SetCouplingMakesOrBreaksACoupling : world.listening ∧ CouplingLaw world ∧ PhotometryLaw world
    ∧ (world.portal 1).leader = some 0
    ∧ (world.portal 3).leader = none ∧ codes world [.setCoupling 1 0, .setCoupling 3 0, .setCoupling 3 255] = [.ok, .ok, .ok] :=
  ⟨world_listening, world_couplingLaw, world_photometryLaw, by decide +kernel, by decide +kernel, by decide +kernel⟩

/-- `world` with the emergency enable of portal 2 off. -/
def disabled : State := host [.setEmergencyEnable 2 0] world

/-- `disabled` with EMERG_N asserted. -/
def held : State := play [.emergNAssertion] disabled

theorem test_witness_EmergencyPinAndEnableActAtOnce :
    disabled.resetN = true ∧ rosterWf disabled.roster = true ∧ SweepLaw disabled ∧ disabled.emergN ≠ disabled.straps.getLsbD 3
      ∧ ((disabled.portal 0).emergencyEnable = true ∧ (disabled.portal 0).mode ≠ .emergency)
      ∧ (disabled.portal 2).emergencyEnable = false
      ∧ held.listening ∧ rosterWf held.roster = true ∧ SweepLaw held ∧ held.emergN = held.straps.getLsbD 3
      ∧ (held.portal 2).mode ≠ .emergency ∧ (held.portal 3).mode = .emergency
      ∧ ((play [.arbiterGrant .b] disabled).sweep 0).running = some ⟨.normal, ⟨some 0, .waiting⟩, ⟨some 2, .onLine 2⟩⟩
      ∧ ((play [.arbiterGrant .b, .emergNAssertion] disabled).sweep 0).running
        = some ⟨.emergency, ⟨some 0, .waiting⟩, ⟨some 0, .onLineRestarted⟩⟩ :=
  ⟨by decide +kernel, by decide +kernel, (@sweepLaw_of_check disabled (by decide +kernel) : _), by decide +kernel,
    by decide +kernel, by decide +kernel, ⟨by decide +kernel, by decide +kernel, by decide +kernel⟩, by decide +kernel,
    (@sweepLaw_of_check held (by decide +kernel) : _), by decide +kernel, by decide +kernel,
    by decide +kernel, by decide +kernel, by decide +kernel⟩

theorem test_witness_ReleaseReturnsToTheReturnMode :
    let s := play [.emergNRelease] crisis
    s.listening ∧ (s.portal 0).mode = .emergency ∧ s.emergN ≠ s.straps.getLsbD 3 ∧ (s.portal 0).returnMode = some .auto
      ∧ (s.portal 3).returnMode = some .halted :=
  ⟨⟨by decide +kernel, by decide +kernel, by decide +kernel⟩, by decide +kernel, by decide +kernel, by decide +kernel, by decide +kernel⟩

theorem test_witness_StepKeepsModesAndRanges : rosterWf lively.roster = true ∧ (∀ p, ModeLaw (lively.portal p))
    ∧ RangeLaw lively ∧ ∃ t, step lively = .next t :=
  ⟨lively_laws.2.2.2.2.2.2.2.2.1.1, lively_laws.2.2.2.2.2.2.1, lively_laws.2.2.2.2.2.2.2.1, lively_steps⟩

theorem test_witness_StageLevelsChangeOnlyAtRampExpiriesAndEmergencyEntry : (∀ k, ModeLaw (lively.portal k))
    ∧ RangeLaw lively ∧ CouplingLaw lively ∧ ∃ t, exec (.rampExpiry 0) lively = .next t :=
  ⟨lively_laws.2.2.2.2.2.2.1, lively_laws.2.2.2.2.2.2.2.1, lively_laws.2.2.2.2.1, _, rfl⟩

theorem test_witness_ReadPortalReportsAndClearsLostFlags : (play [.holdTimerExpiry 0] world).listening
    ∧ rosterWf world.roster = true ∧ ((play [.holdTimerExpiry 0] world).meter 0).lost = true
    ∧ (world.portal 0).lf = none ∧ ((answered 1 4000 world).portal 0).lf = some 4000
    ∧ (payload (answered 1 4000 world) (.readPortal 0)).take 16 = [1, 1, 15, 160, 1, 15, 160, 1, 0, 1, 2, 1, 15, 160, 1, 0] :=
  ⟨⟨by decide +kernel, by decide +kernel, by decide +kernel⟩, by decide +kernel⟩

theorem test_witness_PlanSlotsFollowTheFormulaInWalkOrder :
    let q : Plan := { base := 508, stages := 1, rows := 1, positions := 4, rowStride := 4, stageStride := 4 }
    q.wf = true ∧ q.names 508 ∧ q.names 511 ∧ world.plan 2 = some q ∧ nextPosition world 2 510 = some 511
      ∧ nextPosition world 2 511 = none :=
  ⟨by decide +kernel, ⟨0, 0, 0, by decide⟩, ⟨0, 0, 3, by decide⟩, by decide +kernel, by decide +kernel, by decide +kernel⟩

theorem test_witness_SetPlanWritesOrRemovesAPlan : world.listening ∧ rosterWf world.roster = true
    ∧ (world.portal 3).mode = .halted ∧ (world.sweep 3).running = none
    ∧ codes world [.setPlan 3 0 0 0 0 0 0, .setPlan 3 1 1 1 507 1 1] = [.ok, .ok] :=
  ⟨world_listening, by decide +kernel, by decide +kernel, by decide +kernel, by decide +kernel⟩

theorem test_witness_AdmissionFillsTheSlot : world.listening ∧ RosterLaw world ∧ strays.listening ∧ RosterLaw strays
    ∧ codes strays [.admitRecord 508 1 253 0 500 2, .admitRecord 510 0 90 0 500 0, .admitStray 0 88 508 1000 0]
      = [.ok, .ok, .ok] :=
  ⟨world_listening, world_rosterLaw, strays_listening, strays_rosterLaw, by decide +kernel⟩

theorem test_witness_AmendMakesTheSelectedChanges : world.listening ∧ RosterLaw world
    ∧ codes world [.amend 0 0 0 0 0 0, .amend 1 0x17 500 2 10000 7, .amend 1 0x18 0 0 0 0] = [.ok, .ok, .ok] :=
  ⟨world_listening, world_rosterLaw, by decide +kernel⟩

theorem test_witness_MoveCarriesTheWholeRecord : world.listening ∧ RosterLaw world
    ∧ codes world [.move 511 508, .move 0 510] = [.ok, .ok] :=
  ⟨world_listening, world_rosterLaw, by decide +kernel⟩

theorem test_witness_RetireAndClearFaultChangeOneRecord : world.listening ∧ RosterLaw world
    ∧ (world.record 0).place = some ⟨.a, 1⟩ ∧ (world.record 2).state = .dark ∧ (world.record 511).state = .silent :=
  ⟨world_listening, world_rosterLaw, by decide +kernel, by decide +kernel, by decide +kernel⟩

theorem test_witness_ReadRecordReportsEveryFieldAndClearsTheMark : world.listening ∧ RosterLaw world
    ∧ (∀ p, inFootprint world p 4 = false) ∧ world.plan 2 = some ⟨508, 1, 1, 4, 4, 4⟩
    ∧ Plan.coords ⟨508, 1, 1, 4, 4, 4⟩ 511 = some ⟨0, 0, 3⟩ :=
  ⟨world_listening, world_rosterLaw, by decide +kernel, by decide +kernel, by decide +kernel⟩

theorem test_witness_FindAndListReportWithoutChange : world.listening ∧ RosterLaw world
    ∧ (world.record 2).at .b 254 = true ∧ (world.record 2).uid = 9
    ∧ codes world [.find 0 254, .findUid 0xFFFFFFFFFFFF, .list 511 255 63 1] = [.notFound, .notFound, .ok] :=
  ⟨world_listening, world_rosterLaw, by decide +kernel, by decide +kernel, by decide +kernel⟩

theorem test_witness_StepKeepsRosterLaw : RosterLaw lively ∧ ∃ t, step lively = .next t :=
  ⟨lively_laws.2.2.2.2.2.2.2.2.1, lively_steps⟩

theorem test_witness_LevelFollowsTheChain :
    FootprintLaw row56 ∧ RangeLaw row56 ∧ row56.plan 0 = some ⟨0, 6, 2, 8, 8, 16⟩
      ∧ Plan.coords ⟨0, 6, 2, 8, 8, 16⟩ 25 = some ⟨1, 1, 1⟩ ∧ (row56.portal 0).mode ≠ .emergency
      ∧ (row56.record 31).pinned = some 4000 ∧ (row56.portal 0).levels[1] ≠ 0
      ∧ (row56.record 26).state = .dark ∧ ((play [.emergNAssertion] row56).portal 0).mode = .emergency :=
  ⟨(rosterLaw_of_check (by decide +kernel)).2.2.2, rangeLaw_of_check (by decide +kernel), by decide +kernel,
    by decide +kernel, by decide +kernel, by decide +kernel, by decide +kernel, by decide +kernel, by decide +kernel⟩

theorem test_witness_SweepRequestsStartOrOweASweep : rosterWf world.roster = true ∧ SweepLaw world ∧ world.listening
    ∧ (world.sweep 0).running ≠ none ∧ (world.portal 0).refreshTimer ≠ none ∧ (world.portal 0).mode ≠ .halted
    ∧ (world.sweep 1).running = none ∧ (world.portal 1).refreshTimer ≠ none ∧ (world.portal 1).mode ≠ .halted
    ∧ (world.portal 3).refreshTimer = none :=
  ⟨by decide +kernel, @world_sweepLaw, world_listening, by decide +kernel, by decide +kernel, by decide +kernel,
    by decide +kernel, by decide +kernel, by decide +kernel, by decide +kernel⟩

theorem test_witness_StepKeepsSweepLaw : rosterWf lively.roster = true ∧ SweepLaw lively ∧ ∃ t, step lively = .next t := by
  obtain ⟨_, _, _, _, _, _, _, _, h1, _, h2, _⟩ := lively_laws
  exact ⟨h1.1, @h2, lively_steps⟩

theorem test_witness_ExchangePassesThroughItsPhases :
    world.resetN = true ∧ ((onLineA .query 1 (.reply [1]) world).line .a).state = .busy ⟨.query, 1, .admin, .reply [1]⟩
      ∧ (world.line .b).state = .idle ∧ ((play [.resetNRelease 4 ⟨true, true⟩] State.reset).line .b).state = .quiet
      ∧ (released 0).straps.getLsbD 2 = false
      ∧ replyLength (([1] ++ [0xC7, crc8 [1, 0xC7]]).getD 1 0) = some ([1] ++ [0xC7, crc8 [1, 0xC7]]).length
      ∧ (play [.replyBegun .a (crc8 [1, 0xC7])] (onLineA .query 1 (.reply [1, 0xC7]) world)).lineA.state
        = .busy ⟨.query, 1, .admin, .slot (checked [1, 0xC7]) []⟩ := by
  decide +kernel

theorem test_witness_AcceptableRepliesAreExactlyTheTable :
    acceptReply (.level 5) 7 (checked [7, 0xC3, 4]) = some (.fault .supply)
      ∧ acceptReply .identify 254 (checked [254, 0xC4, 255, 255, 255, 255, 255, 255, 0, 255, 255])
        = some (.ident 0xFFFFFFFFFFFF false 65535)
      ∧ acceptReply .query 7 (checked [7, 0xC6, 2, 0]) = some (.news true .recovered)
      ∧ acceptReply (.level 5) 7 (checked [7, 0xC7]) = none ∧ acceptReply .query 7 (checked [7, 0xC5, 1, 5]) = none := by
  decide +kernel

theorem test_witness_ArbiterGrantsInOrder :
    let s := world.setLine .a { world.line .a with fairness := 4 }
    s.resetN = true ∧ rosterWf s.roster = true ∧ (s.line .a).state = .idle ∧ CursorWaits s .a .normal 0 0
      ∧ CursorWaits crisis .a .emergency 0 0 ∧ (crisis.line .a).state = .idle ∧ crisis.resetN = true
      ∧ (lively.line .a).admin = [⟨.forget, 3⟩, ⟨.identify, 88⟩] ∧ (lively.line .a).fairness = 0
      ∧ (∀ k, ((released 4).sweep k).running = none) ∧ ((released 4).line .a).state = .idle :=
  ⟨by decide +kernel, by decide +kernel, by decide +kernel, ⟨⟨.normal, ⟨some 0, .waiting⟩, ⟨some 0, .waiting⟩⟩, 0, by decide +kernel⟩,
    ⟨⟨.emergency, ⟨some 0, .waiting⟩, ⟨some 0, .waiting⟩⟩, 0, by decide +kernel⟩, by decide +kernel, by decide +kernel,
    by decide +kernel, by decide +kernel, by decide +kernel, by decide +kernel⟩

theorem test_witness_SetLineSilencesAndReadLineReports : world.listening ∧ RosterLaw world
    ∧ (let s := world.setRecord 0 { world.record 0 with misses := 2 }
       s.listening ∧ RosterLaw s ∧ ((host [.setLine 0 2] s).record 0).state = .silent
        ∧ ((host [.setLine 0 3] s).record 0).state = .active) :=
  ⟨world_listening, world_rosterLaw, ⟨by decide +kernel, by decide +kernel, by decide +kernel⟩, rosterLaw_of_check (by decide +kernel),
    by decide +kernel, by decide +kernel⟩

/-- A completed exchange on line A that found the record of slot n. -/
def foundA (f : LineFrame) (a : Nat) (got : List Byte) : State := onLineA f a (.slot got []) world

theorem foundAt_of {f : LineFrame} {a n : Nat} {got : List Byte} (hr : rosterCheck (foundA f a got) = true)
    (hn : (foundA f a got).resetN = true ∧ ((foundA f a got).record n).at .a a = true) :
    FoundAt (foundA f a got) .a ⟨f, a, .admin, .frame⟩ got [] n :=
  ⟨hn.1, rosterLaw_of_check hr, rfl, hn.2⟩

theorem test_witness_MissesAcknowledgementsAndNewsReachTheRecord :
    (FoundAt (foundA (.level 6900) 1 (checked [1, 0xC1])) .a ⟨.level 6900, 1, .admin, .frame⟩ (checked [1, 0xC1]) [] 0
        ∧ MissLaw (foundA (.level 6900) 1 (checked [1, 0xC1])))
      ∧ (FoundAt (foundA .query 2 []) .a ⟨.query, 2, .admin, .frame⟩ [] [] 1 ∧ MissLaw (foundA .query 2 []))
      ∧ (world.record 0).state ≠ .retiring ∧ acceptReply (.level 6900) 1 (checked [1, 0xC1]) = some .ack
      ∧ ((completed (.level 0) 1 [] (world.setRecord 0 { world.record 0 with misses := 2 })).record 0).state = .silent :=
  ⟨⟨foundAt_of (by decide +kernel) (by decide +kernel), missLaw_of_check (by decide +kernel)⟩,
    ⟨foundAt_of (by decide +kernel) (by decide +kernel), missLaw_of_check (by decide +kernel)⟩, by decide +kernel,
    by decide +kernel, by decide +kernel⟩

theorem test_witness_IdentRepliesConfirmReplaceOrConflict :
    FoundAt (foundA .identify 2 (checked [2, 0xC4, 0, 0, 0, 0, 0, 9, 1, 0, 0])) .a ⟨.identify, 2, .admin, .frame⟩
        (checked [2, 0xC4, 0, 0, 0, 0, 0, 9, 1, 0, 0]) [] 1
      ∧ (world.record 1).state ≠ .retiring
      ∧ acceptReply .identify 2 (checked [2, 0xC4, 0, 0, 0, 0, 0, 9, 1, 0, 0]) = some (.ident 9 true 0)
      ∧ (world.record 2).uid = 9 ∧ (world.record 0).uid = 40417 :=
  ⟨foundAt_of (by decide +kernel) (by decide +kernel), by decide +kernel, by decide +kernel, by decide +kernel,
    by decide +kernel⟩

/-- The exchange of portal 0's cursor on line B for slot 2, its last record there, at the end of its request slot. -/
def lastOnB : State := play [.arbiterGrant .b, .frameEnd .b, .replyWindowClose .b] world

/-- `lastOnB` after its record has left the roster. -/
def orphaned : State := lastOnB.setRecord 2 (.vacant true)

theorem test_witness_ForgetVacatesAndOtherCompletionsAreDiscarded :
    (foundA .forget 3 []).resetN = true ∧ RosterLaw (foundA .forget 3 [])
      ∧ ((foundA .forget 3 []).line .a).state = .busy ⟨.forget, 3, .admin, .slot [] []⟩
      ∧ ((foundA .forget 3 []).record 3).at .a 3 = true ∧ (world.record 3).state = .retiring
      ∧ (∀ n, ((foundA .identify 90 []).record n).at .a 90 = false)
      ∧ (orphaned.resetN = true ∧ RosterLaw orphaned ∧ (∀ n, (orphaned.record n).at .b 254 = false)
        ∧ (orphaned.line .b).state = .busy ⟨.level 10000, 254, .cursor 0, .slot [] []⟩
        ∧ (orphaned.sweep 0).running = some ⟨.normal, ⟨some 0, .waiting⟩, ⟨some 2, .onLine 2⟩⟩)
      ∧ (play [.exchangeCompletion .b []] orphaned).sweep 0
        = ⟨some ⟨.normal, ⟨some 0, .waiting⟩, ⟨none, .passed⟩⟩, false, false⟩ :=
  ⟨by decide +kernel, rosterLaw_of_check (by decide +kernel), by decide +kernel, by decide +kernel, by decide +kernel,
    State.forall_record (P := fun r => r.at .a 90 = false) (by decide +kernel) (by decide +kernel),
    ⟨by decide +kernel, rosterLaw_of_check (by decide +kernel),
      State.forall_record (P := fun r => r.at .b 254 = false) (by decide +kernel) (by decide +kernel),
      by decide +kernel, by decide +kernel⟩, by decide +kernel⟩

/-- `lastOnB` with the cursor of line A PASSED and another sweep owed or not. -/
def lastOfSweep (owed : Bool) : State :=
  lastOnB.setSweep 0 { running := some ⟨.normal, ⟨none, .passed⟩, ⟨some 2, .onLine 2⟩⟩, owed := owed, done := false }

theorem test_witness_CompletionFreesTheLineAndMovesItsCursor :
    FoundAt lastOnB .b ⟨.level 10000, 254, .cursor 0, .frame⟩ [] [] 2 ∧ readRequest [] = none
      ∧ ((lastOnB.sweep 0).running = some ⟨.normal, ⟨some 0, .waiting⟩, ⟨some 2, .onLine 2⟩⟩
        ∧ nextPosition lastOnB 0 2 = some 3)
      ∧ (play [.exchangeCompletion .b []] lastOnB).sweep 0
        = ⟨some ⟨.normal, ⟨some 0, .waiting⟩, ⟨none, .passed⟩⟩, false, false⟩
      ∧ FoundAt (lastOfSweep false) .b ⟨.level 10000, 254, .cursor 0, .frame⟩ [] [] 2
      ∧ (play [.exchangeCompletion .b []] (lastOfSweep false)).sweep 0 = ⟨none, false, true⟩
      ∧ FoundAt (lastOfSweep true) .b ⟨.level 10000, 254, .cursor 0, .frame⟩ [] [] 2
      ∧ (play [.exchangeCompletion .b []] (lastOfSweep true)).sweep 0
        = ⟨some ⟨.normal, ⟨some 0, .waiting⟩, ⟨some 0, .waiting⟩⟩, false, false⟩ :=
  ⟨⟨by decide +kernel, rosterLaw_of_check (by decide +kernel), by decide +kernel, by decide +kernel⟩, by decide +kernel,
    by decide +kernel, by decide +kernel,
    ⟨by decide +kernel, rosterLaw_of_check (by decide +kernel), by decide +kernel, by decide +kernel⟩, by decide +kernel,
    ⟨by decide +kernel, rosterLaw_of_check (by decide +kernel), by decide +kernel, by decide +kernel⟩, by decide +kernel⟩

theorem test_witness_RequestsActOnTheLinesCollections : RosterLaw lively ∧ (lively.record 0).at .a 1 = true
    ∧ (lively.record 3).at .a 3 = true ∧ (lively.record 3).state = .retiring ∧ (lively.record 0).state ≠ .retiring
    ∧ (∀ n, (lively.record n).at .a 88 = false) ∧ 99 ∈ (lively.line .a).ignored ∧ (lively.line .a).strays.length < 8
    ∧ (∃ e, e ∈ (lively.line .a).strays ∧ e.address = 88) ∧ (lively.noticeClass (strayClass .a)).holds = true
    ∧ (world.line .a).strays = [] ∧ (world.noticeClass (strayClass .a)).holds = false
    ∧ readRequest (checked [0xE3, 254]) = some (.news true 254) ∧ readRequest (checked [0xE1, 255]) = none
    ∧ ((foundA .query 2 []).line .a).state = .busy ⟨.query, 2, .admin, .slot [] []⟩ :=
  ⟨lively_laws.2.2.2.2.2.2.2.2.1, by decide +kernel, by decide +kernel, by decide +kernel, by decide +kernel,
    State.forall_record (P := fun r => r.at .a 88 = false) (by decide +kernel) (by decide +kernel), by decide +kernel,
    by decide +kernel, ⟨⟨88, some 61502, some true, some 3000⟩, by decide +kernel⟩, by decide +kernel, by decide +kernel,
    by decide +kernel, by decide +kernel, by decide +kernel, by decide +kernel⟩

theorem test_witness_StepKeepsLineLaws : ResetLaw lively ∧ RosterLaw lively ∧ RangeLaw lively ∧ MissLaw lively
    ∧ LineBLaw lively ∧ (∀ l, CollectionsLaw lively l) ∧ ∃ t, step lively = .next t :=
  ⟨lively_laws.1, lively_laws.2.2.2.2.2.2.2.2.1, lively_laws.2.2.2.2.2.2.2.1, lively_laws.2.2.2.2.2.2.2.2.2.1,
    lively_laws.2.2.1, lively_laws.2.2.2.2.2.2.2.2.2.2.2.1, lively_steps⟩

theorem test_witness_StrayCommandsReadRejectAndClear : strays.listening ∧ lineCode .b = (1 : Byte).toNat
    ∧ codes strays [.readStrays 0, .clearIgnore 1, .rejectStray 0 88] = [.ok, .ok, .ok] :=
  ⟨strays_listening, by decide +kernel, by decide +kernel⟩

theorem test_witness_NoticeSettingsAreWrittenAndRead : world.listening
    ∧ codes world [.setPriority 31 15, .mask 255 1, .setAutoFinish 0, .readNotices] = [.ok, .ok, .ok, .ok] :=
  ⟨world_listening, by decide +kernel⟩

theorem test_witness_NoticesAreTakenByPriorityAndFinished :
    notices.listening ∧ notifyAsserted notices = true ∧ notices.notices.stack = []
      ∧ (host [.takeNotice] notices).notices.stack = [⟨26, 10⟩] ∧ (host [.takeNotice] notices).listening
      ∧ (host [.setAutoFinish 1] notices).notices.autoFinish = true :=
  ⟨⟨by decide +kernel, by decide +kernel, by decide +kernel⟩, by decide +kernel, by decide +kernel, by decide +kernel,
    ⟨by decide +kernel, by decide +kernel, by decide +kernel⟩, by decide +kernel⟩

theorem test_witness_StepKeepsResetPortAndNoticeLaws : ResetLaw lively ∧ PortLaw lively ∧ StackLaw lively
    ∧ MarksLaw lively ∧ ∃ t, step lively = .next t :=
  ⟨lively_laws.1, lively_laws.2.1, lively_laws.2.2.2.2.2.2.2.2.2.2.2.2.1, lively_laws.2.2.2.2.2.2.2.2.2.2.2.2.2,
    lively_steps⟩

theorem test_witness_SnapshotsLatchFreePartsAndAreRead : world.listening ∧ (host [.snapshot 15 3] world).listening
    ∧ ((host [.snapshot 15 3] world).snapshotOf 3).photo ≠ none
    ∧ codes world [.snapshot 15 3, .readSnapshot 3] = [.ok, .ok] :=
  ⟨world_listening, ⟨by decide +kernel, by decide +kernel, by decide +kernel⟩, by decide +kernel, by decide +kernel⟩

end Sys2Proof.Tests
end

section
/-! SUPPORT. The drive computation (R25 to R29): bounds of the rounding, of the stage luminance and of the stage target. -/

namespace Sys2Proof.Machine

/-! ## Rounding and clamping -/

theorem roundDiv_le {a b c : Nat} (hb : 0 < b) (hac : a ≤ b * c) : roundDiv a b ≤ c := by
  have hlt : 2 * a + b < 2 * b * (c + 1) := by
    rw [Nat.mul_assoc, Nat.mul_add, Nat.mul_one]
    omega
  exact Nat.le_of_lt_succ (Nat.div_lt_of_lt_mul hlt)

theorem roundDiv_zero {b : Nat} (hb : 0 < b) : roundDiv 0 b = 0 := Nat.le_zero.mp (roundDiv_le hb (Nat.zero_le _))

theorem le_clamp_and_clamp_le {low high : Nat} (h : low ≤ high) (n : Nat) :
    low ≤ clamp low high n ∧ clamp low high n ≤ high := by
  rw [clamp_eq_within h]
  exact ⟨Nat.le_max_left _ _, Nat.max_le.mpr ⟨h, Nat.min_le_left _ _⟩⟩

/-! ## The stage fraction (R19) -/

theorem Profile.fraction_eq_getD (v : Profile) (i : Fin 6) :
    v.fraction i = [1000, v.f2, v.f3, v.f4, v.f5, v.f6].getD i.val 0 := by
  fin_cases i <;> rfl

/-- R19: the fractions do not rise from f1 = 1000. -/
theorem Profile.inRange.fraction_le {v : Profile} (h : v.inRange) (i : Fin 6) : v.fraction i ≤ 1000 := by
  obtain ⟨-, ⟨h2, h3, h4, h5, h6⟩, -⟩ := h
  rw [v.fraction_eq_getD]
  fin_cases i <;> simp only [List.getD_cons_zero, List.getD_cons_succ] <;> omega

/-! ## The stage luminance (R26, R27) -/

theorem Profile.inRange.threshold_le {v : Profile} (h : v.inRange) {lf : Nat} (hlf : lf ≤ 12000) :
    threshold v lf ≤ 144000 := by
  obtain ⟨⟨-, hkp⟩, -⟩ := h
  have hproduct : lf * v.kp ≤ 12000 * 120 := Nat.mul_le_mul hlf hkp
  exact roundDiv_le (by decide) (by omega)

/-- R27: a stage's share of the threshold luminance is at most the whole, as no fraction is above 1000. -/
theorem Profile.inRange.stageLuminance_le {v : Profile} (h : v.inRange) {lf : Nat} (hlf : lf ≤ 12000) (i : Fin 6) :
    stageLuminance v lf i ≤ 144000 := by
  have hpart : roundDiv (threshold v lf * v.fraction i) 1000 ≤ 144000 :=
    roundDiv_le (by decide) <| by
      rw [Nat.mul_comm 1000]
      exact Nat.mul_le_mul (h.threshold_le hlf) (h.fraction_le i)
  obtain ⟨-, -, -, hlin, -⟩ := h
  exact Nat.max_le.mpr ⟨hpart, by omega⟩

theorem stageLuminance_of_fraction_zero {v : Profile} {i : Fin 6} (h : v.fraction i = 0) (lf : Nat) :
    stageLuminance v lf i = v.lin := by
  rw [stageLuminance, h, Nat.mul_zero, roundDiv_zero (by decide), Nat.zero_max]

/-! ## The stage target (R28, R29) -/

theorem Portal.target_of_lf_none {x : Portal} (h : x.lf = none) (i : Fin 6) : x.target i = 10000 := by
  rw [Portal.target, h]
  rfl

theorem Portal.target_of_lf_some {x : Portal} {lf : Nat} (h : x.lf = some lf) (i : Fin 6) :
    x.target i = clamp x.active.dmin 10000 (unclampedDrive x.active lf i) := by
  rw [Portal.target, h]
  rfl

/-- Settles O21: the rounded quotients of R26 to R28 are the model's own, bounded by the ranges of R19; the target is
the unclamped drive clamped to dmin and 10000, which are a range because dmin is at most 3000. -/
theorem stageTargetsFollowTheFormula : Obligations.StageTargetsFollowTheFormula := by
  refine ⟨fun x i hlf => x.target_of_lf_none hlf i, fun x lf i hlf hle hv => ?_⟩
  have ⟨_, _, hlmax, _, hdmin, _⟩ := hv
  have hlmaxPos : 0 < x.active.lmax[i] := Nat.lt_of_lt_of_le (by decide) (hlmax i).1
  have hbounds := le_clamp_and_clamp_le (Nat.le_trans hdmin (by decide : 3000 ≤ 10000)) (unclampedDrive x.active lf i)
  have htarget := x.target_of_lf_some hlf i
  intro v fraction
  have hfraction : x.active.fraction i = fraction := x.active.fraction_eq_getD i
  refine ⟨threshold v lf, roundDiv (threshold v lf * fraction) 1000, stageLuminance v lf i, unclampedDrive v lf i,
    roundDiv_rounds (by decide), hv.threshold_le hle, roundDiv_rounds (by decide), ?luminance, hv.stageLuminance_le hle i,
    ?zeroFraction, roundDiv_rounds hlmaxPos, htarget, ?targetBounds⟩
  case luminance => rw [← hfraction, stageLuminance]
  case zeroFraction => exact fun h => stageLuminance_of_fraction_zero (hfraction.trans h) lf
  case targetBounds => rwa [htarget]

end Sys2Proof.Machine
end

section
/-! SUPPORT. FIND, FIND_UID and LIST (R77 to R79): what the operands name, what a lookup finds under the roster's laws, and
which slots LIST reports. -/

namespace Sys2Proof.Machine

/-! ## Reply fields and operands -/

theorem bytesOf_one (n : Nat) : bytesOf 1 n = put1 n := by
  simp [bytesOf, put1]

theorem bytesOf_two (n : Nat) : bytesOf 2 n = put2 n := by
  simp [bytesOf, put2, put1, List.range_succ]

theorem lineOf_eq (b : Byte) :
    lineOf b = if b.toNat = 0 then some .a else if b.toNat = 1 then some .b else none := by
  simp only [lineOf, ← BitVec.toNat_inj]
  rfl

theorem lineOf_eq_some {b : Byte} {l : Line} : lineOf b = some l ↔ lineCode l = b.toNat := by
  rw [lineOf_eq]
  cases l with
  | a => split_ifs <;> simp [lineCode] <;> omega
  | b => split_ifs <;> simp [lineCode] <;> omega

theorem lineOf_eq_none {b : Byte} : lineOf b = none ↔ 1 < b.toNat := by
  rw [lineOf_eq]
  split_ifs <;> simp <;> omega

theorem addressOf_of_reserved {b : Byte} (h : b = 0 ∨ b = 255) : addressOf b = none := if_pos h

theorem addressOf_of_not_reserved {b : Byte} (h : ¬ (b = 0 ∨ b = 255)) : addressOf b = some b.toNat := if_neg h

/-- R169: the one line that can be absent is B, with STRAP2 low. -/
theorem State.linePresent_eq_false {s : State} {l : Line} :
    s.linePresent l = false ↔ lineCode l = 1 ∧ s.straps.getLsbD 2 = false := by
  cases l <;> simp [State.linePresent, lineCode]

theorem slotOf_of_le {h : Half} (hle : ¬ 511 < h.toNat) : slotOf h = some h.toNat :=
  if_pos (Nat.lt_succ_of_le (Nat.not_lt.mp hle))

theorem slotOf_of_gt {h : Half} (hgt : 511 < h.toNat) : slotOf h = none := if_neg (Nat.not_lt.mpr hgt)

theorem portalOf_eq_some {b : Byte} {p : Fin 4} : portalOf b = some p ↔ p.val = b.toNat := by
  unfold portalOf
  split <;> simp [Fin.ext_iff] <;> omega

/-! ## What the lookups find under the laws of the roster (R63) -/

theorem RosterLaw.lookup_eq_some {s : State} (h : RosterLaw s) {l : Line} {a n : Nat} :
    s.lookup l a = some n ↔ (s.record n).at l a = true := by
  obtain ⟨hwf, -, hunique, -⟩ := h
  refine ⟨State.at_of_lookup hwf, fun hn => ?_⟩
  cases hfound : s.lookup l a with
  | none => exact absurd hn (by simp [State.lookup_eq_none hwf |>.mp hfound n])
  | some k =>
    obtain ⟨hnv, hnplace⟩ := Record.at_iff.mp hn
    obtain ⟨hkv, hkplace⟩ := Record.at_iff.mp (State.at_of_lookup hwf hfound)
    exact congrArg some (hunique k n hkv hnv (.inl (hkplace.trans hnplace.symm)))

theorem RosterLaw.lookupUid_eq_some {s : State} (h : RosterLaw s) {uid n : Nat} (hne : uid ≠ 0) :
    s.lookupUid uid = some n ↔ (s.record n).nonVacant = true ∧ (s.record n).uid = uid := by
  obtain ⟨hwf, -, hunique, -⟩ := h
  refine ⟨State.uid_of_lookupUid hwf, fun hn => ?_⟩
  cases hfound : s.lookupUid uid with
  | none => exact absurd hn (State.lookupUid_eq_none hwf |>.mp hfound n)
  | some k =>
    obtain ⟨hnv, hnuid⟩ := hn
    obtain ⟨hkv, hkuid⟩ := State.uid_of_lookupUid hwf hfound
    exact congrArg some (hunique k n hkv hnv (.inr ⟨hkuid.trans_ne hne, hkuid.trans hnuid.symm⟩))

/-- R77, R78: a command that answers from a lookup reports the slot that the lookup is for, or NOT_FOUND. -/
theorem reports_of_foundAnswer {c : Instr} {s : State} {width : Nat} {work : State → Answered} {found : Option Nat}
    {sought : Nat → Prop} (hc : exec c s = takeCommand width work s) (hs : s.listening)
    (hw : work s = foundAnswer found s) (hfound : ∀ n, found = some n ↔ sought n) :
    (∀ n, sought n → Answers c s .ok (bytesOf 2 n ++ bytesOf 1 (s.record n).state.code) s)
      ∧ ((∀ n, ¬ sought n) → Refuses c s .notFound) := by
  constructor
  · intro n hn
    rw [bytesOf_one, bytesOf_two]
    exact Answers.of_work hc hs (by rw [hw, (hfound n).mpr hn]; rfl) rfl
  · intro hnone
    have hfound : found = none := Option.eq_none_iff_forall_ne_some.mpr fun n h => hnone n ((hfound n).mp h)
    exact Refuses.of_work hc hs (by rw [hw, hfound]; rfl)

/-! ## FIND and FIND_UID (R77, R78) -/

theorem findCommand_badValue {line address : Byte} (h : 1 < line.toNat ∨ address = 0 ∨ address = 255) (s : State) :
    findCommand line address s = refuse .badValue s := by
  unfold findCommand
  rcases h with hline | haddress
  · rw [lineOf_eq_none.mpr hline]
  · rw [addressOf_of_reserved haddress]
    cases lineOf line <;> rfl

theorem findCommand_of_operands {line address : Byte} {l : Line} (hl : lineCode l = line.toNat)
    (ha : ¬ (address = 0 ∨ address = 255)) (s : State) :
    findCommand line address s
      = if s.linePresent l then foundAnswer (s.lookup l address.toNat) s else refuse .noLine s := by
  rw [findCommand, lineOf_eq_some.mpr hl, addressOf_of_not_reserved ha]

theorem find_reports {s : State} (hs : s.listening) (h : RosterLaw s) (line address : Byte) :
    Checked (.find line address) s
      [(1 < line.toNat ∨ address = 0 ∨ address = 255, .badValue), (line = 1 ∧ s.straps.getLsbD 2 = false, .noLine)]
      (∀ l, lineCode l = line.toNat →
        (∀ n, (s.record n).at l address.toNat = true →
          Answers (.find line address) s .ok (bytesOf 2 n ++ bytesOf 1 (s.record n).state.code) s)
        ∧ ((∀ n, (s.record n).at l address.toNat = false) → Refuses (.find line address) s .notFound)) := by
  have hc : exec (.find line address) s = takeCommand 2 (findCommand line address) s := rfl
  refine .cons (fun hbad => Refuses.of_work hc hs (findCommand_badValue hbad s)) fun hgood => ?_
  obtain ⟨-, haddress⟩ := not_or.mp hgood
  refine .cons (fun ⟨hline, hstrap⟩ => ?absentLine) fun hpresent => .nil fun l hl => ?lookup
  case absentLine =>
    subst hline
    have hl : lineCode .b = (1 : Byte).toNat := rfl
    have habsent : s.linePresent .b = false := State.linePresent_eq_false.mpr ⟨rfl, hstrap⟩
    exact Refuses.of_work hc hs (by rw [findCommand_of_operands hl haddress, habsent]; rfl)
  case lookup =>
    have hline : line = 1 ↔ lineCode l = 1 := hl ▸ BitVec.toNat_inj.symm
    have hpresent : s.linePresent l = true := by
      rwa [hline, ← State.linePresent_eq_false, Bool.not_eq_false] at hpresent
    have hw : findCommand line address s = foundAnswer (s.lookup l address.toNat) s :=
      (findCommand_of_operands hl haddress s).trans (if_pos hpresent)
    simpa only [Bool.not_eq_true] using reports_of_foundAnswer hc hs hw fun _ => h.lookup_eq_some

theorem findUid_reports {s : State} (hs : s.listening) (h : RosterLaw s) (uid : UidField) :
    Checked (.findUid uid) s [(uid = 0, .badValue)]
      ((∀ n, (s.record n).nonVacant = true → (s.record n).uid = uid.toNat →
          Answers (.findUid uid) s .ok (bytesOf 2 n ++ bytesOf 1 (s.record n).state.code) s)
        ∧ ((∀ n, ¬ ((s.record n).nonVacant = true ∧ (s.record n).uid = uid.toNat)) →
          Refuses (.findUid uid) s .notFound)) := by
  have hc : exec (.findUid uid) s = takeCommand 6 (findUidCommand uid) s := rfl
  refine .cons (fun hzero => Refuses.of_work hc hs (if_pos hzero)) fun hne => .nil ?_
  have huid : uid.toNat ≠ 0 := fun hzero => hne (BitVec.eq_of_toNat_eq hzero)
  obtain ⟨hreport, hnone⟩ := reports_of_foundAnswer hc hs (if_neg hne) fun _ => h.lookupUid_eq_some huid
  exact ⟨fun n hv hn => hreport n ⟨hv, hn⟩, hnone⟩

/-! ## LIST (R79) -/

/-- R57: footprints share no slot, so a slot's portal is the one whose footprint holds it. -/
theorem FootprintLaw.portalOfSlot_eq_some {s : State} (h : FootprintLaw s) {p : Fin 4} {n : Nat} :
    portalOfSlot s n = some p ↔ inFootprint s p n = true :=
  ⟨fun hfound => List.find?_some (p := fun p => inFootprint s p n) hfound, fun hn => portalOfSlot_eq hn (h.unique hn)⟩

theorem listMatches_iff {s : State} (h : FootprintLaw s) {portal : Byte} (hp : ¬ (3 < portal.toNat ∧ portal ≠ 255))
    (states changed : Byte) (n : Nat) :
    listMatches s portal states changed n = true ↔ states.getLsbD (s.record n).state.code = true
      ∧ (portal = 255 ∨ ∃ p : Fin 4, p.val = portal.toNat ∧ inFootprint s p n = true)
      ∧ (changed = 0 ∨ (s.record n).changed = true) := by
  have hportal : (portal = 255 ∨ portalOfSlot s n = portalOf portal)
      ↔ portal = 255 ∨ ∃ p : Fin 4, p.val = portal.toNat ∧ inFootprint s p n = true := by
    refine or_congr_right' fun hne => ?_
    have hlt : portal.toNat < 4 := Nat.lt_succ_of_le (Nat.not_lt.mp fun hgt => hp ⟨hgt, hne⟩)
    rw [portalOf_eq_some (p := ⟨portal.toNat, hlt⟩) |>.mpr rfl, h.portalOfSlot_eq_some]
    exact ⟨fun hn => ⟨_, rfl, hn⟩, fun ⟨p, hval, hn⟩ => (Fin.ext hval : p = ⟨_, hlt⟩) ▸ hn⟩
  simp only [listMatches, Bool.and_eq_true, Bool.or_eq_true, beq_iff_eq, hportal, and_assoc]

theorem mem_listSlots {s : State} {start n : Nat} {portal states changed : Byte} :
    n ∈ listSlots s start portal states changed
      ↔ start ≤ n ∧ n ≤ 511 ∧ listMatches s portal states changed n = true := by
  simp only [listSlots, List.mem_filter, List.mem_range, Bool.and_eq_true, decide_eq_true_eq, Config.slots, Nat.lt_succ_iff]
  exact and_left_comm

theorem pairwise_lt_listSlots (s : State) (start : Nat) (portal states changed : Byte) :
    (listSlots s start portal states changed).Pairwise (· < ·) :=
  List.pairwise_lt_range.filter _

/-- R171: the count, the first eight slots, and the ninth or END. -/
theorem listBytes_eq (slots : List Nat) :
    listBytes slots = bytesOf 1 (min 8 slots.length) ++ (slots.take 8).flatMap (bytesOf 2)
      ++ bytesOf 2 (slots.getD 8 65535) := by
  have hnext : (slots.drop 8).headD 65535 = slots.getD 8 65535 := by
    rw [List.headD_eq_head?_getD, List.head?_drop, List.getD_eq_getElem?_getD]
  rw [listBytes, List.length_take, hnext, bytesOf_one, bytesOf_two, funext bytesOf_two]

theorem listCommand_badSlot {start : Half} (h : 511 < start.toNat) (portal states changed : Byte) (s : State) :
    listCommand start portal states changed s = refuse .badSlot s := by
  rw [listCommand, slotOf_of_gt h]

theorem listCommand_of_slot {start : Half} (h : ¬ 511 < start.toNat) (portal states changed : Byte) (s : State) :
    listCommand start portal states changed s
      = if 3 < portal.toNat ∧ portal ≠ 255 ∨ 64 ≤ states.toNat ∨ 1 < changed.toNat then refuse .badValue s
        else answer (listBytes (listSlots s start.toNat portal states changed)) s := by
  have hportal : portal ≠ 255 ↔ portal.toNat < 255 := by bv_omega
  simp only [listCommand, slotOf_of_le h, hportal]

theorem list_reports {s : State} (hs : s.listening) (h : FootprintLaw s) (start : Half) (portal states changed : Byte) :
    Checked (.list start portal states changed) s
      [(511 < start.toNat, .badSlot),
       (3 < portal.toNat ∧ portal ≠ 255 ∨ 64 ≤ states.toNat ∨ 1 < changed.toNat, .badValue)]
      (∃ slots : List Nat, slots.Pairwise (· < ·)
        ∧ (∀ n, n ∈ slots ↔ start.toNat ≤ n ∧ n ≤ 511 ∧ states.getLsbD (s.record n).state.code = true
            ∧ (portal = 255 ∨ ∃ p : Fin 4, p.val = portal.toNat ∧ inFootprint s p n = true)
            ∧ (changed = 0 ∨ (s.record n).changed = true))
        ∧ Answers (.list start portal states changed) s .ok
            (bytesOf 1 (min 8 slots.length) ++ (slots.take 8).flatMap (bytesOf 2)
              ++ bytesOf 2 (slots.getD 8 65535)) s) := by
  have hc : exec (.list start portal states changed) s = takeCommand 5 (listCommand start portal states changed) s := rfl
  refine .cons (fun hbad => Refuses.of_work hc hs (listCommand_badSlot hbad ..)) fun hstart => ?_
  have hw := listCommand_of_slot hstart portal states changed s
  refine .cons (fun hbad => Refuses.of_work hc hs (hw.trans (if_pos hbad))) fun hgood => .nil ?_
  obtain ⟨hportal, -⟩ := not_or.mp hgood
  refine ⟨listSlots s start.toNat portal states changed, pairwise_lt_listSlots .., fun n => ?members, ?reply⟩
  case members => rw [mem_listSlots, listMatches_iff h hportal]
  case reply =>
    rw [← listBytes_eq]
    exact Answers.of_work hc hs (hw.trans (if_neg hgood)) rfl

/-- Settles O41: under the laws of the roster a lookup finds exactly the one record sought, and the slots LIST reports are
the filtered slots in rising order; each command's own rule gives back the state it was given. -/
theorem findAndListReportWithoutChange : Obligations.FindAndListReportWithoutChange :=
  fun _ hs h => ⟨find_reports hs h, findUid_reports hs h, list_reports hs h.2.2.2⟩

end Sys2Proof.Machine
end

section
/-! SUPPORT. NOTIFY_N, TAKE_NOTICE and FINISH_NOTICE (R153 to R155): which classes are eligible, which of them is picked, and
what is popped. -/

namespace Sys2Proof.Machine

/-! ## Eligibility (R153) -/

theorem mem_allClasses (k : Fin 32) : k ∈ allClasses := List.mem_finRange k

theorem putFlag_eq_flagByte (b : Bool) : putFlag b = [flagByte b] := by
  cases b <;> rfl

theorem topPriority_eq (s : State) : topPriority s = (s.notices.stack.head?.map (·.priority)).getD 0 := by
  unfold topPriority
  cases s.notices.stack <;> rfl

theorem inService_eq_false {s : State} {k : Fin 32} : inService s k = false ↔ ∀ e, e ∈ s.notices.stack → e.cls ≠ k := by
  simp [inService]

theorem eligible_iff {s : State} {k : Fin 32} :
    eligible s k = true ↔ (s.noticeClass k).pending = true ∧ (s.noticeClass k).masked = false
      ∧ (∀ e, e ∈ s.notices.stack → e.cls ≠ k)
      ∧ (s.notices.stack.head?.map (·.priority)).getD 0 < (s.noticeClass k).priority := by
  simp only [eligible, Bool.and_eq_true, Bool.not_eq_true', decide_eq_true_eq, inService_eq_false, topPriority_eq, and_assoc]

theorem notifyAsserted_iff {s : State} : notifyAsserted s = true ↔ ∃ k, eligible s k = true := by
  simp [notifyAsserted, mem_allClasses]

/-! ## The class picked (R154) -/

/-- R154: class k goes before class j: it is of higher priority, or of the same and its number is not higher. -/
def GoesBefore (s : State) (k j : Fin 32) : Prop :=
  (s.noticeClass j).priority < (s.noticeClass k).priority
    ∨ (s.noticeClass j).priority = (s.noticeClass k).priority ∧ k ≤ j

theorem GoesBefore.refl (s : State) (k : Fin 32) : GoesBefore s k k := .inr ⟨rfl, le_refl k⟩

theorem GoesBefore.antisymm {s : State} {k j : Fin 32} (h : GoesBefore s k j) (h' : GoesBefore s j k) : k = j := by
  unfold GoesBefore at h h'
  omega

theorem GoesBefore.trans {s : State} {i j k : Fin 32} (h : GoesBefore s i j) (h' : GoesBefore s j k) :
    GoesBefore s i k := by
  unfold GoesBefore at *
  omega

/-- What a pick from a list of classes is: its eligible class that goes before every other, or none when none is
eligible. -/
def PickedFrom (s : State) (cs : List (Fin 32)) : Option (Fin 32) → Prop
  | none => ∀ j ∈ cs, eligible s j = false
  | some k => eligible s k = true ∧ k ∈ cs ∧ ∀ j ∈ cs, eligible s j = true → GoesBefore s k j

/-- One step of the walk: a class numbered above all those looked at replaces the best of them only when it is eligible and
of higher priority. -/
theorem PickedFrom.betterClass {s : State} {cs : List (Fin 32)} {best : Option (Fin 32)} (h : PickedFrom s cs best)
    {c : Fin 32} (hc : ∀ j ∈ cs, j < c) : PickedFrom s (cs ++ [c]) (betterClass s best c) := by
  unfold Machine.betterClass
  by_cases he : eligible s c = true
  · rw [if_pos he]
    cases best with
    | none =>
      have hcs : ∀ j ∈ cs, eligible s j = true → GoesBefore s c j := fun j hj hej => absurd hej (by simp [h j hj])
      exact ⟨he, by simp, List.forall_mem_append.mpr ⟨hcs, List.forall_mem_singleton.mpr fun _ => .refl s c⟩⟩
    | some b =>
      obtain ⟨hb, hmem, hfirst⟩ := h
      dsimp only
      split
      case isTrue hlt =>
        have hcs : ∀ j ∈ cs, eligible s j = true → GoesBefore s c j := fun j hj hej => .trans (.inl hlt) (hfirst j hj hej)
        exact ⟨he, by simp, List.forall_mem_append.mpr ⟨hcs, List.forall_mem_singleton.mpr fun _ => .refl s c⟩⟩
      case isFalse hle =>
        have hbc : GoesBefore s b c := by
          have hlt := hc b hmem
          unfold GoesBefore
          omega
        exact ⟨hb, by simp [hmem], List.forall_mem_append.mpr ⟨hfirst, List.forall_mem_singleton.mpr fun _ => hbc⟩⟩
  · rw [if_neg he]
    cases best with
    | none => exact List.forall_mem_append.mpr ⟨h, List.forall_mem_singleton.mpr (Bool.not_eq_true _ ▸ he)⟩
    | some b =>
      obtain ⟨hb, hmem, hfirst⟩ := h
      exact ⟨hb, by simp [hmem], List.forall_mem_append.mpr ⟨hfirst, List.forall_mem_singleton.mpr fun hec => absurd hec he⟩⟩

theorem pickedFrom_foldl (s : State) (cs : List (Fin 32)) (h : cs.Pairwise (· < ·)) :
    PickedFrom s cs (cs.foldl (betterClass s) none) := by
  induction cs using List.reverseRecOn with
  | nil => simp [PickedFrom]
  | append_singleton cs c ih =>
    obtain ⟨hcs, -, hlt⟩ := List.pairwise_append.mp h
    rw [List.foldl_append]
    exact (ih hcs).betterClass fun j hj => hlt j hj c (by simp)

/-- R154: TAKE_NOTICE looks at the classes in rising number. -/
theorem pickedFrom_pickClass (s : State) : PickedFrom s allClasses (pickClass s) :=
  pickedFrom_foldl s allClasses (List.pairwise_lt_finRange 32)

theorem pickClass_eq_none {s : State} (h : ∀ k, ¬ eligible s k = true) : pickClass s = none := by
  have hpick := pickedFrom_pickClass s
  cases hk : pickClass s with
  | none => rfl
  | some k =>
    rw [hk] at hpick
    exact absurd hpick.1 (h k)

theorem pickClass_eq_some {s : State} {k : Fin 32} (hk : eligible s k = true)
    (hfirst : ∀ j, eligible s j = true → GoesBefore s k j) : pickClass s = some k := by
  have hpick := pickedFrom_pickClass s
  cases hj : pickClass s with
  | none =>
    rw [hj] at hpick
    exact absurd hk (by simp [hpick k (mem_allClasses k)])
  | some j =>
    rw [hj] at hpick
    obtain ⟨hej, -, hbefore⟩ := hpick
    exact congrArg some ((hbefore k (mem_allClasses k) hk).antisymm (hfirst j hej))

/-! ## TAKE_NOTICE (R154) -/

theorem takenNotice_of_autoFinish {s : State} (h : s.notices.autoFinish = true) (k : Fin 32) :
    takenNotice k s = s.setNoticeClass k { s.noticeClass k with pending := false } := if_pos h

theorem takenNotice_of_not_autoFinish {s : State} (h : s.notices.autoFinish = false) (k : Fin 32) :
    takenNotice k s =
      let taken := s.setNoticeClass k { s.noticeClass k with pending := false }
      { taken with notices := { taken.notices with
        stack := ⟨k, (s.noticeClass k).priority⟩ :: s.notices.stack } } :=
  if_neg (by simp [h])

theorem takeNotice_answers_nothing {s : State} (hs : s.listening) (h : ∀ k, ¬ eligible s k = true) :
    Answers .takeNotice s .ok ([255, 0] ++ bytesOf 1 s.notices.stack.length) s := by
  have hw : takeNoticeCommand s = answer ([255, 0] ++ put1 s.notices.stack.length) s := by
    rw [takeNoticeCommand, pickClass_eq_none h]
    rfl
  rw [bytesOf_one]
  exact Answers.of_work (n := 0) rfl hs hw rfl

theorem takeNoticeCommand_of_pick {s : State} {k : Fin 32} (h : pickClass s = some k) :
    takeNoticeCommand s =
      answer (bytesOf 1 k.val ++ bytesOf 1 (s.noticeClass k).priority
        ++ bytesOf 1 (takenNotice k s).notices.stack.length) (takenNotice k s) := by
  simp only [takeNoticeCommand, h, bytesOf_one]

theorem takeNotice_answers_class {s : State} (hs : s.listening) {k : Fin 32} (hk : eligible s k = true)
    (hfirst : ∀ j, eligible s j = true → GoesBefore s k j) :
    let taken := s.setNoticeClass k { s.noticeClass k with pending := false }
    let front := bytesOf 1 k.val ++ bytesOf 1 (s.noticeClass k).priority
    (s.notices.autoFinish = true →
        Answers .takeNotice s .ok (front ++ bytesOf 1 s.notices.stack.length) taken)
      ∧ (s.notices.autoFinish = false →
        Answers .takeNotice s .ok (front ++ bytesOf 1 (s.notices.stack.length + 1))
          { taken with notices := { taken.notices with
            stack := ⟨k, (s.noticeClass k).priority⟩ :: s.notices.stack } }) := by
  have hw := takeNoticeCommand_of_pick (pickClass_eq_some hk hfirst)
  constructor
  · intro hauto
    rw [takenNotice_of_autoFinish hauto] at hw
    exact Answers.of_work (n := 0) rfl hs hw rfl
  · intro hauto
    rw [takenNotice_of_not_autoFinish hauto] at hw
    exact Answers.of_work (n := 0) rfl hs hw rfl

/-! ## FINISH_NOTICE (R155) -/

/-- R149: the condition classes are PHOTOMETRY, STAGE_SHORT and EMERGENCY of each portal and STRAY of each line. -/
theorem isCondition_iff (k : Fin 32) :
    isCondition k = true ↔ (k.val < 24 ∧ (k.val % 6 = 0 ∨ k.val % 6 = 2 ∨ k.val % 6 = 5)) ∨ k.val = 24 ∨ k.val = 28 := by
  revert k
  decide

theorem finishedNotice_of_pending_again {s : State} {e : StackEntry}
    (h : isCondition e.cls = true ∧ (s.noticeClass e.cls).holds = true) (rest : List StackEntry) :
    finishedNotice e rest s = State.setNoticeClass { s with notices := { s.notices with stack := rest } } e.cls
      { s.noticeClass e.cls with pending := true } := if_pos h

theorem finishedNotice_of_not_pending_again {s : State} {e : StackEntry}
    (h : ¬ (isCondition e.cls = true ∧ (s.noticeClass e.cls).holds = true)) (rest : List StackEntry) :
    finishedNotice e rest s = { s with notices := { s.notices with stack := rest } } := if_neg h

theorem finishNoticeCommand_of_cons {s : State} {e : StackEntry} {rest : List StackEntry}
    (h : s.notices.stack = e :: rest) :
    finishNoticeCommand s =
      answer (bytesOf 1 e.cls.val ++ [flagByte ((finishedNotice e rest s).noticeClass e.cls).pending]
        ++ bytesOf 1 rest.length) (finishedNotice e rest s) := by
  simp only [finishNoticeCommand, h, bytesOf_one, putFlag_eq_flagByte]

theorem finishNotice_answers_nothing {s : State} (hs : s.listening) (h : s.notices.stack = []) :
    Answers .finishNotice s .ok [255, 0, 0] s := by
  have hw : finishNoticeCommand s = answer [255, 0, 0] s := by
    rw [finishNoticeCommand, h]
    rfl
  exact Answers.of_work (n := 0) rfl hs hw rfl

theorem finishNotice_answers_popped {s : State} (hs : s.listening) {e : StackEntry} {rest : List StackEntry}
    (h : s.notices.stack = e :: rest) :
    let popped : State := { s with notices := { s.notices with stack := rest } }
    let again := isCondition e.cls = true ∧ (s.noticeClass e.cls).holds = true
    (again → Answers .finishNotice s .ok (bytesOf 1 e.cls.val ++ [1] ++ bytesOf 1 rest.length)
        (popped.setNoticeClass e.cls { s.noticeClass e.cls with pending := true }))
      ∧ (¬ again →
        Answers .finishNotice s .ok
          (bytesOf 1 e.cls.val ++ [if (s.noticeClass e.cls).pending then 1 else 0] ++ bytesOf 1 rest.length)
          popped) := by
  have hw := finishNoticeCommand_of_cons h
  constructor
  · intro hagain
    rw [finishedNotice_of_pending_again hagain, State.noticeClass_setNoticeClass_self] at hw
    exact Answers.of_work (n := 0) rfl hs hw rfl
  · intro hagain
    rw [finishedNotice_of_not_pending_again hagain] at hw
    exact Answers.of_work (n := 0) rfl hs hw rfl

/-- Settles O58: the statement's ready classes are the eligible ones; the walk in rising number picks the one that goes
before all others, and there is only one such; the pop makes its class pending again by R149's list of condition classes. -/
theorem noticesAreTakenByPriorityAndFinished : Obligations.NoticesAreTakenByPriorityAndFinished := by
  intro s hs
  simp only [← eligible_iff, ← isCondition_iff]
  exact ⟨notifyAsserted_iff, takeNotice_answers_nothing hs, fun _ => takeNotice_answers_class hs,
    finishNotice_answers_nothing hs, fun _ _ => finishNotice_answers_popped hs⟩

end Sys2Proof.Machine
end

section
/-! SUPPORT. The photometric part of a portal (R10, R11, R17): what it shows, its bytes, and the lost flags that reading it
clears. -/

namespace Sys2Proof.Machine

/-! ## The approach reading (R11) -/

/-- The largest of some readings, of which any may be absent. -/
def IsLargest (readings : List (Option Nat)) : Option Nat → Prop
  | none => ∀ r ∈ readings, r = none
  | some la => some la ∈ readings ∧ ∀ v, some v ∈ readings → v ≤ la

theorem IsLargest.maxReading {readings : List (Option Nat)} {best : Option Nat} (h : IsLargest readings best)
    (r : Option Nat) : IsLargest (readings ++ [r]) (maxReading best r) := by
  cases best with
  | none =>
    cases r with
    | none => exact List.forall_mem_append.mpr ⟨h, List.forall_mem_singleton.mpr rfl⟩
    | some b =>
      have habsent : ∀ v, some v ∉ readings := fun v hv => Option.some_ne_none v (h _ hv)
      refine ⟨by simp, fun v hv => ?_⟩
      obtain rfl : v = b := by simpa [habsent] using hv
      exact le_rfl
  | some a =>
    obtain ⟨hmem, hle⟩ := h
    cases r with
    | none =>
      exact ⟨by simp [hmem], fun v hv => hle v (by simpa using hv)⟩
    | some b =>
      refine ⟨?largestIsThere, fun v hv => ?isLargest⟩
      case largestIsThere => rcases max_choice a b with hmax | hmax <;> simp [hmax, hmem]
      case isLargest =>
        rcases List.mem_append.mp hv with hv | hv
        · exact (hle v hv).trans (Nat.le_max_left a b)
        · obtain rfl : v = b := by simpa using hv
          exact Nat.le_max_right a v

theorem isLargest_foldl (readings : List (Option Nat)) : IsLargest readings (readings.foldl maxReading none) := by
  induction readings using List.reverseRecOn with
  | nil => simp [IsLargest]
  | append_singleton rs r ih =>
    rw [List.foldl_append]
    exact ih.maxReading r

/-- R11: the reading that a meter gives to La: an ONLINE meter's latest valid one. -/
def onlineReading (s : State) (m : Fin 8) : Option Nat :=
  if (s.meter m).state = .online then (s.meter m).reading else none

theorem onlineReading_eq_some {s : State} {m : Fin 8} {v : Nat} :
    onlineReading s m = some v ↔ (s.meter m).state = .online ∧ (s.meter m).reading = some v := by
  simp [onlineReading]

theorem approach_eq (s : State) (p : Fin 4) :
    approach s p = ((ownMeters s p).map (onlineReading s)).foldl maxReading none := by
  have hstep : ∀ (best : Option Nat) (m : Fin 8), (if (s.meter m).state = .online then maxReading best (s.meter m).reading
      else best) = maxReading best (onlineReading s m) := by
    intro best m
    unfold onlineReading
    split
    · rfl
    · cases best <;> rfl
  simp only [approach, hstep, List.foldl_map]

theorem Meter.owns_iff {x : Meter} {p : Fin 4} : x.owns p = true ↔ ∃ q, x.site = some q ∧ q.portal = p := by
  unfold Meter.owns
  split <;> simp_all

theorem mem_ownMeters {s : State} {p : Fin 4} {m : Fin 8} :
    m ∈ ownMeters s p ↔ ∃ q, (s.meter m).site = some q ∧ q.portal = p := by
  simp [ownMeters, mem_allMeters, Meter.owns_iff]

theorem isLargest_approach (s : State) (p : Fin 4) : IsLargest ((ownMeters s p).map (onlineReading s)) (approach s p) :=
  approach_eq s p ▸ isLargest_foldl _

theorem mem_ownReadings {s : State} {p : Fin 4} {v : Nat} :
    some v ∈ (ownMeters s p).map (onlineReading s) ↔ ∃ k q, (s.meter k).site = some q ∧ q.portal = p
      ∧ (s.meter k).state = .online ∧ (s.meter k).reading = some v := by
  simp only [List.mem_map, mem_ownMeters, onlineReading_eq_some]
  exact exists_congr fun k => ⟨fun ⟨⟨q, hq, hp⟩, hk⟩ => ⟨q, hq, hp, hk⟩, fun ⟨q, hq, hp, hk⟩ => ⟨⟨q, hq, hp⟩, hk⟩⟩

theorem largestReading_of_approach {s : State} {p : Fin 4} {la : Nat} (h : approach s p = some la) :
    LargestReading s p la := by
  obtain ⟨hmem, hle⟩ := h ▸ isLargest_approach s p
  exact ⟨mem_ownReadings.mp hmem, fun k q v hq hp ho hv => hle v (mem_ownReadings.mpr ⟨k, q, hq, hp, ho, hv⟩)⟩

theorem no_reading_of_approach {s : State} {p : Fin 4} (h : approach s p = none) {k : Fin 8} {q : MeterSite}
    (hq : (s.meter k).site = some q) (hp : q.portal = p) (ho : (s.meter k).state = .online) :
    (s.meter k).reading = none := by
  have hnone : IsLargest _ none := h ▸ isLargest_approach s p
  exact Option.eq_none_iff_forall_ne_some.mpr fun v hv =>
    absurd (hnone _ (mem_ownReadings.mpr ⟨k, q, hq, hp, ho, hv⟩)) (by simp)

/-! ## What the part shows (R17) -/

theorem photoShows_photoOf (s : State) (p : Fin 4) : PhotoShows s p (photoOf s p) := by
  refine ⟨rfl, rfl, ?approach, ?reports⟩
  case approach =>
    cases h : approach s p with
    | none => simpa only [photoOf, h] using fun k q => no_reading_of_approach h
    | some la => simpa only [photoOf, h] using largestReading_of_approach h
  case reports =>
    have hmeters : allMeters = List.finRange 8 := by decide
    simp only [photoOf, ownMeters, ← List.filterMap_eq_filter, List.map_filterMap, hmeters]
    refine List.filterMap_congr fun k _ => ?_
    cases hq : (s.meter k).site with
    | none => simp [Meter.owns, hq]
    | some q =>
      by_cases hp : q.portal = p
      · simp [Meter.owns, hq, hp, meterReport]
      · simp [Meter.owns, hq, hp]

/-! ## Its bytes (R171) -/

theorem optionalBytes_two (x : Option Nat) : optionalBytes 2 x = putOpt 2 put2 x := by
  cases x with
  | none => rfl
  | some n =>
    rw [optionalBytes, bytesOf_two]
    rfl

theorem MeterReport.bytes_eq (r : MeterReport) : r.bytes = reportLayout r := by
  have hstate : put1 r.state.code = [match r.state with
      | .unconfigured => (0 : Byte)
      | .awaiting => 1
      | .online => 2
      | .lost => 3] := by
    cases r.state <;> rfl
  have hstatus : put1 (statusCode r.status) = [match r.status with
      | none => (0 : Byte)
      | some .valid => 1
      | some .warming => 2
      | some .fault => 3] := by
    rcases r.status with _ | status
    · rfl
    · cases status <;> rfl
  rw [MeterReport.bytes, hstate, hstatus, putFlag_eq_flagByte, ← optionalBytes_two, ← bytesOf_one, ← bytesOf_one]
  rfl

theorem Photo.bytes_eq (x : Photo) : x.bytes = photoLayout x := by
  have hcondition : put1 x.condition.code = [match x.condition with
      | .unset => (0 : Byte)
      | .live => 1
      | .borrowed => 2
      | .fallback => 3] := by
    cases x.condition <;> rfl
  rw [Photo.bytes, hcondition, ← optionalBytes_two, ← optionalBytes_two, ← bytesOf_one, funext MeterReport.bytes_eq]
  rfl

/-! ## The lost flags it clears (R10) -/

/-- R10: the sticky lost flag of one meter is cleared when its report has it set. -/
def clearLost (r : MeterReport) (s : State) : State :=
  if r.lost then s.setMeter r.meter { s.meter r.meter with lost := false } else s

theorem clearReported_eq (x : Photo) (s : State) : clearReported x s = forEach x.reports clearLost s := rfl

theorem meter_clearLost (r : MeterReport) (s : State) (m : Fin 8) :
    (clearLost r s).meter m
      = if r.meter = m ∧ r.lost = true then { s.meter m with lost := false } else s.meter m := by
  by_cases hlost : r.lost = true
  · rw [clearLost, if_pos hlost, State.meter_setMeter]
    by_cases hm : r.meter = m
    · rw [if_pos hm, if_pos ⟨hm, hlost⟩, hm]
    · rw [if_neg hm, if_neg fun h => hm h.1]
  · rw [clearLost, if_neg hlost, if_neg fun h => hlost h.2]

theorem meter_forEach_clearLost (rs : List MeterReport) (s : State) (m : Fin 8) :
    (forEach rs clearLost s).meter m
      = if ∃ r, r ∈ rs ∧ r.meter = m ∧ r.lost = true then { s.meter m with lost := false } else s.meter m := by
  induction rs generalizing s with
  | nil => simp
  | cons r rs ih =>
    rw [forEach_cons, ih, meter_clearLost]
    by_cases hr : r.meter = m ∧ r.lost = true
    · have hcleared : ∃ x, x ∈ r :: rs ∧ x.meter = m ∧ x.lost = true := ⟨r, List.mem_cons_self, hr⟩
      rw [if_pos hr, if_pos hcleared]
      split <;> rfl
    · simp [hr]

theorem clearReported_frame (x : Photo) (s : State) :
    clearReported x s = { s with meters := (clearReported x s).meters } := by
  rw [clearReported_eq]
  refine forEach_induction (P := fun t => t = { s with meters := t.meters }) x.reports rfl fun r _ t ht => ?_
  unfold clearLost
  split
  · rw [State.setMeter, ht]
  · exact ht

end Sys2Proof.Machine
end

section
/-! SUPPORT. SNAPSHOT and READ_SNAPSHOT (R159 to R161): the sets of parts, what is latched, and the OUTPUT part's bytes. -/

namespace Sys2Proof.Machine

/-! ## The sets of parts of SNAPSHOT's reply (R160, R171) -/

/-- R171: bit 2p stands for PHOTO of portal p and bit 2p + 1 for OUTPUT: the part is named and satisfies the test. -/
def partNamed (portals parts : Byte) (photo output : Fin 4 → Bool) (i : Fin 8) : Bool :=
  let p : Fin 4 := ⟨i.val / 2, by omega⟩
  portals.getLsbD p.val && parts.getLsbD (i.val % 2) && if i.val % 2 = 0 then photo p else output p

theorem partSet_eq_ofBits (portals parts : Byte) (photo output : Fin 4 → Bool) :
    partSet portals parts photo output = Nat.ofBits (partNamed portals parts photo output) := by
  have hbit : ∀ (b : Bool) (n : Nat), (if b = true then n else 0) = n * b.toNat := by
    intro b n
    cases b <;> simp
  simp only [partSet, allPortals, List.foldl_cons, List.foldl_nil, hbit, Nat.ofBits_succ, Nat.ofBits_zero]
  simp [partNamed]
  omega

theorem getLsbD_partSet (portals parts : Byte) (photo output : Fin 4 → Bool) (i : Fin 8) :
    (BitVec.ofNat 8 (partSet portals parts photo output)).getLsbD i.val = partNamed portals parts photo output i := by
  rw [partSet_eq_ofBits, BitVec.getLsbD_ofNat, Nat.testBit_ofBits_lt _ _ i.isLt, decide_eq_true i.isLt, Bool.true_and]

theorem getLsbD_partSet_photo (portals parts : Byte) (photo output : Fin 4 → Bool) (p : Fin 4) :
    (BitVec.ofNat 8 (partSet portals parts photo output)).getLsbD (2 * p.val)
      = (portals.getLsbD p.val && parts.getLsbD 0 && photo p) := by
  simpa [partNamed] using getLsbD_partSet portals parts photo output ⟨2 * p.val, by omega⟩

theorem getLsbD_partSet_output (portals parts : Byte) (photo output : Fin 4 → Bool) (p : Fin 4) :
    (BitVec.ofNat 8 (partSet portals parts photo output)).getLsbD (2 * p.val + 1)
      = (portals.getLsbD p.val && parts.getLsbD 1 && output p) := by
  have hhalf : (2 * p.val + 1) / 2 = p.val := by omega
  simpa [partNamed, Nat.add_mod, hhalf] using getLsbD_partSet portals parts photo output ⟨2 * p.val + 1, by omega⟩

/-! ## What is latched (R160) -/

theorem snapshotOf_forEach_setSnapshot (ps : List (Fin 4)) (x : Fin 4 → Snapshot) (s : State) (p : Fin 4) :
    (forEach ps (fun p t => t.setSnapshot p (x p)) s).snapshotOf p = if p ∈ ps then x p else s.snapshotOf p := by
  induction ps generalizing s with
  | nil => simp
  | cons q ps ih =>
    rw [forEach_cons, ih, State.snapshotOf_setSnapshot]
    by_cases hq : q = p
    · simp [hq]
    · simp [hq, Ne.symm hq]

theorem forEach_setSnapshot_frame (ps : List (Fin 4)) (x : Fin 4 → Snapshot) (s : State) :
    ∃ v, forEach ps (fun p t => t.setSnapshot p (x p)) s = { s with snapshots := v } :=
  forEach_induction (P := fun t => ∃ v, t = { s with snapshots := v }) ps ⟨s.snapshots, rfl⟩
    fun p _ _ ⟨v, ht⟩ => ⟨v.set p (x p), by rw [ht]; rfl⟩

/-- SNAPSHOT's state: each named portal's buffers are latched from the one state before the command. -/
def latchedState (portals parts : Byte) (s : State) : State :=
  forEach (allPortals.filter fun p => portals.getLsbD p.val)
    (fun p t => t.setSnapshot p (latch (parts.getLsbD 0) (parts.getLsbD 1) s p (s.snapshotOf p))) s

theorem latchedState_frame (portals parts : Byte) (s : State) :
    ∃ v, latchedState portals parts s = { s with snapshots := v } := forEach_setSnapshot_frame ..

theorem snapshotOf_latchedState (portals parts : Byte) (s : State) (p : Fin 4) :
    (latchedState portals parts s).snapshotOf p
      = latch (portals.getLsbD p.val && parts.getLsbD 0) (portals.getLsbD p.val && parts.getLsbD 1) s p (s.snapshotOf p) := by
  rw [latchedState, snapshotOf_forEach_setSnapshot]
  cases hp : portals.getLsbD p.val <;> simp [mem_allPortals, hp, latch]

theorem snapshotCommand_of_operands {portals parts : Byte} (h : ¬ (15 < portals.toNat ∨ 3 < parts.toNat)) (s : State) :
    snapshotCommand portals parts s = answer
      [BitVec.ofNat 8 (partSet portals parts (fun p => (s.snapshotOf p).photo.isNone)
          (fun p => (s.snapshotOf p).output.isNone)),
        BitVec.ofNat 8 (partSet portals parts (fun p => (s.snapshotOf p).photo.isSome)
          (fun p => (s.snapshotOf p).output.isSome))]
      (latchedState portals parts s) := if_neg h

theorem snapshot_latches {s : State} (hs : s.listening) (portals parts : Byte) :
    Checked (.snapshot portals parts) s [(15 < portals.toNat ∨ 3 < parts.toNat, .badValue)]
      (∃ t latched already, Answers (.snapshot portals parts) s .ok [latched, already] t
        ∧ t = { s with snapshots := t.snapshots }
        ∧ ∀ p : Fin 4,
          let photo := portals.getLsbD p.val && parts.getLsbD 0
          let out := portals.getLsbD p.val && parts.getLsbD 1
          (t.snapshotOf p).photo
              = (if photo = true ∧ (s.snapshotOf p).photo = none then some (photoOf s p) else (s.snapshotOf p).photo)
            ∧ (t.snapshotOf p).output
              = (if out = true ∧ (s.snapshotOf p).output = none then some (outputOf s p) else (s.snapshotOf p).output)
            ∧ latched.getLsbD (2 * p.val) = (photo && (s.snapshotOf p).photo.isNone)
            ∧ latched.getLsbD (2 * p.val + 1) = (out && (s.snapshotOf p).output.isNone)
            ∧ already.getLsbD (2 * p.val) = (photo && (s.snapshotOf p).photo.isSome)
            ∧ already.getLsbD (2 * p.val + 1) = (out && (s.snapshotOf p).output.isSome)) := by
  have hc : exec (.snapshot portals parts) s = takeCommand 2 (snapshotCommand portals parts) s := rfl
  refine .cons (fun hbad => Refuses.of_work hc hs (if_pos hbad)) fun hgood => .nil ?_
  obtain ⟨v, hframe⟩ := latchedState_frame portals parts s
  refine ⟨latchedState portals parts s, _, _,
    Answers.of_work hc hs (snapshotCommand_of_operands hgood s) (by rw [hframe]), by rw [hframe], fun p => ?_⟩
  refine ⟨?_, ?_, getLsbD_partSet_photo .., getLsbD_partSet_output .., getLsbD_partSet_photo .., getLsbD_partSet_output ..⟩
  all_goals
    rw [snapshotOf_latchedState]
    simp only [latch, Bool.and_eq_true, Option.isNone_iff_eq_none]

/-! ## READ_SNAPSHOT (R161) -/

theorem putSix_eq (v : Vector Nat 6) : putSix (fun i => v[i]) = v.toList.flatMap (bytesOf 2) := by
  have hlist : v.toList = allStages.map fun i => v[i] := by
    rcases v with ⟨⟨l⟩, h⟩
    match l, h with
    | [_, _, _, _, _, _], _ => rfl
  rw [hlist, List.flatMap_map]
  simp only [putSix, bytesOf_two]

theorem Output.bytes_eq (x : Output) :
    x.bytes = [modeByte x.mode] ++ x.targets.toList.flatMap (bytesOf 2) ++ x.levels.toList.flatMap (bytesOf 2)
      ++ [flagByte x.done, flagByte x.owed] := by
  have hmode : put1 x.mode.code = [modeByte x.mode] := by
    cases x.mode <;> rfl
  rw [Output.bytes, hmode, putSix_eq, putSix_eq, putFlag_eq_flagByte, putFlag_eq_flagByte, List.append_assoc]
  rfl

theorem readSnapshotCommand_of_portal {portal : Byte} {p : Fin 4} (h : p.val = portal.toNat) (s : State) :
    readSnapshotCommand portal s = answer (snapshotBytes s p)
      (clearReported ((s.snapshotOf p).photo.getD (photoOf s p)) (s.setSnapshot p { photo := none, output := none })) := by
  rw [readSnapshotCommand, portalOf_eq_some.mpr h]

theorem readSnapshotCommand_badValue {portal : Byte} (h : 3 < portal.toNat) (s : State) :
    readSnapshotCommand portal s = refuse .badValue s := by
  have hportal : portalOf portal = none := dif_neg (Nat.not_lt.mpr h)
  rw [readSnapshotCommand, hportal]

theorem readSnapshot_reads {s : State} (hs : s.listening) (portal : Byte) :
    Checked (.readSnapshot portal) s [(3 < portal.toNat, .badValue)]
      (∀ p : Fin 4, p.val = portal.toNat →
        let x := s.snapshotOf p
        let photo := x.photo.getD (photoOf s p)
        let out := x.output.getD (outputOf s p)
        ∃ t, Answers (.readSnapshot portal) s .ok
            ([flagByte x.photo.isSome] ++ photoLayout photo ++ [flagByte x.output.isSome]
              ++ [modeByte out.mode] ++ out.targets.toList.flatMap (bytesOf 2)
              ++ out.levels.toList.flatMap (bytesOf 2) ++ [flagByte out.done, flagByte out.owed]) t
          ∧ t = { s with meters := t.meters, snapshots := s.snapshots.set p { photo := none, output := none } }
          ∧ ∀ m, ((∃ r, r ∈ photo.reports ∧ r.meter = m ∧ r.lost = true) →
              t.meter m = { s.meter m with lost := false })
            ∧ (¬ (∃ r, r ∈ photo.reports ∧ r.meter = m ∧ r.lost = true) → t.meter m = s.meter m)) := by
  have hc : exec (.readSnapshot portal) s = takeCommand 1 (readSnapshotCommand portal) s := rfl
  refine .cons (fun hbad => Refuses.of_work hc hs (readSnapshotCommand_badValue hbad s)) fun _ => .nil fun p hp => ?_
  intro x photo out
  have hframe := clearReported_frame photo (s.setSnapshot p { photo := none, output := none })
  have hmeter := meter_forEach_clearLost photo.reports (s.setSnapshot p { photo := none, output := none })
  have hbytes : snapshotBytes s p = [flagByte x.photo.isSome] ++ photoLayout photo ++ [flagByte x.output.isSome]
      ++ [modeByte out.mode] ++ out.targets.toList.flatMap (bytesOf 2)
      ++ out.levels.toList.flatMap (bytesOf 2) ++ [flagByte out.done, flagByte out.owed] := by
    simp only [snapshotBytes, putFlag_eq_flagByte, Photo.bytes_eq, Output.bytes_eq, List.append_assoc]
    rfl
  refine ⟨_, Answers.of_work hc hs (hbytes ▸ readSnapshotCommand_of_portal hp s) ?port, hframe,
    fun m => ⟨fun hlost => (hmeter m).trans (if_pos hlost), fun hkept => (hmeter m).trans (if_neg hkept)⟩⟩
  case port => exact (congrArg State.port hframe).trans rfl

/-- Settles O60: the live parts are the model's own copies; SNAPSHOT writes the buffers of the named portals from the one
state before it, and READ_SNAPSHOT frees both parts and then clears the lost flag of each meter reported lost. -/
theorem snapshotsLatchFreePartsAndAreRead : Obligations.SnapshotsLatchFreePartsAndAreRead :=
  fun s hs => ⟨photoOf s, photoShows_photoOf s, snapshot_latches hs, readSnapshot_reads hs⟩

end Sys2Proof.Machine
end

section
/-! SUPPORT. READ_IDENT (R170): the strap byte and the rate code. -/

namespace Sys2Proof.Machine

/-- The two low straps are a value when both bits are the value's. -/
theorem extractLsb'_two_eq_iff (x : BitVec 4) (y : BitVec 2) :
    x.extractLsb' 0 2 = y ↔ x.getLsbD 1 = y.getLsbD 1 ∧ x.getLsbD 0 = y.getLsbD 0 := by
  constructor
  · rintro rfl
    simp
  · rintro ⟨h1, h0⟩
    refine BitVec.eq_of_getLsbD_eq fun i hi => ?_
    obtain rfl | rfl : i = 0 ∨ i = 1 := by omega
    · simpa [BitVec.getLsbD_extractLsb'] using h0
    · simpa [BitVec.getLsbD_extractLsb'] using h1

/-- R114, R170: the reserved setting 1, 1 has the rate code 0 of the setting 0, 0. -/
theorem put1_lineRate (s : State) :
    put1 s.lineRate
      = [if s.straps.extractLsb' 0 2 = 1 then 1 else if s.straps.extractLsb' 0 2 = 2 then 2 else 0] := by
  simp only [extractLsb'_two_eq_iff, State.lineRate]
  cases s.straps.getLsbD 1 <;> cases s.straps.getLsbD 0 <;> rfl

theorem put1_straps (s : State) : put1 s.straps.toNat = [s.straps.zeroExtend 8] := by
  rw [put1, BitVec.zeroExtend, BitVec.ofNat_toNat]

theorem identBytes_eq (s : State) :
    identBytes s = [0x04, 0x16, 1, s.straps.zeroExtend 8,
      if s.straps.extractLsb' 0 2 = 1 then 1 else if s.straps.extractLsb' 0 2 = 2 then 2 else 0,
      if s.straps.getLsbD 2 = true then 1 else 0, if s.straps.getLsbD 3 = true then 1 else 0] := by
  simp only [identBytes, put1_straps, put1_lineRate, putFlag_eq_flagByte]
  rfl

/-- Settles O9: a command whose own rule answers the seven bytes on the state as it is. -/
theorem readIdentReportsTheSampledStraps : Obligations.ReadIdentReportsTheSampledStraps := fun s hs =>
  Answers.of_work (n := 0) (work := readIdent) rfl hs (congrArg (answer · s) (identBytes_eq s)) rfl

end Sys2Proof.Machine
end

section
/-! SUPPORT. The check byte (R164): the bits of one step of the division, the step as polynomial division, and what a
message followed by its own check byte leaves. -/

namespace Sys2Proof

/-! ## One step of the division -/

/-- The bits of a remainder after a step: the rest moves up one place, the new bit enters below, and the bit that left
at the top takes away the divisor's three low terms. -/
theorem getElem_crcShift (r : Byte) (bit : Bool) {i : Nat} (hi : i < 8) :
    (crcShift r bit)[i] = ((if i = 0 then bit else r[i - 1]) ^^ (decide (i < 3) && r[7])) := by
  have hdivisor : ∀ (j : Nat) (hj : j < 8), (0x07 : Byte)[j] = decide (j < 3) := by decide
  have hshifted : ((r <<< 1) ||| (if bit then 1 else 0 : Byte))[i] = if i = 0 then bit else r[i - 1] := by
    rw [BitVec.getElem_or, BitVec.getElem_shiftLeft]
    cases bit <;> by_cases h0 : i = 0 <;> simp [h0]
  rw [crcShift, BitVec.getLsbD_eq_getElem (by decide)]
  cases r[7]
  · simp only [Bool.false_eq_true, if_false, hshifted, Bool.and_false, Bool.xor_false]
  · simp only [if_true, BitVec.getElem_xor, hshifted, hdivisor, Bool.and_true]

theorem bitsOf_crcShift (r : Byte) (bit : Bool) :
    bitsOf (crcShift r bit) = [r.getLsbD 6, r.getLsbD 5, r.getLsbD 4, r.getLsbD 3, r.getLsbD 2,
      r.getLsbD 1 ^^ r.getLsbD 7, r.getLsbD 0 ^^ r.getLsbD 7, bit ^^ r.getLsbD 7] := by
  simp [bitsOf, getElem_crcShift]

theorem crcShift_xor (r q : Byte) (bit : Bool) :
    crcShift (r ^^^ q) bit = crcShift r false ^^^ crcShift q bit := by
  refine BitVec.eq_of_getElem_eq fun i hi => ?_
  simp only [BitVec.getElem_xor, getElem_crcShift _ _ hi, Bool.and_xor_distrib_left]
  split
  · rw [Bool.false_xor, Bool.xor_left_comm]
  · rw [Bool.xor_assoc, Bool.xor_assoc, Bool.xor_left_comm q[i - 1]]

theorem foldl_crcShift_xor (r q : Byte) (l : List Bool) :
    l.foldl crcShift (r ^^^ q) = (List.replicate l.length false).foldl crcShift r ^^^ l.foldl crcShift q := by
  induction l generalizing r q with
  | nil => rfl
  | cons bit l ih => exact (congrArg (l.foldl crcShift) (crcShift_xor r q bit)).trans (ih _ _)

theorem foldl_crcShift_zeros (n : Nat) : (List.replicate n false).foldl crcShift 0 = 0 := by
  induction n with
  | zero => rfl
  | succ n ih => exact ih

/-- Eight bits that enter an empty remainder are the remainder: none has left at the top. -/
theorem foldl_crcShift_bitsOf (b : Byte) : (bitsOf b).foldl crcShift 0 = b := by
  refine BitVec.eq_of_getElem_eq fun i hi => ?_
  interval_cases i <;> simp [bitsOf, getElem_crcShift]

/-- What eight zero bits make of a remainder, shifted into that remainder instead of them, leaves nothing. -/
theorem foldl_crcShift_bitsOf_foldl_zeros (r : Byte) :
    (bitsOf ((List.replicate 8 false).foldl crcShift r)).foldl crcShift r = 0 := by
  have hsplit := foldl_crcShift_xor r 0 (bitsOf ((List.replicate 8 false).foldl crcShift r))
  rw [foldl_crcShift_bitsOf] at hsplit
  calc
    _ = (bitsOf ((List.replicate 8 false).foldl crcShift r)).foldl crcShift (r ^^^ 0) :=
      congrArg (List.foldl _ · _) BitVec.xor_zero.symm
    _ = 0 := hsplit.trans BitVec.xor_self

/-- R164: a message followed by its own check byte has the check byte 0. -/
theorem crc8_append_crc8 (bytes : List Byte) : crc8 (bytes ++ [crc8 bytes]) = 0 := by
  simp only [crc8, List.flatMap_append, List.flatMap_singleton, List.foldl_append, foldl_crcShift_bitsOf_foldl_zeros]
  exact foldl_crcShift_zeros 8

/-! ## The division of polynomials over the two-element field -/

open Polynomial

/-- The coefficient that a bit stands for. -/
noncomputable def bitTerm (b : Bool) : (ZMod 2)[X] := if b then 1 else 0

/-- The polynomial that a string of bits spells, highest power first. -/
noncomputable def bitPoly (l : List Bool) : (ZMod 2)[X] := l.foldl (fun p b => p * X + bitTerm b) 0

/-- R164: the divisor of every check byte. -/
noncomputable def crcDivisor : (ZMod 2)[X] := X ^ 8 + X ^ 2 + X + 1

theorem bitTerm_xor (a b : Bool) : bitTerm (a ^^ b) = bitTerm a + bitTerm b := by
  cases a <;> cases b <;> simp [bitTerm, CharTwo.add_self_eq_zero]

theorem bitPoly_concat (l : List Bool) (b : Bool) : bitPoly (l ++ [b]) = bitPoly l * X + bitTerm b := List.foldl_append

theorem bitPoly_eight (a b c d e f g h : Bool) :
    bitPoly [a, b, c, d, e, f, g, h] = bitTerm a * X ^ 7 + bitTerm b * X ^ 6 + bitTerm c * X ^ 5 + bitTerm d * X ^ 4
      + bitTerm e * X ^ 3 + bitTerm f * X ^ 2 + bitTerm g * X + bitTerm h := by
  simp only [bitPoly, List.foldl_cons, List.foldl_nil]
  ring

theorem degree_bitPoly_lt (l : List Bool) : (bitPoly l).degree < l.length := by
  induction l using List.reverseRecOn with
  | nil => simp [bitPoly]
  | append_singleton l b ih =>
    rw [degree_lt_iff_coeff_zero] at ih ⊢
    intro m hm
    obtain ⟨k, rfl⟩ : ∃ k, m = k + 1 := ⟨m - 1, by simp at hm; omega⟩
    have hl : l.length ≤ k := by simpa using hm
    have hb : (bitTerm b).coeff (k + 1) = 0 := by cases b <;> simp [bitTerm, coeff_one]
    rw [bitPoly_concat, coeff_add, coeff_mul_X, ih k hl, hb, add_zero]

theorem degree_crcDivisor : crcDivisor.degree = 8 := by
  unfold crcDivisor
  compute_degree!

theorem monic_crcDivisor : crcDivisor.Monic := by
  unfold crcDivisor
  monicity!

/-- One step of the division takes the divisor away as often as the bit that leaves at the top says. -/
theorem bitPoly_bitsOf_crcShift (r : Byte) (bit : Bool) :
    bitPoly (bitsOf r) * X + bitTerm bit - bitPoly (bitsOf (crcShift r bit)) = crcDivisor * bitTerm (r.getLsbD 7) := by
  have htwo : (2 : (ZMod 2)[X]) = 0 := CharTwo.two_eq_zero
  rw [bitsOf_crcShift, bitsOf, bitPoly_eight, bitPoly_eight, bitTerm_xor, bitTerm_xor, bitTerm_xor, crcDivisor]
  linear_combination -(bitTerm (r.getLsbD 7) * (X ^ 2 + X + 1)) * htwo

theorem crcDivisor_dvd_bitPoly_sub (l : List Bool) :
    crcDivisor ∣ bitPoly l - bitPoly (bitsOf (l.foldl crcShift 0)) := by
  induction l using List.reverseRecOn with
  | nil => simp [bitPoly, bitsOf, bitTerm]
  | append_singleton l bit ih =>
    rw [List.foldl_append, List.foldl_cons, List.foldl_nil]
    generalize l.foldl crcShift 0 = r at ih ⊢
    have hstep : bitPoly (l ++ [bit]) - bitPoly (bitsOf (crcShift r bit))
        = (bitPoly l - bitPoly (bitsOf r)) * X + crcDivisor * bitTerm (r.getLsbD 7) := by
      rw [bitPoly_concat, ← bitPoly_bitsOf_crcShift]
      ring
    rw [hstep]
    exact dvd_add (ih.mul_right X) (dvd_mul_right _ _)

/-- R164: the shift register divides: what it holds after a string of bits is the string's remainder. -/
theorem bitPoly_modByMonic_crcDivisor (l : List Bool) :
    bitPoly l %ₘ crcDivisor = bitPoly (bitsOf (l.foldl crcShift 0)) := by
  have hlow : (bitPoly (bitsOf (l.foldl crcShift 0))).degree < crcDivisor.degree := by
    rw [degree_crcDivisor]
    exact degree_bitPoly_lt (bitsOf _)
  rw [modByMonic_eq_of_dvd_sub monic_crcDivisor (crcDivisor_dvd_bitPoly_sub l)]
  exact (modByMonic_eq_self_iff monic_crcDivisor).mpr hlow

end Sys2Proof
end

section
/-! SUPPORT. Where the check byte is checked (R164): what passes the port, the lighting lines and the meter line. -/

namespace Sys2Proof

theorem Frame.check_of_parse {count : Byte} {rest : List Byte} {i : Instr} (h : Frame.parse (count :: rest) = .ok i) :
    rest[count.toNat]? = some (crc8 (count :: rest.take count.toNat)) := by
  by_cases hbad : rest.length < count.toNat + 1 ∨ crc8 (count :: rest.take count.toNat) ≠ u8 rest count.toNat
  · rw [Frame.parse, if_pos hbad] at h
    cases h
  · obtain ⟨hlength, hcheck⟩ := not_or.mp hbad
    have hlt : count.toNat < rest.length := by omega
    rw [not_not.mp hcheck, u8, List.getD_eq_getElem _ _ hlt, List.getElem?_eq_getElem hlt]

end Sys2Proof

namespace Sys2Proof.Machine

theorem check_of_acceptReply {f : LineFrame} {a : Nat} {received : List Byte} (h : acceptReply f a received ≠ none) :
    crc8 received.dropLast = received.getLastD 0 := by
  match received with
  | [] | [_] => exact absurd rfl h
  | driver :: code :: rest =>
    by_contra hcheck
    exact h (if_neg fun ⟨_, hgood, _⟩ => hcheck hgood)

theorem check_of_readRequest {b : List Byte} {c : Byte} (h : readRequest (b ++ [c]) ≠ none) : c = crc8 b := by
  match b with
  | [marker, driver] =>
    by_contra hcheck
    exact h (if_pos (Ne.symm hcheck))
  | [] | [_] => exact absurd rfl h
  | _ :: _ :: _ :: [] | _ :: _ :: _ :: _ :: _ => exact absurd rfl h

theorem check_of_readMeterReply {a : Nat} {c0 c1 c2 c3 c4 : Byte} (h : readMeterReply a c0 c1 c2 c3 c4 ≠ none) :
    c4 = crc8 [c0, c1, c2, c3] := by
  by_contra hcheck
  exact h (if_pos (.inl (Ne.symm hcheck)))

/-- Settles O2: the division's remainder by the invariant of one shift, the message with its own check byte by the
linearity of the shift, and the uses from the definitions that write or accept frames. -/
theorem checkByteIsTheRemainder : Obligations.CheckByteIsTheRemainder := by
  unfold Obligations.CheckByteIsTheRemainder
  refine ⟨fun bytes => bitPoly_modByMonic_crcDivisor _, by decide +kernel, by decide +kernel, crc8_append_crc8,
    fun _ _ _ => Frame.check_of_parse, fun r => ⟨_, rfl⟩, fun f a => ⟨_, rfl⟩, fun f a b c h => ?_,
    fun _ _ => check_of_readRequest, fun a => ⟨_, rfl⟩, fun _ _ _ _ _ _ => check_of_readMeterReply⟩
  simpa using (check_of_acceptReply h).symm

end Sys2Proof.Machine
end

section
/-! SUPPORT. What a host command can do (R163, R167): it is refused and changes nothing, or it is carried out and has one of
the effects listed here, with the checks that it has passed. -/

namespace Sys2Proof.Machine

/-- The parts of the state that a rule can write: of the notice unit, `notices` are the pending and holds marks, and `settings`
are the rest. The reset line, the straps, the port and the queue are none of them. -/
inductive Table where
  | emergN
  | meters
  | polls
  | portals
  | plans
  | roster
  | sweeps
  | lines
  | notices
  | settings
  | snapshots
  deriving DecidableEq

/-- Where an admission's uid, capability and lmin come from: ADMIT's own operand, or a stray entry of the address (R66, R146). -/
def Admission.Sourced (x : Admission) (capability : Option Bool) (lmin : Nat) (s : State) : Prop :=
  (capability = none ∧ lmin = 0 ∧ x.uid < 2 ^ 48)
    ∨ ∃ e ∈ (s.line x.place.line).strays, e.address = x.place.address ∧ x.uid = e.uid.getD 0
        ∧ capability = e.capability ∧ lmin = e.lmin.getD 0

/-- R65: what an admission has passed. -/
structure Admission.Passed (x : Admission) (s : State) : Prop where
  slot_lt : x.slot < 512
  inPlan : ∃ p, inFootprint s p x.slot = true
  vacant : (s.record x.slot).nonVacant = false
  present : s.linePresent x.place.line = true
  address : DriverAddress x.place.address
  placeFree : s.lookup x.place.line x.place.address = none
  uidFree : x.uid ≠ 0 → s.lookupUid x.uid = none

/-- R67: what an AMEND has passed. -/
structure AmendPassed (n : Nat) (x : Selection) (uid : UidField) (s : State) : Prop where
  slot_lt : n < 512
  nonVacant : (s.record n).state ≠ .vacant
  notRetiring : (s.record n).state ≠ .retiring
  probation : x.uid = true → (s.record n).state = .probation
  uidFree : x.uid = true → uid.toNat ≠ 0 → s.uidElsewhere n uid.toNat = false

/-- The tables that a host command which is carried out can write, and its next state, apart from the port. -/
inductive CommandEffect (s : State) : List Table → State → Prop where
  | same : CommandEffect s [] s
  | restart :
      CommandEffect s [.meters, .polls, .portals, .roster, .sweeps, .lines, .notices, .settings, .snapshots]
        (examineEmergN (evaluateAll (restartValues s)))
  | removeMeter (m : Fin 8) : CommandEffect s [.meters, .portals, .notices] (removeMeter m s)
  | configureMeter (m : Fin 8) (address : Nat) (p : Fin 4) (hrange : 1 ≤ address ∧ address ≤ 31)
      (hfree : meterAddressUsed s m address = false) (hlimit : meterLimitReached s m p = false) :
      CommandEffect s [.meters, .portals, .notices] (configureMeter m address p s)
  | readPortal (p : Fin 4) : CommandEffect s [.meters] (clearReported (photoOf s p) s)
  | setProfile (p : Fin 4) (v : Profile) (hv : v.inRange) :
      CommandEffect s [.portals] (s.setPortal p { s.portal p with pendingProfile := some v })
  | setProfileAtOnce (p : Fin 4) (v : Profile) (hv : v.inRange) :
      CommandEffect s [.portals, .notices]
        (commitProfile p (s.setPortal p { s.portal p with pendingProfile := some v }))
  | start (p : Fin 4) (m : RunMode) (hmode : (s.portal p).mode = .halted) :
      CommandEffect s [.portals, .sweeps, .notices] (startPortal p m s)
  | halt (p : Fin 4) (hmode : (s.portal p).mode = .auto ∨ (s.portal p).mode = .manual) :
      CommandEffect s [.portals, .sweeps] (haltPortal p s)
  | setRamp (p : Fin 4) (r : RampSettings) (hsteps : 2 ≤ r.steps ∧ r.steps ≤ 40) (hup : 1 ≤ r.up ∧ r.up ≤ 10000)
      (hdown : 1 ≤ r.down ∧ r.down ≤ 10000) (hdeadband : r.deadband ≤ 500) (hrefresh : 10 ≤ r.refresh ∧ r.refresh ≤ 600) :
      CommandEffect s [.portals] (s.setPortal p { s.portal p with ramp := r })
  | requestMode (p : Fin 4) (m : RunMode) (hmode : (s.portal p).mode ≠ .halted) :
      CommandEffect s [.portals] (s.setPortal p ((s.portal p).requested m))
  | setStageLevel (p : Fin 4) (i : Fin 6) (level : Nat) (hlevel : level ≤ 10000) (hmode : (s.portal p).mode = .manual) :
      CommandEffect s [.portals] (s.setPortal p { s.portal p with manual := (s.portal p).manual.set i level })
  | uncouple (p : Fin 4) : CommandEffect s [.portals, .notices] (couple p none s)
  | couple (p q : Fin 4) (hgood : badCoupling s p q = false) :
      CommandEffect s [.portals, .notices] (couple p (some q) s)
  | setEmergencyEnable (p : Fin 4) (on : Bool) :
      CommandEffect s [.portals] (s.setPortal p { s.portal p with emergencyEnable := on })
  | enableInEmergency (p : Fin 4) (hasserted : s.emergAsserted = true) (hmode : (s.portal p).mode ≠ .emergency) :
      CommandEffect s [.portals, .sweeps, .notices]
        (enterEmergency p (s.setPortal p { s.portal p with emergencyEnable := true }))
  | release (p : Fin 4) (hmode : (s.portal p).mode = .emergency) (hpin : s.emergAsserted = false) :
      CommandEffect s [.portals, .notices] (releasePortal p ((s.portal p).returnMode.getD .halted) s)
  | removePlan (p : Fin 4) (hidle : planBusy s p = false) (hempty : occupied s p = 0) :
      CommandEffect s [.plans, .portals, .notices] (writePlan p none s)
  | setPlan (p : Fin 4) (q : Plan) (hidle : planBusy s p = false) (hempty : occupied s p = 0) (hwf : q.wf = true)
      (hapart : overlapsOther s p q = false) : CommandEffect s [.plans, .portals, .notices] (writePlan p (some q) s)
  | admission (x : Admission) (capability : Option Bool) (lmin : Nat) (hpassed : x.Passed s)
      (hsource : x.Sourced capability lmin s) :
      CommandEffect s [.roster, .lines, .portals, .sweeps, .notices] (fillSlot x capability lmin s)
  | amend (n : Nat) (x : Selection) (m : Half) (override : Byte) (pinned : Half) (uid : UidField)
      (hpassed : AmendPassed n x uid s) :
      CommandEffect s [.roster] (s.setRecord n (amended x m override pinned uid (s.record n)))
  | amendAsking (n : Nat) (x : Selection) (m : Half) (override : Byte) (pinned : Half) (uid : UidField)
      (hpassed : AmendPassed n x uid s) :
      CommandEffect s [.roster, .portals, .sweeps, .notices]
        (requestForSlot n (s.setRecord n (amended x m override pinned uid (s.record n))))
  | move (n k : Nat) (hn : n < 512) (hk : k < 512) (hfull : (s.record n).state ≠ .vacant)
      (hretiring : (s.record n).state ≠ .retiring) (hplan : ∃ p, inFootprint s p k = true)
      (hvacant : (s.record k).nonVacant = false) :
      CommandEffect s [.roster, .portals, .sweeps, .notices] (moveRecord n k s)
  | retire (n : Nat) (q : Place) (hn : n < 512) (hfull : (s.record n).state ≠ .vacant)
      (hretiring : (s.record n).state ≠ .retiring) (hplace : (s.record n).place = some q)
      (hroom : (s.line q.line).admin.length < 16) :
      CommandEffect s [.roster, .lines, .portals, .sweeps, .notices] (retireRecord n q s)
  | clearFault (n : Nat) (hn : n < 512) (hfull : (s.record n).state ≠ .vacant)
      (hretiring : (s.record n).state ≠ .retiring) :
      CommandEffect s [.roster, .portals, .sweeps, .notices] (clearFaultOf n s)
  | readRecord (n : Nat) (hn : n < 512) :
      CommandEffect s [.roster] (s.setRecord n { s.record n with changed := false })
  | resweep (p : Fin 4) (hmode : (s.portal p).mode ≠ .halted) :
      CommandEffect s [.portals, .sweeps, .notices] (requestSweep p s)
  | setLine (l : Line) (limit : Nat) (hpresent : s.linePresent l = true) (hlimit : 1 ≤ limit ∧ limit ≤ 7) :
      CommandEffect s [.roster, .lines, .portals, .sweeps, .notices] (applyLimit l limit s)
  | rejectStray (l : Line) (address : Nat) (hpresent : s.linePresent l = true) (haddress : DriverAddress address)
      (hstray : (s.line l).hasStray address = true) : CommandEffect s [.lines, .notices] (rejectStray l address s)
  | clearIgnore (l : Line) (hpresent : s.linePresent l = true) :
      CommandEffect s [.lines] (s.setLine l { s.line l with ignored := [] })
  | setPriority (cs : List (Fin 32)) (priority : Nat) (hpriority : 1 ≤ priority ∧ priority ≤ 15) :
      CommandEffect s [.settings]
        (forEach cs (fun c s => s.setNoticeClass c { s.noticeClass c with priority := priority }) s)
  | mask (cs : List (Fin 32)) (masked : Bool) :
      CommandEffect s [.settings]
        (forEach cs (fun c s => s.setNoticeClass c { s.noticeClass c with masked := masked }) s)
  | takeNotice (c : Fin 32) (hpick : pickClass s = some c) : CommandEffect s [.notices, .settings] (takenNotice c s)
  | finishNotice (e : StackEntry) (rest : List StackEntry) (hstack : s.notices.stack = e :: rest) :
      CommandEffect s [.notices, .settings] (finishedNotice e rest s)
  | setAutoFinish (on : Bool) : CommandEffect s [.settings] { s with notices := { s.notices with autoFinish := on } }
  | snapshot (ps : List (Fin 4)) (x : Fin 4 → Snapshot) :
      CommandEffect s [.snapshots] (forEach ps (fun p t => t.setSnapshot p (x p)) s)
  | readSnapshot (p : Fin 4) (shown : Photo) :
      CommandEffect s [.snapshots, .meters] (clearReported shown (s.setSnapshot p { photo := none, output := none }))

/-- R167: a command's own rule refuses, and changes nothing, or answers OK or CLAMPED with a command's effect. -/
def Answered.Follows (r : Answered) (s : State) : Prop :=
  (∃ code, 0x10 ≤ (answerCode code).toNat ∧ r = refuse code s)
    ∨ (r.reply.answer = .ok ∨ r.reply.answer = .clamped) ∧ ∃ ts, CommandEffect s ts r.state

theorem follows_refuse {s : State} (code : Answer) (h : 0x10 ≤ (answerCode code).toNat) : (refuse code s).Follows s :=
  .inl ⟨code, h, rfl⟩

theorem follows_done {s t : State} {ts : List Table} (clamped : Bool) (h : CommandEffect s ts t) :
    (done clamped t).Follows s :=
  .inr ⟨by cases clamped <;> simp [done], ts, h⟩

theorem follows_answer {s t : State} {ts : List Table} (payload : List Byte) (h : CommandEffect s ts t) :
    (answer payload t).Follows s :=
  .inr ⟨.inl rfl, ts, h⟩

end Sys2Proof.Machine
end

section
/-! SUPPORT. Each host command's own rule is refused or has its effect. -/

namespace Sys2Proof.Machine

/-! ## Operands -/

theorem presentLine_ok {s : State} {b : Byte} {l : Line} (h : presentLine s b = .ok l) :
    lineOf b = some l ∧ s.linePresent l = true := by
  unfold presentLine at h
  split at h
  · cases h
  · split at h
    · cases h
      exact ⟨‹_›, ‹_›⟩
    · cases h

theorem presentLine_error {s : State} {b : Byte} {a : Answer} (h : presentLine s b = .error a) :
    a = .badValue ∨ a = .noLine := by
  unfold presentLine at h
  split at h
  · cases h; exact .inl rfl
  · split at h
    · cases h
    · cases h; exact .inr rfl

theorem addressOf_range {b : Byte} {a : Nat} (h : addressOf b = some a) : DriverAddress a := by
  unfold addressOf at h
  split at h
  · cases h
  · rename_i hb
    cases h
    obtain ⟨h0, h255⟩ := not_or.mp hb
    have h0' : b.toNat ≠ 0 := fun e => h0 (BitVec.eq_of_toNat_eq e)
    have h255' : b.toNat ≠ 255 := fun e => h255 (BitVec.eq_of_toNat_eq e)
    have := b.isLt
    exact ⟨by omega, by omega⟩

theorem slotOf_eq_some {h : Half} {n : Nat} (hs : slotOf h = some n) : n = h.toNat ∧ n < 512 := by
  unfold slotOf at hs
  split at hs
  · cases hs; exact ⟨rfl, ‹_›⟩
  · cases hs

theorem exists_inFootprint_of_portalOfSlot {s : State} {n : Nat} (h : ¬ (portalOfSlot s n).isNone = true) :
    ∃ p, inFootprint s p n = true := by
  obtain ⟨p, hp⟩ := Option.ne_none_iff_exists'.mp fun hnone => h (Option.isNone_iff_eq_none.mpr hnone)
  exact ⟨p, by simpa using List.find?_some hp⟩

theorem Profile.inRange_clamped {v : Profile} (h : v.clamped.fractionsFall = true) : v.clamped.inRange := by
  simp only [Profile.fractionsFall, Bool.and_eq_true, decide_eq_true_eq, and_assoc] at h
  obtain ⟨h2, h3, h4, h5, h6⟩ := h
  have within_range (low high n : Nat) (hle : low ≤ high) := le_clamp_and_clamp_le hle n
  refine ⟨within_range 20 120 _ (by decide), ⟨h2, h3, h4, h5, h6⟩, fun i => ?_, (within_range 0 2000 _ (by decide)).2,
    (within_range 0 3000 _ (by decide)).2, within_range 1 16 _ (by decide), (within_range 0 12000 _ (by decide)).2,
    within_range 2 60 _ (by decide), (within_range 0 500 _ (by decide)).2⟩
  have hi : v.clamped.lmax[i] = clamp 100 200000 v.lmax[i] := by
    fin_cases i <;> rfl
  rw [hi]
  exact le_clamp_and_clamp_le (by omega) _

/-! ## Meters, portals and plans -/

theorem setMeter_follows (meter operation address portal : Byte) (s : State) :
    (setMeter meter operation address portal s).Follows s := by
  unfold setMeter
  split
  · exact follows_refuse _ (by decide)
  next m _ =>
    split
    · exact follows_done _ (.removeMeter m)
    split
    · exact follows_refuse _ (by decide)
    split
    · exact follows_refuse _ (by decide)
    next haddress =>
      split
      · exact follows_refuse _ (by decide)
      next p _ =>
        split
        · exact follows_refuse _ (by decide)
        next hfree =>
          split
          · exact follows_refuse _ (by decide)
          next hlimit =>
            exact follows_done _ (.configureMeter m _ p (by omega) (by simpa using hfree) (by simpa using hlimit))

theorem readPortal_follows (portal : Byte) (s : State) : (readPortal portal s).Follows s := by
  unfold readPortal
  split
  · exact follows_refuse _ (by decide)
  · exact follows_answer _ (.readPortal _)

theorem setProfile_follows (portal flags : Byte) (v : RawProfile) (s : State) : (setProfile portal flags v s).Follows s := by
  unfold setProfile
  split
  · exact follows_refuse _ (by decide)
  split
  · exact follows_refuse _ (by decide)
  next atOnce _ =>
    dsimp only
    split
    next hfall =>
      cases atOnce
      · exact follows_done _ (.setProfile _ _ (Profile.inRange_clamped hfall))
      · exact follows_done _ (.setProfileAtOnce _ _ (Profile.inRange_clamped hfall))
    · exact follows_refuse _ (by decide)

theorem startCommand_follows (portal mode : Byte) (s : State) : (startCommand portal mode s).Follows s := by
  unfold startCommand
  split
  · split
    next hmode => exact follows_done _ (.start _ _ hmode)
    all_goals exact follows_refuse _ (by decide)
  · exact follows_refuse _ (by decide)

theorem haltCommand_follows (portal : Byte) (s : State) : (haltCommand portal s).Follows s := by
  unfold haltCommand
  split
  · exact follows_refuse _ (by decide)
  split
  next hmode => exact follows_done _ (.halt _ (.inl hmode))
  next hmode => exact follows_done _ (.halt _ (.inr hmode))
  · exact follows_done _ .same
  · exact follows_refuse _ (by decide)

theorem setRamp_follows (portal steps : Byte) (up down deadband refresh : Half) (s : State) :
    (setRamp portal steps up down deadband refresh s).Follows s := by
  unfold setRamp
  split
  · exact follows_refuse _ (by decide)
  · exact follows_done _ (.setRamp _ _ (le_clamp_and_clamp_le (by decide) _) (le_clamp_and_clamp_le (by decide) _)
      (le_clamp_and_clamp_le (by decide) _) (le_clamp_and_clamp_le (Nat.zero_le 500) _).2
      (le_clamp_and_clamp_le (by decide) _))

theorem requestMode_follows (portal mode : Byte) (s : State) : (requestMode portal mode s).Follows s := by
  unfold requestMode
  split
  · split
    · exact follows_refuse _ (by decide)
    next hmode => exact follows_done _ (.requestMode _ _ hmode)
  · exact follows_refuse _ (by decide)

theorem setStageLevel_follows (portal stage : Byte) (level : Half) (s : State) :
    (setStageLevel portal stage level s).Follows s := by
  unfold setStageLevel
  split
  · exact follows_refuse _ (by decide)
  split
  · exact follows_refuse _ (by decide)
  split
  · exact follows_refuse _ (by decide)
  next hmode =>
    exact follows_done _ (.setStageLevel _ _ _ (le_clamp_and_clamp_le (Nat.zero_le _) _).2 (not_not.mp hmode))

theorem setCoupling_follows (follower leader : Byte) (s : State) : (setCoupling follower leader s).Follows s := by
  unfold setCoupling
  split
  · exact follows_refuse _ (by decide)
  split
  · exact follows_done _ (.uncouple _)
  split
  · exact follows_refuse _ (by decide)
  split
  · exact follows_refuse _ (by decide)
  next hgood => exact follows_done _ (.couple _ _ (by simpa using hgood))

theorem setEmergencyEnable_follows (portal setting : Byte) (s : State) : (setEmergencyEnable portal setting s).Follows s := by
  unfold setEmergencyEnable
  split
  next p on _ _ =>
    dsimp only
    split
    next h =>
      obtain ⟨rfl, hpin, hmode⟩ := h
      exact follows_done _ (.enableInEmergency p hpin (by simpa using hmode))
    · exact follows_done _ (.setEmergencyEnable p on)
  · exact follows_refuse _ (by decide)

theorem releaseCommand_follows (portal : Byte) (s : State) : (releaseCommand portal s).Follows s := by
  unfold releaseCommand
  split
  · exact follows_refuse _ (by decide)
  split
  · exact follows_refuse _ (by decide)
  next hmode =>
    split
    · exact follows_refuse _ (by decide)
    next hpin => exact follows_done _ (.release _ (not_not.mp hmode) (by simpa using hpin))

theorem setPlanCommand_follows (portal stages rows positions : Byte) (base rowStride stageStride : Half) (s : State) :
    (setPlanCommand portal stages rows positions base rowStride stageStride s).Follows s := by
  unfold setPlanCommand
  split
  · exact follows_refuse _ (by decide)
  dsimp only
  split
  · exact follows_refuse _ (by decide)
  next hidle =>
    split
    · exact follows_refuse _ (by decide)
    next hempty =>
      have hidle := Bool.eq_false_of_not_eq_true hidle
      split
      · exact follows_done _ (.removePlan _ hidle (not_not.mp hempty))
      split
      · exact follows_refuse _ (by decide)
      next hwf =>
        split
        · exact follows_refuse _ (by decide)
        next hapart =>
          exact follows_done _ (.setPlan _ _ hidle (not_not.mp hempty) (by simpa using hwf) (by simpa using hapart))

/-! ## The roster -/

theorem admissionChecks_passed {slot : Half} {line address : Byte} {uid : Nat} {m : Half} {override : Byte} {s : State}
    {x : Admission} (h : admissionChecks slot line address uid m override s = .ok x) :
    x.Passed s ∧ x.uid = uid ∧ lineOf line = some x.place.line ∧ addressOf address = some x.place.address := by
  unfold admissionChecks at h
  split at h
  · cases h
  next n hslot =>
    split at h
    · cases h
    next hplan =>
      split at h
      · cases h
      next hvacant =>
        split at h
        · cases h
        next hline =>
          split at h
          next l a o hl ha ho =>
            split at h
            · cases h
            next hplace =>
              split at h
              · cases h
              next huid =>
                cases h
                refine ⟨⟨(slotOf_eq_some hslot).2, exists_inFootprint_of_portalOfSlot hplan,
                  by simpa using hvacant, ?_, addressOf_range ha, by simpa using hplace, fun hne => ?_⟩, rfl, hl, ha⟩
                · cases l
                  · rfl
                  · have hb : line = 1 := BitVec.eq_of_toNat_eq (lineOf_eq_some.mp hl).symm
                    simpa [hb] using hline
                · simpa [hne] using huid
          · cases h

theorem admissionChecks_error {slot : Half} {line address : Byte} {uid : Nat} {m : Half} {override : Byte} {s : State}
    {a : Answer} (h : admissionChecks slot line address uid m override s = .error a) : 0x10 ≤ (answerCode a).toNat := by
  unfold admissionChecks at h
  repeat' split at h
  all_goals cases h <;> decide

theorem admitCommand_follows (slot : Half) (line address : Byte) (uid : UidField) (m : Half) (override : Byte) (s : State) :
    (admitCommand slot line address uid m override s).Follows s := by
  unfold admitCommand
  split
  next h => exact follows_refuse _ (admissionChecks_error h)
  next x h =>
    obtain ⟨hpassed, huid, -, -⟩ := admissionChecks_passed h
    exact follows_done _ (.admission x none 0 hpassed (.inl ⟨rfl, rfl, huid ▸ uid.isLt⟩))

theorem admitStrayCommand_follows (line address : Byte) (slot m : Half) (override : Byte) (s : State) :
    (admitStrayCommand line address slot m override s).Follows s := by
  unfold admitStrayCommand
  dsimp only
  split
  next h => exact follows_refuse _ (admissionChecks_error h)
  next x h =>
    split
    · exact follows_refuse _ (by decide)
    next e he =>
      obtain ⟨hpassed, huid, hl, ha⟩ := admissionChecks_passed h
      rw [strayOf, hl, ha] at he
      refine follows_done _ (.admission x _ _ hpassed (.inr ⟨e, List.mem_of_find?_eq_some he, ?_, ?_, rfl, rfl⟩))
      · simpa using List.find?_some he
      · rw [huid, strayOf, hl, ha, he]; rfl

theorem amendCommand_follows (slot : Half) (selection : Byte) (m : Half) (override : Byte) (pinned : Half) (uid : UidField)
    (s : State) : (amendCommand slot selection m override pinned uid s).Follows s := by
  unfold amendCommand
  split
  · exact follows_refuse _ (by decide)
  next n hslot =>
    split
    · exact follows_refuse _ (by decide)
    next x _ =>
      dsimp only
      split
      · exact follows_refuse _ (by decide)
      next hfull =>
        split
        · exact follows_refuse _ (by decide)
        next hbusy =>
          split
          · exact follows_refuse _ (by decide)
          next huid =>
            obtain ⟨hretiring, hprobation⟩ := not_or.mp hbusy
            have hpassed : AmendPassed n x uid s :=
              ⟨(slotOf_eq_some hslot).2, hfull, hretiring, fun hx => not_not.mp fun hne => hprobation ⟨hx, hne⟩,
                fun hx hne => by simpa [hx, hne] using huid⟩
            split
            · exact follows_done _ (.amendAsking n x m override pinned uid hpassed)
            · exact follows_done _ (.amend n x m override pinned uid hpassed)

theorem moveCommand_follows (slot newSlot : Half) (s : State) : (moveCommand slot newSlot s).Follows s := by
  unfold moveCommand
  split
  next n k hn hk =>
    split
    · exact follows_refuse _ (by decide)
    next hfull =>
      split
      · exact follows_refuse _ (by decide)
      next hretiring =>
        split
        · exact follows_refuse _ (by decide)
        next hplan =>
          split
          · exact follows_refuse _ (by decide)
          next hvacant =>
            exact follows_done _ (.move n k (slotOf_eq_some hn).2 (slotOf_eq_some hk).2 hfull hretiring
              (exists_inFootprint_of_portalOfSlot hplan) (by simpa using hvacant))
  · exact follows_refuse _ (by decide)

theorem retireCommand_follows (slot : Half) (s : State) : (retireCommand slot s).Follows s := by
  unfold retireCommand
  split
  · exact follows_refuse _ (by decide)
  next n hslot =>
    dsimp only
    split
    · exact follows_refuse _ (by decide)
    next hfull =>
      split
      · exact follows_refuse _ (by decide)
      next hretiring =>
        split
        · exact follows_refuse _ (by decide)
        next q hplace =>
          split
          · exact follows_refuse _ (by decide)
          next hroom =>
            exact follows_done _ (.retire n q (slotOf_eq_some hslot).2 hfull hretiring hplace (Nat.not_le.mp hroom))

theorem clearFaultCommand_follows (slot : Half) (s : State) : (clearFaultCommand slot s).Follows s := by
  unfold clearFaultCommand
  split
  · exact follows_refuse _ (by decide)
  next n hslot =>
    split
    · exact follows_refuse _ (by decide)
    next hfull =>
      split
      · exact follows_refuse _ (by decide)
      next hretiring => exact follows_done _ (.clearFault n (slotOf_eq_some hslot).2 hfull hretiring)

theorem readRecordCommand_follows (slot : Half) (s : State) : (readRecordCommand slot s).Follows s := by
  unfold readRecordCommand
  split
  · exact follows_refuse _ (by decide)
  next hslot => exact follows_answer _ (.readRecord _ (slotOf_eq_some hslot).2)

theorem foundAnswer_follows (found : Option Nat) (s : State) : (foundAnswer found s).Follows s := by
  unfold foundAnswer
  split
  · exact follows_refuse _ (by decide)
  · exact follows_answer _ .same

theorem findCommand_follows (line address : Byte) (s : State) : (findCommand line address s).Follows s := by
  unfold findCommand
  split
  · split
    · exact foundAnswer_follows _ s
    · exact follows_refuse _ (by decide)
  · exact follows_refuse _ (by decide)

theorem findUidCommand_follows (uid : UidField) (s : State) : (findUidCommand uid s).Follows s := by
  unfold findUidCommand
  split
  · exact follows_refuse _ (by decide)
  · exact foundAnswer_follows _ s

theorem listCommand_follows (start : Half) (portal states changed : Byte) (s : State) :
    (listCommand start portal states changed s).Follows s := by
  unfold listCommand
  split
  · exact follows_refuse _ (by decide)
  split
  · exact follows_refuse _ (by decide)
  · exact follows_answer _ .same

/-! ## Sweeps, lines and strays -/

theorem resweepCommand_follows (portal : Byte) (s : State) : (resweepCommand portal s).Follows s := by
  unfold resweepCommand
  split
  · exact follows_refuse _ (by decide)
  split
  · exact follows_refuse _ (by decide)
  next hmode => exact follows_done _ (.resweep _ hmode)

theorem follows_presentLine {s : State} {line : Byte} (work : Line → Answered)
    (h : ∀ l, s.linePresent l = true → (work l).Follows s) :
    (match presentLine s line with
      | .error a => refuse a s
      | .ok l => work l).Follows s := by
  split
  next a ha =>
    refine follows_refuse a ?_
    obtain rfl | rfl := presentLine_error ha <;> decide
  next l hl => exact h l (presentLine_ok hl).2

theorem setLineCommand_follows (line limit : Byte) (s : State) : (setLineCommand line limit s).Follows s :=
  follows_presentLine _ fun l hl => follows_done _ (.setLine l _ hl (le_clamp_and_clamp_le (by omega) _))

theorem readLineCommand_follows (line : Byte) (s : State) : (readLineCommand line s).Follows s := by
  unfold readLineCommand
  split
  · exact follows_refuse _ (by decide)
  · exact follows_answer _ .same

theorem readStraysCommand_follows (line : Byte) (s : State) : (readStraysCommand line s).Follows s :=
  follows_presentLine _ fun _ _ => follows_answer _ .same

theorem clearIgnoreCommand_follows (line : Byte) (s : State) : (clearIgnoreCommand line s).Follows s :=
  follows_presentLine _ fun l hl => follows_done _ (.clearIgnore l hl)

theorem rejectStrayCommand_follows (line address : Byte) (s : State) : (rejectStrayCommand line address s).Follows s := by
  unfold rejectStrayCommand
  split
  next l a _ ha =>
    split
    · exact follows_refuse _ (by decide)
    next hpresent =>
      split
      · exact follows_refuse _ (by decide)
      next hstray =>
        exact follows_done _ (.rejectStray l a (by simpa using hpresent) (addressOf_range ha) (by simpa using hstray))
  · exact follows_refuse _ (by decide)

/-! ## Notices and snapshots -/

theorem setPriorityCommand_follows (cls priority : Byte) (s : State) : (setPriorityCommand cls priority s).Follows s := by
  unfold setPriorityCommand
  split
  · exact follows_refuse _ (by decide)
  · exact follows_done _ (.setPriority _ _ (le_clamp_and_clamp_le (by omega) _))

theorem maskCommand_follows (cls setting : Byte) (s : State) : (maskCommand cls setting s).Follows s := by
  unfold maskCommand
  split
  · exact follows_done _ (.mask _ _)
  · exact follows_refuse _ (by decide)

theorem takeNoticeCommand_follows (s : State) : (takeNoticeCommand s).Follows s := by
  unfold takeNoticeCommand
  split
  · exact follows_answer _ .same
  next hpick => exact follows_answer _ (.takeNotice _ hpick)

theorem finishNoticeCommand_follows (s : State) : (finishNoticeCommand s).Follows s := by
  unfold finishNoticeCommand
  split
  · exact follows_answer _ .same
  next hstack => exact follows_answer _ (.finishNotice _ _ hstack)

theorem setAutoFinishCommand_follows (setting : Byte) (s : State) : (setAutoFinishCommand setting s).Follows s := by
  unfold setAutoFinishCommand
  split
  · exact follows_refuse _ (by decide)
  · exact follows_done _ (.setAutoFinish _)

theorem snapshotCommand_follows (portals parts : Byte) (s : State) : (snapshotCommand portals parts s).Follows s := by
  unfold snapshotCommand
  split
  · exact follows_refuse _ (by decide)
  · exact follows_answer _ (.snapshot _ _)

theorem readSnapshotCommand_follows (portal : Byte) (s : State) : (readSnapshotCommand portal s).Follows s := by
  unfold readSnapshotCommand
  split
  · exact follows_refuse _ (by decide)
  · exact follows_answer _ (.readSnapshot _ _)

/-! ## All of them -/

/-- R167: a host command's own rule refuses, or answers OK or CLAMPED with one of the effects. -/
theorem carryOut_follows (i : Instr) (s : State) : (carryOut i s).Follows s := by
  cases i
  case restart => exact follows_done _ .restart
  case readIdent => exact follows_answer _ .same
  case setMeter => exact setMeter_follows ..
  case readPortal => exact readPortal_follows ..
  case setProfile => exact setProfile_follows ..
  case start => exact startCommand_follows ..
  case halt => exact haltCommand_follows ..
  case setRamp => exact setRamp_follows ..
  case requestMode => exact requestMode_follows ..
  case setStageLevel => exact setStageLevel_follows ..
  case setCoupling => exact setCoupling_follows ..
  case setEmergencyEnable => exact setEmergencyEnable_follows ..
  case release => exact releaseCommand_follows ..
  case setPlan => exact setPlanCommand_follows ..
  case admitRecord => exact admitCommand_follows ..
  case amend => exact amendCommand_follows ..
  case move => exact moveCommand_follows ..
  case retire => exact retireCommand_follows ..
  case clearFault => exact clearFaultCommand_follows ..
  case readRecord => exact readRecordCommand_follows ..
  case find => exact findCommand_follows ..
  case findUid => exact findUidCommand_follows ..
  case list => exact listCommand_follows ..
  case resweep => exact resweepCommand_follows ..
  case setLine => exact setLineCommand_follows ..
  case readLine => exact readLineCommand_follows ..
  case readStrays => exact readStraysCommand_follows ..
  case admitStray => exact admitStrayCommand_follows ..
  case rejectStray => exact rejectStrayCommand_follows ..
  case clearIgnore => exact clearIgnoreCommand_follows ..
  case setPriority => exact setPriorityCommand_follows ..
  case mask => exact maskCommand_follows ..
  case takeNotice => exact takeNoticeCommand_follows ..
  case finishNotice => exact finishNoticeCommand_follows ..
  case setAutoFinish => exact setAutoFinishCommand_follows ..
  case readNotices => exact follows_answer _ .same
  case snapshot => exact snapshotCommand_follows ..
  case readSnapshot => exact readSnapshotCommand_follows ..
  all_goals exact follows_refuse .unknownCommand (by decide)

end Sys2Proof.Machine
end

section
/-! SUPPORT. Which tables each rule can write: every other table, and the reset line, the straps, the port and the queue, are
left as they are. -/

namespace Sys2Proof.Machine

/-- The pending and holds marks of the notice classes. -/
def Notices.marks (x : Notices) : Vector (Bool × Bool) 32 := x.classes.map fun c => (c.pending, c.holds)

/-- The stack, auto-finish, the priorities and the masks. -/
def Notices.settings (x : Notices) : List StackEntry × Bool × Vector (Nat × Bool) 32 :=
  (x.stack, x.autoFinish, x.classes.map fun c => (c.priority, c.masked))

/-- A table is the same in two states. -/
def Table.Same (s t : State) : Table → Prop
  | .emergN => t.emergN = s.emergN
  | .meters => t.meters = s.meters
  | .polls => (t.lastPolled, t.poll) = (s.lastPolled, s.poll)
  | .portals => t.portals = s.portals
  | .plans => t.plans = s.plans
  | .roster => t.roster = s.roster
  | .sweeps => t.sweeps = s.sweeps
  | .lines => (t.lineA, t.lineB) = (s.lineA, s.lineB)
  | .notices => t.notices.marks = s.notices.marks
  | .settings => t.notices.settings = s.notices.settings
  | .snapshots => t.snapshots = s.snapshots

theorem Table.Same.refl (s : State) (x : Table) : x.Same s s := by cases x <;> rfl

theorem Table.Same.trans {s t u : State} {x : Table} (h : x.Same s t) (k : x.Same t u) : x.Same s u := by
  cases x <;> exact Eq.trans k h

/-- RESET_N's level, the strap store, the port and the queue are as they were. -/
structure OuterKept (s t : State) : Prop where
  resetN : t.resetN = s.resetN
  straps : t.straps = s.straps
  port : t.port = s.port
  pending : t.pending = s.pending

/-- Nothing but the listed tables differs. -/
structure Writes (ts : List Table) (s t : State) : Prop where
  outer : OuterKept s t
  kept : ∀ x, x ∉ ts → x.Same s t

namespace Writes

variable {ts us : List Table}

theorem refl (s : State) : Writes ts s s := ⟨⟨rfl, rfl, rfl, rfl⟩, fun x _ => .refl s x⟩

theorem trans {s t u : State} (h : Writes ts s t) (k : Writes ts t u) : Writes ts s u :=
  ⟨⟨k.outer.resetN.trans h.outer.resetN, k.outer.straps.trans h.outer.straps, k.outer.port.trans h.outer.port,
    k.outer.pending.trans h.outer.pending⟩, fun x hx => (h.kept x hx).trans (k.kept x hx)⟩

theorem mono {s t : State} (h : Writes us s t) (hsub : ∀ x ∈ us, x ∈ ts := by decide) : Writes ts s t :=
  ⟨h.outer, fun x hx => h.kept x fun hus => hx (hsub x hus)⟩

/-- One table is written, and the others are the same by definition. -/
theorem of_table {s t : State} {w : Table} (hw : w ∈ ts) (outer : OuterKept s t) (h : ∀ x, x ≠ w → x.Same s t) :
    Writes ts s t := ⟨outer, fun x hx => h x fun e => hx (e ▸ hw)⟩

theorem of_emergN (s : State) (b : Bool) (h : .emergN ∈ ts := by decide) : Writes ts s { s with emergN := b } :=
  of_table h ⟨rfl, rfl, rfl, rfl⟩ fun x hx => by
    cases x
    case emergN => exact absurd rfl hx
    all_goals rfl

theorem of_polls (s : State) (m : Option (Fin 8)) (a : Option Nat) (h : .polls ∈ ts := by decide) :
    Writes ts s { s with lastPolled := m, poll := a } :=
  of_table h ⟨rfl, rfl, rfl, rfl⟩ fun x hx => by
    cases x
    case polls => exact absurd rfl hx
    all_goals rfl

theorem of_notices (s : State) (n : Notices) (h : .notices ∈ ts := by decide) (h' : .settings ∈ ts := by decide) :
    Writes ts s { s with notices := n } :=
  ⟨⟨rfl, rfl, rfl, rfl⟩, fun x hx => by
    cases x
    case notices => exact absurd h hx
    case settings => exact absurd h' hx
    all_goals rfl⟩

theorem of_meters (s : State) (v : Vector Meter 8) (h : .meters ∈ ts := by decide) : Writes ts s { s with meters := v } :=
  of_table h ⟨rfl, rfl, rfl, rfl⟩ fun x hx => by
    cases x
    case meters => exact absurd rfl hx
    all_goals rfl

theorem of_setPortal (s : State) (p : Fin 4) (y : Portal) (h : .portals ∈ ts := by decide) :
    Writes ts s (s.setPortal p y) :=
  of_table h ⟨rfl, rfl, rfl, rfl⟩ fun x hx => by
    cases x
    case portals => exact absurd rfl hx
    all_goals rfl

theorem of_setMeter (s : State) (m : Fin 8) (y : Meter) (h : .meters ∈ ts := by decide) : Writes ts s (s.setMeter m y) :=
  of_meters s _ h

theorem of_setPlan (s : State) (p : Fin 4) (y : Option Plan) (h : .plans ∈ ts := by decide) : Writes ts s (s.setPlan p y) :=
  of_table h ⟨rfl, rfl, rfl, rfl⟩ fun x hx => by
    cases x
    case plans => exact absurd rfl hx
    all_goals rfl

theorem of_setSweep (s : State) (p : Fin 4) (y : Sweep) (h : .sweeps ∈ ts := by decide) : Writes ts s (s.setSweep p y) :=
  of_table h ⟨rfl, rfl, rfl, rfl⟩ fun x hx => by
    cases x
    case sweeps => exact absurd rfl hx
    all_goals rfl

theorem of_setSnapshot (s : State) (p : Fin 4) (y : Snapshot) (h : .snapshots ∈ ts := by decide) :
    Writes ts s (s.setSnapshot p y) :=
  of_table h ⟨rfl, rfl, rfl, rfl⟩ fun x hx => by
    cases x
    case snapshots => exact absurd rfl hx
    all_goals rfl

theorem settings_setNoticeClass {s : State} {c : Fin 32} {y : NoticeClass}
    (hp : y.priority = (s.noticeClass c).priority) (hm : y.masked = (s.noticeClass c).masked) :
    (s.setNoticeClass c y).notices.settings = s.notices.settings := by
  have hclasses : ((s.setNoticeClass c y).notices.classes.map fun c => (c.priority, c.masked))
      = s.notices.classes.map fun c => (c.priority, c.masked) := by
    ext k hk : 1
    simp only [State.setNoticeClass, Vector.getElem_map, Vector.getElem_set]
    split
    next e => subst e; rw [hp, hm]; rfl
    · rfl
  exact congrArg (fun v => (s.notices.stack, s.notices.autoFinish, v)) hclasses

theorem marks_setNoticeClass {s : State} {c : Fin 32} {y : NoticeClass}
    (hp : y.pending = (s.noticeClass c).pending) (hh : y.holds = (s.noticeClass c).holds) :
    (s.setNoticeClass c y).notices.marks = s.notices.marks := by
  unfold Notices.marks
  ext k hk : 1
  simp only [State.setNoticeClass, Vector.getElem_map, Vector.getElem_set]
  split
  next e => subst e; rw [hp, hh]; rfl
  · rfl

/-- The marks of one class are written. -/
theorem of_marks (s : State) (c : Fin 32) (y : NoticeClass) (hp : y.priority = (s.noticeClass c).priority)
    (hm : y.masked = (s.noticeClass c).masked) (h : .notices ∈ ts := by decide) : Writes ts s (s.setNoticeClass c y) :=
  of_table h ⟨rfl, rfl, rfl, rfl⟩ fun x hx => by
    cases x
    case notices => exact absurd rfl hx
    case settings => exact settings_setNoticeClass hp hm
    all_goals rfl

/-- The priority and the mask of one class are written. -/
theorem of_settings (s : State) (c : Fin 32) (y : NoticeClass) (hp : y.pending = (s.noticeClass c).pending)
    (hh : y.holds = (s.noticeClass c).holds) (h : .settings ∈ ts := by decide) : Writes ts s (s.setNoticeClass c y) :=
  of_table h ⟨rfl, rfl, rfl, rfl⟩ fun x hx => by
    cases x
    case settings => exact absurd rfl hx
    case notices => exact marks_setNoticeClass hp hh
    all_goals rfl

theorem of_setLine (s : State) (l : Line) (y : LineCtl) (h : .lines ∈ ts := by decide) : Writes ts s (s.setLine l y) := by
  cases l <;> exact of_table h ⟨rfl, rfl, rfl, rfl⟩ fun x hx => by
    cases x
    case lines => exact absurd rfl hx
    all_goals rfl

theorem of_setRecord (s : State) (n : Nat) (y : Record) (h : .roster ∈ ts := by decide) :
    Writes ts s (s.setRecord n y) := by
  unfold State.setRecord
  split
  · exact of_table h ⟨rfl, rfl, rfl, rfl⟩ fun x hx => by
      cases x
      case roster => exact absurd rfl hx
      all_goals rfl
  · exact .refl s

theorem of_handEvent (s : State) (c : Fin 32) (h : .notices ∈ ts := by decide) : Writes ts s (handEvent c s) :=
  of_marks s c _ rfl rfl h

theorem of_handFalse (s : State) (c : Fin 32) (h : .notices ∈ ts := by decide) : Writes ts s (handFalse c s) :=
  of_marks s c _ rfl rfl h

theorem of_handTrue (s : State) (c : Fin 32) (h : .notices ∈ ts := by decide) : Writes ts s (handTrue c s) := by
  rw [handTrue_cases]
  exact of_marks s c _ rfl rfl h

theorem of_forEach {α : Type} (xs : List α) {f : α → State → State} (h : ∀ x t, Writes ts t (f x t)) (s : State) :
    Writes ts s (forEach xs f s) :=
  forEach_induction (P := Writes ts s) xs (.refl s) fun x _ t ht => ht.trans (h x t)

end Writes

theorem settings_of_classes {s : State} {cs : Vector NoticeClass 32}
    (h : ∀ c : Fin 32, cs[c].priority = (s.noticeClass c).priority ∧ cs[c].masked = (s.noticeClass c).masked) :
    ({ s.notices with classes := cs } : Notices).settings = s.notices.settings := by
  have hclasses : (cs.map fun c => (c.priority, c.masked)) = s.notices.classes.map fun c => (c.priority, c.masked) := by
    ext k hk : 1
    obtain ⟨hp, hm⟩ := h ⟨k, hk⟩
    simp only [Vector.getElem_map]
    exact Prod.ext hp hm
  exact congrArg (fun v => (s.notices.stack, s.notices.autoFinish, v)) hclasses

theorem OnlySweeps.writes {ts : List Table} {s t : State} (h : OnlySweeps s t)
    (hsub : ∀ x ∈ [Table.portals, .sweeps, .notices], x ∈ ts := by decide) : Writes ts s t := by
  obtain ⟨_, _, cs, rfl, -, hclasses⟩ := h
  refine Writes.mono ⟨⟨rfl, rfl, rfl, rfl⟩, fun x hx => ?_⟩ hsub
  cases x
  case portals | sweeps | notices => exact absurd (by decide) hx
  case settings => exact settings_of_classes fun c => by rw [(hclasses c).1]; exact ⟨rfl, rfl⟩
  all_goals rfl

theorem OnlyPhotometry.writes {ts : List Table} {s t : State} (h : OnlyPhotometry s t)
    (hsub : ∀ x ∈ [Table.portals, .notices], x ∈ ts := by decide) : Writes ts s t := by
  obtain ⟨_, cs, rfl, -, hclasses⟩ := h
  refine Writes.mono ⟨⟨rfl, rfl, rfl, rfl⟩, fun x hx => ?_⟩ hsub
  cases x
  case portals | notices => exact absurd (by decide) hx
  case settings => exact settings_of_classes fun c => by rw [(hclasses c).1]; exact ⟨rfl, rfl⟩
  all_goals rfl

/-! ## Shared operations -/

theorem onlyPhotometry_evalFormer (former : Option MeterSite) (now : Option (Fin 4)) (s : State) :
    OnlyPhotometry s (evalFormer former now s) := by
  unfold evalFormer
  split
  · exact .refl s
  · split
    · exact .refl s
    · exact onlyPhotometry_evalCondition ..

theorem writes_commitProfile (p : Fin 4) (s : State) : Writes [.portals, .notices] s (commitProfile p s) := by
  unfold commitProfile
  split
  · exact .refl s
  · exact (Writes.of_setPortal ..).trans (onlyPhotometry_evalStageShort ..).writes

theorem writes_enterEmergency (p : Fin 4) (s : State) : Writes [.portals, .sweeps, .notices] s (enterEmergency p s) :=
  (((Writes.of_setPortal ..).trans (onlySweeps_requestEmergencySweep ..).writes).trans (.of_handTrue ..)).trans
    (.of_handEvent ..)

theorem writes_enterAll (s : State) : Writes [.portals, .sweeps, .notices] s (enterAll s) :=
  .of_forEach _ (fun p t => by
    unfold enterIfEnabled
    split
    · exact writes_enterEmergency p t
    · exact .refl t) s

theorem writes_examineEmergN (s : State) : Writes [.portals, .sweeps, .notices] s (examineEmergN s) := by
  unfold examineEmergN
  split
  · exact writes_enterAll s
  · exact .refl s

theorem onlyPhotometry_evaluateAll (s : State) : OnlyPhotometry s (evaluateAll s) :=
  (OnlyPhotometry.forEach _ onlyPhotometry_evalCondition s).trans (.forEach _ onlyPhotometry_evalStageShort _)

theorem writes_clearReported (x : Photo) (s : State) : Writes [.meters] s (clearReported x s) := by
  rw [clearReported_frame]
  exact .of_meters ..

theorem writes_removeStray (l : Line) (a : Nat) (s : State) : Writes [.lines, .notices] s (removeStray l a s) := by
  unfold removeStray
  dsimp only
  split
  · exact (Writes.of_setLine ..).trans (.of_handFalse ..)
  · exact .of_setLine ..

/-! ## RESTART (R168) -/

theorem writes_restartNotices (s : State) : Writes [.notices, .settings] s (restartNotices s) := by
  have h := Writes.of_forEach (ts := [.notices, .settings]) allClasses
    (fun c t => .of_marks t c (t.noticeClass c).restarted rfl rfl) s
  exact h.trans (.of_notices _ _)

theorem writes_restartMeters (s : State) : Writes [.meters, .polls] s (restartMeters s) := by
  have h := Writes.of_forEach (ts := [.meters, .polls]) allMeters
    (fun m t => .of_setMeter t m (restartedMeter t (t.meter m))) s
  exact h.trans (.of_polls _ none none)

theorem writes_restartPortals (s : State) : Writes [.portals] s (restartPortals s) :=
  .of_forEach allPortals (fun _ _ => .of_setPortal ..) s

theorem writes_restartRoster (s : State) : Writes [.roster] s (restartRoster s) :=
  .of_forEach _ (fun _ _ => .of_setRecord ..) s

theorem writes_restartSweeps (s : State) : Writes [.sweeps] s (restartSweeps s) :=
  .of_forEach allPortals (fun _ _ => .of_setSweep ..) s

theorem writes_restartLines (s : State) : Writes [.lines] s (restartLines s) :=
  .of_forEach allLines (fun _ _ => .of_setLine ..) s

theorem writes_restartSnapshots (s : State) : Writes [.snapshots] s (restartSnapshots s) :=
  .of_forEach allPortals (fun _ _ => .of_setSnapshot ..) s

theorem writes_restartValues (s : State) :
    Writes [.meters, .polls, .portals, .roster, .sweeps, .lines, .notices, .settings, .snapshots] s (restartValues s) :=
  ((((((writes_restartNotices s).mono.trans (writes_restartMeters _).mono).trans (writes_restartPortals _).mono).trans
    (writes_restartRoster _).mono).trans (writes_restartSweeps _).mono).trans (writes_restartLines _).mono).trans
    (writes_restartSnapshots _).mono

/-! ## Commands -/

theorem writes_couple (p : Fin 4) (leader : Option (Fin 4)) (s : State) :
    Writes [.portals, .notices] s (couple p leader s) := by
  unfold couple
  split
  · exact .refl s
  · exact (Writes.of_setPortal ..).trans (onlyPhotometry_evalCondition ..).writes

theorem onlySweeps_requestForMove (n k : Nat) (s : State) : OnlySweeps s (requestForMove n k s) := by
  unfold requestForMove
  split
  · exact onlySweeps_requestForSlot ..
  · exact (onlySweeps_requestForSlot ..).trans (onlySweeps_requestForSlot ..)

theorem writes_clearFaultOf (n : Nat) (s : State) :
    Writes [.roster, .portals, .sweeps, .notices] s (clearFaultOf n s) := by
  unfold clearFaultOf
  dsimp only
  split
  · exact ((Writes.of_setRecord ..).trans (onlySweeps_requestForSlot ..).writes).trans (onlySweeps_settleSweeps _).writes
  · exact .of_setRecord ..

theorem writes_applyLimit (l : Line) (limit : Nat) (s : State) :
    Writes [.roster, .lines, .portals, .sweeps, .notices] s (applyLimit l limit s) := by
  unfold applyLimit
  have written := (Writes.of_setLine (ts := [.roster, .lines, .portals, .sweeps, .notices]) s l
    { s.line l with missLimit := limit }).trans
    (.of_forEach (slotsOfLine s l) (fun n t => .of_setRecord t n (limited limit (t.record n))) _)
  refine Writes.trans ?_ (onlySweeps_settleSweeps _).writes
  refine Writes.trans ?_ (OnlySweeps.forEach _ onlySweeps_requestForSlot _).writes
  split
  · exact written
  · exact written.trans (.of_handEvent ..)

theorem writes_takenNotice (c : Fin 32) (s : State) : Writes [.notices, .settings] s (takenNotice c s) := by
  have cleared : Writes [.notices, .settings] s (s.setNoticeClass c { s.noticeClass c with pending := false }) :=
    .of_marks _ _ _ rfl rfl
  unfold takenNotice
  dsimp only
  split
  · exact cleared
  · exact cleared.trans (.of_notices ..)

theorem writes_finishedNotice (e : StackEntry) (rest : List StackEntry) (s : State) :
    Writes [.notices, .settings] s (finishedNotice e rest s) := by
  have popped : Writes [.notices, .settings] s { s with notices := { s.notices with stack := rest } } := .of_notices ..
  unfold finishedNotice
  dsimp only
  split
  · exact popped.trans (.of_marks _ _ _ rfl rfl)
  · exact popped

theorem CommandEffect.writes {s t : State} {ts : List Table} (h : CommandEffect s ts t) : Writes ts s t := by
  cases h
  case same => exact .refl s
  case restart =>
    exact ((writes_restartValues s).trans (onlyPhotometry_evaluateAll _).writes).trans (writes_examineEmergN _).mono
  case removeMeter => exact (Writes.of_setMeter ..).trans (onlyPhotometry_evalFormer ..).writes
  case configureMeter =>
    exact ((Writes.of_setMeter ..).trans (onlyPhotometry_evalFormer ..).writes).trans
      (onlyPhotometry_evalCondition ..).writes
  case readPortal => exact writes_clearReported ..
  case setProfileAtOnce => exact (Writes.of_setPortal ..).trans (writes_commitProfile ..)
  case start =>
    exact ((writes_commitProfile ..).mono.trans (.of_setPortal ..)).trans (onlySweeps_requestSweep ..).writes
  case halt p _ =>
    have abandoned : ∀ u, Writes [.portals, .sweeps] u (abandonSweep p u) := fun u => by
      unfold abandonSweep
      split
      · exact .refl u
      · exact .of_setSweep ..
    exact (Writes.of_setPortal ..).trans (abandoned _)
  case setProfile | setRamp | requestMode | setStageLevel | setEmergencyEnable => exact .of_setPortal ..
  case uncouple | couple => exact writes_couple ..
  case enableInEmergency => exact (Writes.of_setPortal ..).trans (writes_enterEmergency ..)
  case release => exact ((Writes.of_setPortal ..).trans (.of_handFalse ..)).trans (.of_handEvent ..)
  case removePlan | setPlan => exact (Writes.of_setPlan ..).trans (onlyPhotometry_evalStageShort ..).writes
  case admission =>
    exact ((((Writes.of_setRecord ..).trans (writes_removeStray ..).mono).trans (.of_setLine ..)).trans
      (onlySweeps_requestForSlot ..).writes).trans (onlySweeps_settleSweeps _).writes
  case amend | readRecord => exact .of_setRecord ..
  case amendAsking => exact (Writes.of_setRecord ..).trans (onlySweeps_requestForSlot ..).writes
  case move =>
    exact (((Writes.of_setRecord ..).trans (.of_setRecord ..)).trans (onlySweeps_requestForMove ..).writes).trans
      (onlySweeps_settleSweeps _).writes
  case retire =>
    exact (((Writes.of_setRecord ..).trans (.of_setLine ..)).trans (onlySweeps_requestForSlot ..).writes).trans
      (onlySweeps_settleSweeps _).writes
  case clearFault => exact writes_clearFaultOf ..
  case resweep => exact (onlySweeps_requestSweep ..).writes
  case setLine => exact writes_applyLimit ..
  case rejectStray => exact (writes_removeStray ..).trans (.of_setLine ..)
  case clearIgnore => exact .of_setLine ..
  case setPriority cs priority _ =>
    exact .of_forEach cs (fun c t => .of_settings t c { t.noticeClass c with priority := priority } rfl rfl) s
  case mask cs masked =>
    exact .of_forEach cs (fun c t => .of_settings t c { t.noticeClass c with masked := masked } rfl rfl) s
  case takeNotice => exact writes_takenNotice ..
  case finishNotice => exact writes_finishedNotice ..
  case setAutoFinish =>
    refine ⟨⟨rfl, rfl, rfl, rfl⟩, fun x hx => ?_⟩
    cases x
    case settings => exact absurd (by decide) hx
    all_goals rfl
  case snapshot => exact .of_forEach _ (fun _ _ => .of_setSnapshot ..) s
  case readSnapshot => exact (Writes.of_setSnapshot ..).trans (writes_clearReported ..).mono

theorem Answered.Follows.outerKept {r : Answered} {s : State} (h : r.Follows s) : OuterKept s r.state := by
  obtain ⟨code, -, rfl⟩ | ⟨-, ts, heffect⟩ := h
  · exact (Writes.refl (ts := []) s).outer
  · exact heffect.writes.outer

/-! ## Events -/

/-- The rule of a row that is an event of the block itself and no transfer, reset or rise of READY; the other rows have
none. -/
def eventRule : Instr → State → State
  | .emergNAssertion => emergNAsserted
  | .emergNRelease => emergNReleased
  | .rampExpiry p => rampExpired p
  | .refreshTimerExpiry p => refreshExpired p
  | .holdTimerExpiry m => holdExpired m
  | .pollDue m => pollDue m
  | .pollStart => pollStart
  | .pollCompletion c0 c1 c2 c3 c4 => pollCompletion c0 c1 c2 c3 c4
  | .pollWindowClose => pollWindowClose
  | .quietPeriodEnd l => quietEnded l
  | .arbiterGrant l => arbiterGrant l
  | .frameEnd l => withPhase l Phase.afterFrame
  | .replyWindowClose l => withPhase l Phase.afterWindow
  | .replyReceived l chars => withPhase l fun ph => chars.foldl Phase.receive ph
  | .replyGapTimeout l => withPhase l Phase.afterGap
  | .exchangeCompletion l chars => exchangeCompletion l chars
  | .replyBegun l c => withPhase l fun ph => ph.receive c
  | _ => id

/-- The tables that an event's rule can write, and the state it leaves. -/
inductive EventEffect (s : State) : List Table → State → Prop where
  | none : EventEffect s [] s
  | emergNAssertion : EventEffect s [.emergN, .portals, .sweeps, .notices] (emergNAsserted s)
  | emergNRelease : EventEffect s [.emergN] (emergNReleased s)
  | rampExpiry (p : Fin 4) : EventEffect s [.portals, .sweeps, .notices] (rampExpired p s)
  | refreshTimerExpiry (p : Fin 4) : EventEffect s [.portals, .sweeps, .notices] (refreshExpired p s)
  | holdTimerExpiry (m : Fin 8) : EventEffect s [.meters, .portals, .notices] (holdExpired m s)
  | pollDue (m : Fin 8) : EventEffect s [.meters] (pollDue m s)
  | pollStart : EventEffect s [.meters, .polls] (pollStart s)
  | pollCompletion (c0 c1 c2 c3 c4 : Byte) :
      EventEffect s [.polls, .meters, .portals, .notices] (pollCompletion c0 c1 c2 c3 c4 s)
  | pollWindowClose : EventEffect s [.polls, .meters, .portals, .notices] (pollWindowClose s)
  | quietPeriodEnd (l : Line) : EventEffect s [.lines] (quietEnded l s)
  | arbiterGrant (l : Line) : EventEffect s [.roster, .lines, .sweeps] (arbiterGrant l s)
  | phase (l : Line) (f : Phase → Phase) : EventEffect s [.lines] (withPhase l f s)
  | exchangeCompletion (l : Line) (chars : List Byte) :
      EventEffect s [.roster, .lines, .portals, .sweeps, .notices] (exchangeCompletion l chars s)

theorem eventEffect (i : Instr) (s : State) : ∃ ts, EventEffect s ts (eventRule i s) := by
  cases i
  case emergNAssertion => exact ⟨_, .emergNAssertion⟩
  case emergNRelease => exact ⟨_, .emergNRelease⟩
  case rampExpiry p => exact ⟨_, .rampExpiry p⟩
  case refreshTimerExpiry p => exact ⟨_, .refreshTimerExpiry p⟩
  case holdTimerExpiry m => exact ⟨_, .holdTimerExpiry m⟩
  case pollDue m => exact ⟨_, .pollDue m⟩
  case pollStart => exact ⟨_, .pollStart⟩
  case pollCompletion c0 c1 c2 c3 c4 => exact ⟨_, .pollCompletion c0 c1 c2 c3 c4⟩
  case pollWindowClose => exact ⟨_, .pollWindowClose⟩
  case quietPeriodEnd l => exact ⟨_, .quietPeriodEnd l⟩
  case arbiterGrant l => exact ⟨_, .arbiterGrant l⟩
  case frameEnd l | replyWindowClose l | replyGapTimeout l => exact ⟨_, .phase l _⟩
  case replyReceived l chars => exact ⟨_, .phase l fun ph => chars.foldl Phase.receive ph⟩
  case replyBegun l c => exact ⟨_, .phase l fun ph => ph.receive c⟩
  case exchangeCompletion l chars => exact ⟨_, .exchangeCompletion l chars⟩
  all_goals exact ⟨_, .none⟩

theorem writes_withPhase (l : Line) (f : Phase → Phase) (s : State) : Writes [.lines] s (withPhase l f s) := by
  unfold withPhase
  split
  · exact .of_setLine ..
  · exact .refl s
  · exact .refl s

theorem writes_takeModeRequest (p : Fin 4) (s : State) : Writes [.portals, .notices] s (takeModeRequest p s) := by
  unfold takeModeRequest
  split
  · exact .refl s
  · exact (Writes.of_setPortal ..).trans (.of_handEvent ..)

theorem writes_stepStages (p : Fin 4) (s : State) : Writes [.portals, .sweeps, .notices] s (stepStages p s) := by
  unfold stepStages
  dsimp only
  split
  · exact .refl s
  · exact (Writes.of_setPortal ..).trans (onlySweeps_requestSweep ..).writes

theorem writes_rampPhases (p : Fin 4) (s : State) : Writes [.portals, .sweeps, .notices] s (rampPhases p s) :=
  (((Writes.of_setPortal ..).trans (writes_commitProfile ..).mono).trans (writes_takeModeRequest ..).mono).trans
    (writes_stepStages ..)

theorem writes_rampExpired (p : Fin 4) (s : State) : Writes [.portals, .sweeps, .notices] s (rampExpired p s) := by
  unfold rampExpired
  split
  · refine (writes_rampPhases p s).trans (.of_forEach _ (fun q t => ?_) _)
    unfold followerExpiry
    split
    · exact writes_rampPhases q t
    · exact .refl t
  · exact .refl s

theorem writes_holdExpired (m : Fin 8) (s : State) : Writes [.meters, .portals, .notices] s (holdExpired m s) := by
  unfold holdExpired
  dsimp only
  split
  · split
    · exact ((Writes.of_setMeter ..).trans (.of_handEvent ..)).trans (onlyPhotometry_evalCondition ..).writes
    · exact .refl s
  · exact .refl s

theorem writes_applyPoll (a : Nat) (result : Option (MeterStatus × Nat)) (s : State) :
    Writes [.meters, .portals, .notices] s (applyPoll a result s) := by
  unfold applyPoll
  split
  · exact .refl s
  · split
    · exact (Writes.of_setMeter ..).trans (onlyPhotometry_readingArrival ..).writes
    · exact .of_setMeter ..
    · exact .of_setMeter ..

theorem writes_pollEnded (s : State) : Writes [.polls] s { s with poll := none } := .of_polls s s.lastPolled none

theorem writes_cursorGranted (p : Fin 4) (l : Line) (n : Nat) (s : State) :
    Writes [.sweeps] s (cursorGranted p l n s) := by
  unfold cursorGranted
  split
  · exact .refl s
  · exact .of_setSweep ..

theorem writes_grantTo (l : Line) (g : Grantee) (s : State) : Writes [.roster, .lines, .sweeps] s (grantTo l g s) := by
  unfold grantTo
  dsimp only
  split
  · unfold grantCursor
    dsimp only
    split
    · exact (Writes.of_setLine ..).trans (writes_cursorGranted ..).mono
    · exact ((Writes.of_setRecord ..).trans (.of_setLine ..)).trans (writes_cursorGranted ..).mono
    · exact .refl s
  · exact .of_setLine ..
  · exact .of_setLine ..

theorem writes_commitApplied (l : Line) (n : Nat) (a : Applied) (s : State) :
    Writes [.roster, .portals, .sweeps, .notices] s (commitApplied l n a s) := by
  unfold commitApplied
  have noticed := (Writes.of_setRecord (ts := [.roster, .portals, .sweeps, .notices]) s n a.record).trans
    (.of_forEach a.events (fun e t => .of_handEvent t (lineEventClass l e)) _)
  dsimp only
  split
  · exact noticed.trans (onlySweeps_requestForSlot ..).writes
  · exact noticed

theorem writes_applyResult (l : Line) (x : Exchange) (reply : Option DriverReply) (s : State) :
    Writes [.roster, .lines, .portals, .sweeps, .notices] s (applyResult l x reply s) := by
  unfold applyResult
  split
  · split
    · unfold strayIdent
      split
      · exact .of_setLine ..
      · exact .refl s
    · exact .refl s
  · dsimp only
    split
    · split
      · exact (writes_commitApplied ..).mono
      · exact .refl s
    · split
      · exact .refl s
      · split
        · exact (writes_commitApplied ..).mono.trans (.of_setLine ..)
        · exact (writes_commitApplied ..).mono

theorem writes_addStray (l : Line) (a : Nat) (s : State) : Writes [.lines, .notices] s (addStray l a s) := by
  unfold addStray
  dsimp only
  split
  · exact (Writes.of_setLine ..).trans (.of_handTrue ..)
  · exact .of_setLine ..

theorem writes_takeRequest (l : Line) (q : Option Request) (s : State) :
    Writes [.lines, .notices] s (takeRequest l q s) := by
  unfold takeRequest
  split
  · exact .refl s
  · unfold takeJoin
    split
    · split
      · exact .refl s
      · exact .of_setLine ..
    · split
      · exact .refl s
      split
      · exact .of_setLine ..
      split
      · exact (writes_addStray ..).trans (.of_setLine ..)
      · exact .refl s
  · exact writes_removeStray ..
  · unfold takeNews
    split
    · split
      · exact .refl s
      · exact .of_setLine ..
    · exact .refl s
  · exact .of_setLine ..

theorem onlySweeps_notifyOrigin (l : Line) (o : Origin) (s : State) : OnlySweeps s (notifyOrigin l o s) := by
  unfold notifyOrigin
  split
  · exact onlySweeps_cursorCompleted ..
  · exact .refl s
  · exact .refl s

theorem writes_complete (l : Line) (x : Exchange) (received request : List Byte) (s : State) :
    Writes [.roster, .lines, .portals, .sweeps, .notices] s (complete l x received request s) :=
  ((((writes_applyResult ..).trans (writes_takeRequest ..).mono).trans (onlySweeps_notifyOrigin ..).writes).trans
    (.of_setLine ..)).trans (onlySweeps_settleSweeps _).writes

theorem EventEffect.writes {s t : State} {ts : List Table} (h : EventEffect s ts t) : Writes ts s t := by
  cases h
  case none => exact .refl s
  case emergNAssertion =>
    unfold emergNAsserted
    split
    · exact .refl s
    · exact (Writes.of_emergN ..).trans (writes_enterAll _).mono
  case emergNRelease => exact .of_emergN s _ (by decide)
  case rampExpiry => exact writes_rampExpired ..
  case refreshTimerExpiry p =>
    unfold refreshExpired
    split
    · exact (Writes.of_setPortal ..).trans (onlySweeps_requestSweep ..).writes
    · exact .refl s
  case holdTimerExpiry => exact writes_holdExpired ..
  case pollDue m =>
    unfold Machine.pollDue
    split
    · exact .of_setMeter ..
    · exact .refl s
  case pollStart =>
    unfold Machine.pollStart
    split
    · exact (Writes.of_setMeter ..).trans (.of_polls ..)
    · exact .refl s
  case pollCompletion c0 c1 c2 c3 c4 =>
    unfold Machine.pollCompletion
    split
    · exact .refl s
    · exact (writes_pollEnded s).mono.trans (writes_applyPoll ..).mono
  case pollWindowClose =>
    unfold Machine.pollWindowClose
    split
    · exact .refl s
    · exact (writes_pollEnded s).mono.trans (writes_applyPoll ..).mono
  case quietPeriodEnd l =>
    unfold quietEnded
    split
    · split
      · exact .of_setLine ..
      · exact .refl s
    · exact .refl s
    · exact .refl s
  case arbiterGrant l =>
    unfold Machine.arbiterGrant
    split
    · split
      · exact .refl s
      · exact writes_grantTo ..
    · exact .refl s
    · exact .refl s
  case phase l f => exact writes_withPhase l f s
  case exchangeCompletion l chars =>
    unfold Machine.exchangeCompletion
    split
    · split
      · exact writes_complete ..
      all_goals exact .refl s
    all_goals exact .refl s

end Sys2Proof.Machine
end

section
/-! SUPPORT. What a step can do: one inversion of exec for all rows of the table, and the principle that the laws a step
keeps are proved by. -/

namespace Sys2Proof

theorem length_put16 (x : Half) : (put16 x).length = 2 := rfl
theorem length_put24 (x : Triple) : (put24 x).length = 3 := rfl
theorem length_put48 (x : UidField) : (put48 x).length = 6 := rfl

theorem length_putProfile (v : RawProfile) : (putProfile v).length = 40 := by
  simp only [putProfile, List.length_append, length_put16, length_put24, List.length_singleton]

end Sys2Proof

namespace Sys2Proof.Machine

/-! ## Host commands -/

/-- R163, R165: a typed host command is the transfer of its frame, carried out by its own rule. -/
theorem exec_of_body {i : Instr} {body : List Byte} (h : Frame.body i = some body) (s : State) :
    ∃ n, exec i s = takeCommand n (carryOut i) s ∧ body.length = n + 1 := by
  cases i <;> cases h <;> refine ⟨_, rfl, ?_⟩ <;>
    simp only [List.length_append, List.length_cons, List.length_nil, length_put16, length_put48, length_putProfile]

/-- What a row can do to the port (R162, R165, R166): nothing; the end of an ignored transfer; a transfer that changes no more
than MISO's record; a command taken; a reply read; and the rise of READY. -/
inductive PortMove (s : State) : Port → Prop where
  | kept : PortMove s s.port
  | ended (hr : s.resetN = true) (miso : List Byte) : PortMove s { s.port with ignoring := false, miso := miso }
  | passed (hr : s.resetN = true) (miso : List Byte) : PortMove s { s.port with miso := miso }
  | prepared (hr : s.resetN = true) (r : Reply) (miso : List Byte) :
      PortMove s { ready := false, held := none, preparing := some r, ignoring := false, miso := miso }
  | sent (hr : s.resetN = true) (held : Option Reply) (hheld : held = none ∨ held = s.port.held) (miso : List Byte) :
      PortMove s { s.port with held := held, miso := miso }
  | raised (hr : s.resetN = true) (hready : s.port.ready = false) (r : Reply) :
      PortMove s { s.port with ready := true, held := some r, preparing := none }

/-- Only the port differs, or only the port and a command's effect. -/
def Transferred (s t : State) : Prop :=
  (∃ port, PortMove s port ∧ t = { s with port := port })
    ∨ s.resetN = true ∧ ∃ ts u port, PortMove s port ∧ CommandEffect s ts u ∧ t = { u with port := port }

theorem transferred_takeTransfer (n : Nat) {work : State → Answered} (h : ∀ s, (work s).Follows s) (s : State) :
    Transferred s (takeTransfer n work s) := by
  unfold takeTransfer transfer powered
  split
  next hr =>
    dsimp only
    split
    · exact .inl ⟨_, .ended hr _, rfl⟩
    · split
      · obtain ⟨code, -, hrefuse⟩ | ⟨-, heffect⟩ := h s
        · rw [hrefuse]
          exact .inl ⟨_, .prepared hr _ _, rfl⟩
        · obtain ⟨ts, heffect⟩ := heffect
          exact .inr ⟨hr, ts, _, _, .prepared hr _ _, heffect, rfl⟩
      · exact .inl ⟨_, .passed hr _, rfl⟩
  · exact .inl ⟨_, .kept, rfl⟩

theorem frameRule_follows (frame : List Byte) (s : State) : (frameRule frame s).Follows s := by
  unfold frameRule
  split
  next a h =>
    refine follows_refuse a ?_
    unfold Frame.parse at h
    split at h
    · cases h; decide
    dsimp only at h
    split at h
    · cases h; decide
    split at h
    · cases h; decide
    split at h
    · cases h; decide
    split at h <;> cases h
    decide
  next i _ => exact carryOut_follows i s

theorem port_replyTransfer (n : Nat) (s : State) :
    ∃ port, PortMove s port ∧ replyTransfer n s = { s with port := port } := by
  unfold replyTransfer transfer powered
  split
  next hr =>
    dsimp only
    split
    · exact ⟨_, .ended hr _, rfl⟩
    · unfold replyReadPort
      split
      next r hready hheld =>
        refine ⟨_, .sent hr (if r.bytes.length ≤ n then none else some r) ?_ (0 :: misoAfter r.bytes n), rfl⟩
        split
        · exact .inl rfl
        · exact .inr hheld.symm
      · exact ⟨_, .passed hr _, rfl⟩
  · exact ⟨_, .kept, rfl⟩

theorem transferred_spiTransfer (bytes : List Byte) (s : State) : Transferred s (spiTransfer bytes s) := by
  have ignored (n : Nat) : Transferred s (transfer n (ignoreTransfer n) s) := by
    unfold transfer powered
    split
    next hr =>
      dsimp only
      split <;> exact .inl ⟨_, .ended hr _, rfl⟩
    · exact .inl ⟨_, .kept, rfl⟩
  unfold spiTransfer
  split
  · exact ignored 0
  · split
    · exact transferred_takeTransfer _ (frameRule_follows _) s
    split
    · exact .inl (port_replyTransfer _ s)
    · exact ignored _

/-! ## Every row -/

/-- What a row of the table can do: its port's part and a command's effect, an event's rule while RESET_N is high, or a
reset. -/
inductive RowEffect (i : Instr) (s : State) : State → Prop where
  | port (p : Port) (hp : PortMove s p) : RowEffect i s { s with port := p }
  | command (hr : s.resetN = true) (ts : List Table) (u : State) (p : Port) (hp : PortMove s p)
      (heffect : CommandEffect s ts u) : RowEffect i s { u with port := p }
  | event (hr : s.resetN = true) : RowEffect i s (eventRule i s)
  | asserted (hi : i = .resetNAsserted) : RowEffect i s (resetAsserted s)
  | released (straps : BitVec 4) (pins : PinLevels) (hi : i = .resetNRelease straps pins) (hr : s.resetN = false) :
      RowEffect i s (resetReleased straps pins s)

theorem Transferred.rowEffect {i : Instr} {s t : State} (h : Transferred s t) : RowEffect i s t := by
  obtain ⟨p, hp, rfl⟩ | ⟨hr, ts, u, p, hp, hu, rfl⟩ := h
  · exact .port p hp
  · exact .command hr ts u p hp hu

theorem rowEffect_of_event {i : Instr} {s t : State} (h : event (eventRule i) s = .next t) : RowEffect i s t := by
  cases h
  unfold powered
  split
  next hr => exact .event hr
  · exact .port s.port .kept

/-- The inversion of exec. -/
theorem exec_rowEffect {i : Instr} {s t : State} (h : exec i s = .next t) : RowEffect i s t := by
  cases hbody : Frame.body i with
  | some body =>
    obtain ⟨n, hexec, -⟩ := exec_of_body hbody s
    rw [hexec] at h
    cases h
    exact (transferred_takeTransfer _ (carryOut_follows i) s).rowEffect
  | none =>
    cases i
    case badCommandFrame | discardedCommandTransfer =>
      cases h
      exact (transferred_takeTransfer _ (frameRule_follows _) s).rowEffect
    case ignoredTransfer =>
      cases h
      exact (transferred_spiTransfer _ s).rowEffect
    case replyRead n =>
      cases h
      obtain ⟨p, hmove, hp⟩ := port_replyTransfer n s
      rw [hp]
      exact .port p hmove
    case resetNAsserted =>
      cases h
      exact .asserted rfl
    case resetNRelease straps pins =>
      cases h
      split
      · exact .port s.port .kept
      next hr => exact .released straps pins rfl (by simpa using hr)
    case readyRise =>
      cases h
      unfold powered
      split
      next hr =>
        unfold raiseReady
        split
        next r hready _ => exact .port _ (.raised hr hready r)
        · exact .port s.port .kept
      · exact .port s.port .kept
    case emergNAssertion | emergNRelease | rampExpiry | refreshTimerExpiry | holdTimerExpiry | pollDue | pollStart
        | pollCompletion | pollWindowClose | quietPeriodEnd | arbiterGrant | frameEnd | replyWindowClose | replyReceived
        | replyGapTimeout | exchangeCompletion | replyBegun => exact rowEffect_of_event h
    all_goals cases hbody

theorem exec_next (i : Instr) (s : State) : ∃ t, exec i s = .next t := by
  cases hbody : Frame.body i with
  | some body =>
    obtain ⟨n, hexec, -⟩ := exec_of_body hbody s
    exact ⟨_, hexec⟩
  | none =>
    cases i
    case badCommandFrame | discardedCommandTransfer | ignoredTransfer | replyRead | resetNAsserted | resetNRelease
        | emergNAssertion | emergNRelease | rampExpiry | refreshTimerExpiry | holdTimerExpiry | pollDue | pollStart
        | pollCompletion | pollWindowClose | quietPeriodEnd | arbiterGrant | frameEnd | replyWindowClose | replyReceived
        | replyGapTimeout | exchangeCompletion | replyBegun | readyRise => exact ⟨_, rfl⟩
    all_goals cases hbody

theorem pending_resetReleased (straps : BitVec 4) (pins : PinLevels) (s : State) :
    (resetReleased straps pins s).pending = s.pending := by
  unfold resetReleased
  dsimp only
  exact ((onlyPhotometry_evaluateAll { s with resetN := true, straps := straps, emergN := pins.emergN }).writes.trans
    (writes_examineEmergN _)).outer.pending

theorem RowEffect.pending {i : Instr} {s t : State} (h : RowEffect i s t) : t.pending = s.pending := by
  cases h
  case port => rfl
  case command heffect => exact heffect.writes.outer.pending
  case event =>
    obtain ⟨ts, heffect⟩ := eventEffect i s
    exact heffect.writes.outer.pending
  case asserted => rfl
  case released straps pins _ _ => exact pending_resetReleased straps pins s

/-- Settles O1: a step is exec by definition, every row answers a next state, and no effect of a row touches the queue. -/
theorem stepRunsTheFrontCommand : Obligations.StepRunsTheFrontCommand := by
  unfold Obligations.StepRunsTheFrontCommand
  refine ⟨fun c s => rfl, fun s hs => ?_, fun c s => ?_⟩
  · rw [step, hs]
  · obtain ⟨t, ht⟩ := exec_next c s
    exact ⟨t, ht, (exec_rowEffect ht).pending⟩

/-- How laws are carried through a step. From laws P of a state follow laws Q of the next one, when neither reads the port or
the queue, and commands, events and both edges of RESET_N lead from P to Q. -/
theorem step_gives {P Q : State → Prop}
    (outerP : ∀ s pending, P s → P { s with pending := pending })
    (outerQ : ∀ s port, Q s → Q { s with port := port })
    (same : ∀ s, P s → Q s)
    (command : ∀ s ts t, s.resetN = true → P s → CommandEffect s ts t → Q t)
    (event : ∀ i s, s.resetN = true → P s → Q (eventRule i s))
    (asserted : ∀ s, P s → Q (resetAsserted s))
    (released : ∀ straps pins s, s.resetN = false → P s → Q (resetReleased straps pins s))
    {s t : State} (hs : P s) (h : step s = .next t) : Q t := by
  unfold step at h
  split at h
  · cases h
    exact same s hs
  next c rest _ =>
    have hs := outerP s rest hs
    cases exec_rowEffect h
    case port p _ => exact outerQ _ p (same _ hs)
    case command hr ts u p _ heffect => exact outerQ _ p (command _ ts u hr hs heffect)
    case event hr => exact event c _ hr hs
    case asserted => exact asserted _ hs
    case released straps pins _ hr => exact released straps pins _ hr hs

end Sys2Proof.Machine
end

section
/-! SUPPORT. The command port (R162 to R167): the frame of each command read back, the checks of a frame, transfers that are
taken and those that are not, and refusals. -/

namespace Sys2Proof

/-- The frame of a command whose code and payload length are those of a row that builds it is read as that command. -/
theorem Frame.parse_encode {i : Instr} {f : List Byte} {code : Byte} {payload : List Byte} {row : CommandRow}
    (h : Frame.encode i = some f) (hbody : Frame.body i = some (code :: payload))
    (hrow : (commandIndex.find? fun row => row.code == code.toNat) = some row) (hlength : payload.length = row.length)
    (hshort : payload.length + 1 < 256) (hbuild : row.build payload = i) : Frame.parse f = .ok i := by
  rw [Frame.encode, hbody] at h
  cases h
  exact (Frame.parse_counted hshort hrow hlength).trans (congrArg Except.ok hbuild)

/-- The bytes of a profile, written out. -/
theorem profileAt_putProfile (a b : Byte) (v : RawProfile) : profileAt (a :: b :: putProfile v) 2 = v := by
  cases v
  simp only [putProfile, put16, put24, List.cons_append, List.nil_append, profileAt, u24, u16, u8, Nat.reduceAdd,
    List.getD_cons_succ, List.getD_cons_zero, u8_append_put16, RawProfile.mk.injEq, true_and, and_true]
  exact ⟨u8_append_put24 _, u8_append_put24 _, u8_append_put24 _, u8_append_put24 _, u8_append_put24 _, u8_append_put24 _⟩

/-- Settles O3: row by row of the index; the fields of each payload read back. -/
theorem commandFramesParseBack : Obligations.CommandFramesParseBack := by
  unfold Obligations.CommandFramesParseBack
  intro i f h
  cases i
  case setProfile p fl v =>
    have hbody : Frame.body (.setProfile p fl v) = some (0x12 :: p :: fl :: putProfile v) := by
      simp only [Frame.body, List.cons_append, List.nil_append]
    apply Frame.parse_encode h hbody rfl
    case hlength => simp only [List.length_cons, length_putProfile]
    case hshort =>
      simp only [List.length_cons, length_putProfile]
      decide
    case hbuild => exact congrArg (Instr.setProfile p fl) (profileAt_putProfile p fl v)
  case setRamp | setStageLevel | setPlan | admitRecord | amend | move | retire | clearFault | readRecord | findUid | list
      | admitStray =>
    apply Frame.parse_encode h (by simp only [Frame.body, put16, put48, List.cons_append, List.nil_append]; rfl) rfl rfl
    case hshort =>
      simp only [List.length_cons, List.length_nil]
      decide
    case hbuild =>
      simp only [u48, u24, u16, u8, Nat.reduceAdd, List.getD_cons_succ, List.getD_cons_zero, u8_append_put16]
      try rw [u24_append_put48]
  case restart | readIdent | setMeter | readPortal | start | halt | requestMode | setCoupling | setEmergencyEnable | release
      | find | resweep | setLine | readLine | readStrays | rejectStray | clearIgnore | setPriority | mask | takeNotice
      | finishNotice | setAutoFinish | readNotices | snapshot | readSnapshot =>
    apply Frame.parse_encode h rfl rfl rfl
    case hshort =>
      simp only [List.length_cons, List.length_nil]
      decide
    case hbuild => rfl
  all_goals cases h

/-! ## Fields written back (R171) -/

theorem put16_append (a b : Byte) : put16 (a ++ b) = [a, b] := by
  rw [put16, BitVec.extractLsb'_append_eq_left, BitVec.extractLsb'_append_eq_right]

theorem put24_append (a : Byte) (b : Half) : put24 (a ++ b) = a :: put16 b := by
  rw [put24, BitVec.extractLsb'_append_eq_left, BitVec.extractLsb'_append_eq_of_add_le (by decide),
    BitVec.extractLsb'_append_eq_of_add_le (by decide), put16]

theorem put48_append (a b : Triple) : put48 (a ++ b) = put24 a ++ put24 b := by
  rw [put48, BitVec.extractLsb'_append_eq_of_le (by decide), BitVec.extractLsb'_append_eq_of_le (by decide),
    BitVec.extractLsb'_append_eq_of_le (by decide), BitVec.extractLsb'_append_eq_of_add_le (by decide),
    BitVec.extractLsb'_append_eq_of_add_le (by decide), BitVec.extractLsb'_append_eq_of_add_le (by decide)]
  rfl

theorem put16_u16 (p : List Byte) (o : Nat) : put16 (u16 p o) = [u8 p o, u8 p (o + 1)] := put16_append ..

theorem put24_u24 (p : List Byte) (o : Nat) : put24 (u24 p o) = [u8 p o, u8 p (o + 1), u8 p (o + 2)] := by
  rw [u24, put24_append, put16_u16]

theorem put48_u48 (p : List Byte) (o : Nat) :
    put48 (u48 p o) = [u8 p o, u8 p (o + 1), u8 p (o + 2), u8 p (o + 3), u8 p (o + 4), u8 p (o + 5)] := by
  rw [u48, put48_append, put24_u24, put24_u24]
  rfl

theorem putProfile_profileAt (p : List Byte) (o : Nat) :
    putProfile (profileAt p o) = (List.range 40).map fun k => u8 p (o + k) := by
  rw [show List.range 40 = [0, 1, 2, 3, 4, 5, 6, 7, 8, 9, 10, 11, 12, 13, 14, 15, 16, 17, 18, 19, 20, 21, 22, 23, 24, 25,
    26, 27, 28, 29, 30, 31, 32, 33, 34, 35, 36, 37, 38, 39] from rfl]
  simp only [putProfile, profileAt, put16_u16, put24_u24, Nat.add_assoc, Nat.reduceAdd, List.cons_append, List.nil_append,
    List.map_cons, List.map_nil, Nat.add_zero]

/-- A payload is the list of its bytes. -/
theorem eq_map_u8 {p : List Byte} {n : Nat} (h : p.length = n) : p = (List.range n).map (u8 p) := by
  refine List.ext_getElem (by simp [h]) fun k hk _ => ?_
  rw [List.getElem_map, List.getElem_range, u8, List.getD_eq_getElem _ _ hk]

/-- R163: the command that a row builds from a payload of its length is written as that code and payload. -/
theorem Frame.body_build {row : CommandRow} (hrow : row ∈ commandIndex) {payload : List Byte}
    (h : payload.length = row.length) : Frame.body (row.build payload) = some (BitVec.ofNat 8 row.code :: payload) := by
  have hp := eq_map_u8 h
  simp only [commandIndex, List.mem_cons, List.not_mem_nil, or_false] at hrow
  repeat' rcases hrow with rfl | hrow
  all_goals
    conv_rhs => rw [hp]
    simp only [Frame.body, put16_u16, put48_u48, putProfile_profileAt]
    rfl

end Sys2Proof
end

section
/-! SUPPORT. Transfers at the port (R162 to R167): a typed command against its frame, the checks of a frame in order, reply
reads, and the transfers that are not taken. -/

namespace Sys2Proof.Machine

/-! ## A typed command and its transfer (R163) -/

theorem frameRule_of_parse {f : List Byte} {i : Instr} (h : Frame.parse f = .ok i) : frameRule f = carryOut i := by
  funext s
  rw [frameRule, h]

theorem frameRule_of_error {f : List Byte} {a : Answer} (h : Frame.parse f = .error a) (s : State) :
    frameRule f s = refuse a s := by
  rw [frameRule, h]

/-- R163: a host command is a taken transfer of a frame of its length, which its own rule carries out. -/
theorem exec_of_encode {i : Instr} {f : List Byte} (h : Frame.encode i = some f) (s : State) :
    exec i s = .next (takeTransfer (f.length + 1) (carryOut i) s) ∧ ∃ n, exec i s = takeCommand n (carryOut i) s := by
  obtain ⟨body, hbody, rfl⟩ := Option.map_eq_some_iff.mp h
  obtain ⟨n, hexec, hlength⟩ := exec_of_body hbody s
  refine ⟨?_, n, hexec⟩
  rw [hexec, takeCommand, transferLength]
  simp only [List.cons_append, List.length_cons, List.length_append, hlength, List.length_nil]

/-- Settles O4: the frame is read back as the command, so both are one transfer carried out by the command's own rule. -/
theorem typedCommandEqualsItsTransfer : Obligations.TypedCommandEqualsItsTransfer := by
  unfold Obligations.TypedCommandEqualsItsTransfer
  intro i f s h
  rw [(exec_of_encode h s).1]
  show _ = Host.Outcome.next (commandTransfer f s)
  rw [commandTransfer, frameRule_of_parse (commandFramesParseBack i f h)]

/-! ## Refusals (R167) -/

/-- Settles O8: a command's own rule refuses or has its effect, and no effect touches the port. -/
theorem refusedCommandsChangeNothing : Obligations.RefusedCommandsChangeNothing := by
  unfold Obligations.RefusedCommandsChangeNothing
  intro i s hi hs
  obtain ⟨body, hbody⟩ := Option.ne_none_iff_exists'.mp hi
  obtain ⟨n, hexec, -⟩ := exec_of_body hbody s
  have hport := (carryOut_follows i s).outerKept.port
  obtain ⟨code, hcode, hrefuse⟩ | ⟨hanswer, heffect⟩ := carryOut_follows i s
  · exact .inr ⟨code, hcode, Refuses.of_work hexec hs hrefuse⟩
  · exact .inl ⟨_, _, _, hanswer, Answers.of_work hexec hs rfl hport⟩

/-! ## The checks of a frame (R163) -/

theorem takeTransfer_of_listening {s : State} (h : s.listening) (n : Nat) (work : State → Answered) :
    takeTransfer n work s = prepare n (work s) := by
  rw [takeTransfer, transfer_of_not_ignoring h.1 h.2.2, if_pos h.2.1]

/-- R163: a taken transfer of a frame that fails a check is answered with its code. -/
theorem refuses_badCommandFrame {s : State} (hs : s.listening) {frame : List Byte} {a : Answer}
    (h : Frame.parse frame = .error a) : Refuses (.badCommandFrame frame) s a := by
  refine ⟨takeTransfer (frame.length + 1) (frameRule frame) s, rfl, ?_⟩
  rw [takeTransfer_of_listening hs, frameRule_of_error h]
  exact ⟨rfl, rfl, rfl, rfl⟩

/-- The index of section 10.9 as codes and payload lengths. -/
def indexLengths : List (Nat × Nat) := commandIndex.map fun row => (row.code, row.length)

/-- What the checks of R163 make of the count and the bytes after it. -/
theorem Frame.parse_of_good {count : Byte} {rest : List Byte}
    (h : ¬ (rest.length < count.toNat + 1 ∨ crc8 (count :: rest.take count.toNat) ≠ u8 rest count.toNat))
    (hcount : count.toNat ≠ 0) :
    Frame.parse (count :: rest) =
      match commandIndex.find? fun row => row.code == (u8 rest 0).toNat with
      | none => .error .unknownCommand
      | some row =>
        if count.toNat ≠ row.length + 1 then .error .badLength else .ok (row.build ((rest.take count.toNat).drop 1)) := by
  rw [Frame.parse, if_neg h]
  cases rest with
  | nil => exact absurd (.inl (Nat.succ_pos _)) h
  | cons code rest =>
    obtain ⟨n, hn⟩ := Nat.exists_eq_succ_of_ne_zero hcount
    rw [hn, List.take_succ_cons]
    rfl

theorem find?_eq_none_iff {code : Nat} :
    (commandIndex.find? fun row => row.code == code) = none ↔ ∀ row ∈ indexLengths, row.1 ≠ code := by
  simp [indexLengths, List.find?_eq_none]

/-- The codes of the index are distinct. -/
theorem length_eq_of_code_eq : ∀ a ∈ indexLengths, ∀ b ∈ indexLengths, a.1 = b.1 → a.2 = b.2 := by
  decide

theorem mem_indexLengths {row : CommandRow} (h : row ∈ commandIndex) : (row.code, row.length) ∈ indexLengths :=
  List.mem_map_of_mem h

theorem exec_badCommandFrame (frame : List Byte) (s : State) :
    exec (.badCommandFrame frame) s = .next (takeTransfer (frame.length + 1) (frameRule frame) s) := rfl

/-- R163: a good frame's row carries it out as the command it spells. -/
theorem badCommandFrame_carriesOut {s : State} (hs : s.listening) {frame : List Byte} {i : Instr} {body : List Byte}
    (hparse : Frame.parse frame = .ok i) (hbody : Frame.body i = some body) :
    ∃ u v, exec (.badCommandFrame frame) s = .next u ∧ exec i s = .next v
      ∧ u.port.preparing = v.port.preparing ∧ { u with port := s.port } = { v with port := s.port } := by
  obtain ⟨n, hexec, -⟩ := exec_of_body hbody s
  refine ⟨_, _, exec_badCommandFrame frame s, hexec, ?_⟩
  rw [takeTransfer_of_listening hs, takeTransfer_of_listening hs, frameRule_of_parse hparse]
  exact ⟨rfl, rfl⟩

/-- Settles O5: each check of R163 in turn, and for a good frame the row of the index that the code names. -/
theorem frameChecksAreMadeInOrder : Obligations.FrameChecksAreMadeInOrder := by
  unfold Obligations.FrameChecksAreMadeInOrder
  intro index s frame hs count code
  have hindex : index = indexLengths := rfl
  rw [hindex]
  cases frame with
  | nil => exact .cons (fun _ => refuses_badCommandFrame hs rfl) fun h => absurd (.inl rfl) h
  | cons c rest =>
    have hbad : (c :: rest = [] ∨ (c :: rest).length < count + 2
        ∨ crc8 ((c :: rest).take (count + 1)) ≠ (c :: rest).getD (count + 1) 0)
        ↔ (rest.length < c.toNat + 1 ∨ crc8 (c :: rest.take c.toNat) ≠ u8 rest c.toNat) := by
      have hcount : count = c.toNat := rfl
      rw [hcount, List.length_cons, List.take_succ_cons, List.getD_cons_succ, u8]
      simp
    have hcode : code = (u8 rest 0).toNat := rfl
    refine .cons (fun h => refuses_badCommandFrame hs ?_) fun hgood => ?_
    · rw [Frame.parse, if_pos (hbad.mp h)]
    have hgood := mt hbad.mpr hgood
    refine .cons (fun h => refuses_badCommandFrame hs ?_) fun hcount => ?_
    · have hzero : c.toNat = 0 := h
      rw [Frame.parse, if_neg hgood, hzero]
      rfl
    have hparse := Frame.parse_of_good hgood hcount
    rw [← hcode] at hparse
    refine .cons (fun h => refuses_badCommandFrame hs ?_) fun hknown => ?_
    · rw [hparse, find?_eq_none_iff.mpr h]
    obtain ⟨row, hrow⟩ := Option.ne_none_iff_exists'.mp (mt find?_eq_none_iff.mp hknown)
    have hmem := mem_indexLengths (List.mem_of_find?_eq_some hrow)
    have hrowcode : row.code = code := by simpa using List.find?_some hrow
    rw [hrow] at hparse
    refine .cons (fun h => refuses_badCommandFrame hs (hparse.trans (if_pos (h _ hmem hrowcode)))) fun hlength => .nil ?_
    have hcountrow : c.toNat = row.length + 1 := by
      push Not at hlength
      obtain ⟨other, hother, hothercode, hcount⟩ := hlength
      exact hcount.trans (congrArg (· + 1) (length_eq_of_code_eq _ hother _ hmem (hothercode.trans hrowcode.symm)))
    rw [show count = c.toNat from rfl, List.drop_succ_cons, List.drop_zero]
    have hparse := hparse.trans (if_neg (not_not.mpr hcountrow))
    obtain ⟨hlong, -⟩ := not_or.mp hgood
    have hbody := Frame.body_build (List.mem_of_find?_eq_some hrow) (payload := (rest.take c.toNat).drop 1)
      (by rw [List.length_drop, List.length_take]; omega)
    have hspelt : BitVec.ofNat 8 row.code :: (rest.take c.toNat).drop 1 = rest.take c.toNat := by
      rw [hrowcode, hcode, BitVec.ofNat_toNat, BitVec.setWidth_eq, hcountrow]
      cases rest with
      | nil => exact absurd hlong (by simp)
      | cons code rest => rfl
    rw [hspelt] at hbody
    obtain ⟨u, v, hu, hv, hpreparing, hsame⟩ := badCommandFrame_carriesOut hs hparse hbody
    exact ⟨_, u, v, hparse, hbody, hu, hv, hpreparing, hsame⟩

/-! ## Reply reads (R166) and transfers that are not taken (R162, R165) -/

theorem Reply.length_bytes (r : Reply) : r.bytes.length = r.payload.length + 3 := by
  simp [Reply.bytes]

theorem exec_replyRead {s : State} (hr : s.resetN = true) (hi : s.port.ignoring = false) (clocked : Nat) :
    exec (.replyRead clocked) s = .next (replyReadPort clocked s) :=
  congrArg _ (transfer_of_not_ignoring hr hi ..)

/-- Settles O6: the two cases of R166, for a state whose transfer is not ignored. -/
theorem replyReadSendsTheHeldReply : Obligations.ReplyReadSendsTheHeldReply := by
  unfold Obligations.ReplyReadSendsTheHeldReply
  intro s clocked hr hi
  rw [exec_replyRead hr hi]
  refine ⟨fun r hready hheld => ?_, fun h => ?_⟩
  · rw [replyReadPort, hready, hheld]
    simp only [Reply.length_bytes]
    rfl
  · obtain hready | hheld := h
    · rw [replyReadPort, hready]
      rfl
    · rw [replyReadPort, hheld]
      cases s.port.ready <;> rfl

theorem takeTransfer_of_ignoring {s : State} (hr : s.resetN = true) (h : s.port.ignoring = true) (n : Nat)
    (work : State → Answered) :
    takeTransfer n work s = { s with port := { s.port with ignoring := false, miso := List.replicate n 0 } } := by
  rw [takeTransfer, transfer_of_ignoring hr h]

/-- R162: a transfer that was in progress at the release of RESET_N is ignored whole, whatever row it is. -/
theorem spiTransfer_of_ignoring {s : State} (hr : s.resetN = true) (h : s.port.ignoring = true) (bytes : List Byte) :
    spiTransfer bytes s
      = { s with port := { s.port with ignoring := false, miso := List.replicate bytes.length 0 } } := by
  cases bytes with
  | nil => exact transfer_of_ignoring hr h ..
  | cons first rest =>
    rw [spiTransfer]
    split
    · exact takeTransfer_of_ignoring hr h ..
    split <;> exact transfer_of_ignoring hr h ..

/-- R162: outside such a transfer, one whose first byte is no selector changes nothing but MISO's record. -/
theorem spiTransfer_of_ignored {s : State} (hr : s.resetN = true) (hi : s.port.ignoring = false) {bytes : List Byte}
    (hcommand : bytes.head? ≠ some 0xA5) (hread : bytes.head? ≠ some 0x5A) :
    spiTransfer bytes s = { s with port := { s.port with miso := List.replicate bytes.length 0 } } := by
  have hport : ignoreTransfer bytes.length s = { s with port := { s.port with miso := List.replicate bytes.length 0 } } := by
    rw [ignoreTransfer, zeros, ← hi]
  cases bytes with
  | nil => exact (transfer_of_not_ignoring hr hi ..).trans hport
  | cons first rest =>
    rw [spiTransfer, if_neg fun h => hcommand (congrArg some h), if_neg fun h => hread (congrArg some h)]
    exact (transfer_of_not_ignoring hr hi ..).trans hport

theorem takeTransfer_of_busy {s : State} (hr : s.resetN = true) (hi : s.port.ignoring = false) (h : s.port.ready = false)
    (n : Nat) (work : State → Answered) :
    takeTransfer n work s = { s with port := { s.port with miso := List.replicate n 0 } } := by
  rw [takeTransfer, transfer_of_not_ignoring hr hi, h]
  rfl

/-- Settles O7: READY's rise by its definition, and each transfer by whether one is left over from before the release. -/
theorem readyAndTransfersThatAreNotTaken : Obligations.ReadyAndTransfersThatAreNotTaken := by
  unfold Obligations.ReadyAndTransfersThatAreNotTaken
  intro s hr sent freed
  refine ⟨fun r hready hpreparing => ?_, fun hi => ⟨?_, fun hready => ⟨fun frame => ?_, fun i f hf => ?_⟩, ?_⟩,
    fun hi => ⟨?_, fun frame => ⟨?_, ?_⟩, fun i f hf => ?_, fun bytes => ?_, fun clocked => ?_⟩⟩
  · refine (event_of_high hr raiseReady).trans ?_
    rw [raiseReady, hready, hpreparing]
  · rw [misoPin, hi]
    rfl
  · exact congrArg _ (takeTransfer_of_busy hr hi hready ..)
  · rw [(exec_of_encode hf s).1, takeTransfer_of_busy hr hi hready]
  · exact fun bytes hcommand hread => congrArg _ (spiTransfer_of_ignored hr hi hcommand hread)
  · rw [misoPin, hi]
    rfl
  · exact congrArg Host.Outcome.next (takeTransfer_of_ignoring hr hi ..)
  · exact congrArg Host.Outcome.next (takeTransfer_of_ignoring hr hi ..)
  · rw [(exec_of_encode hf s).1, takeTransfer_of_ignoring hr hi]
  · exact congrArg _ (spiTransfer_of_ignoring hr hi bytes)
  · exact congrArg _ (transfer_of_ignoring hr hi ..)

end Sys2Proof.Machine
end

section
/-! SUPPORT. The principle that the laws a step keeps are proved by: a law reads some of the tables, and only what writes one
of them is looked at. -/

namespace Sys2Proof.Machine

/-- A law reads nothing but RESET_N's level, the strap store and the listed tables. -/
def Reads (ds : List Table) (Q : State → Prop) : Prop :=
  ∀ s t : State, t.resetN = s.resetN → t.straps = s.straps → (∀ x ∈ ds, x.Same s t) → Q s → Q t

theorem Reads.mono {ds es : List Table} {Q : State → Prop} (h : Reads ds Q) (hsub : ∀ x ∈ ds, x ∈ es := by decide) :
    Reads es Q := fun s t hr hst hx => h s t hr hst fun x hd => hx x (hsub x hd)

theorem Reads.and {ds : List Table} {Q R : State → Prop} (h : Reads ds Q) (k : Reads ds R) :
    Reads ds fun s => Q s ∧ R s :=
  fun s t hr hst hx hq => ⟨h s t hr hst hx hq.1, k s t hr hst hx hq.2⟩

theorem Reads.forall {α : Type} {ds : List Table} {Q : α → State → Prop} (h : ∀ a, Reads ds (Q a)) :
    Reads ds fun s => ∀ a, Q a s :=
  fun s t hr hst hx hq a => h a s t hr hst hx (hq a)

theorem Reads.keeps {ds ts : List Table} {Q : State → Prop} (h : Reads ds Q) {s t : State} (hw : Writes ts s t)
    (hd : ¬ ∃ x ∈ ts, x ∈ ds) (hs : Q s) : Q t :=
  h s t hw.outer.resetN hw.outer.straps (fun x hx => hw.kept x fun hts => hd ⟨x, hts, hx⟩) hs

theorem Reads.of_port {ds : List Table} {Q : State → Prop} (h : Reads ds Q) (s : State) (port : Port) (hs : Q s) :
    Q { s with port := port } := by
  refine h s _ rfl rfl (fun x _ => ?_) hs
  cases x
  all_goals rfl

/-- RESET_N's release, apart from the port (R169). -/
def poweredUp (straps : BitVec 4) (pins : PinLevels) (s : State) : State :=
  examineEmergN (evaluateAll { s with resetN := true, straps := straps, emergN := pins.emergN })

theorem Reads.released {ds : List Table} {Q : State → Prop} (h : Reads ds Q) {straps : BitVec 4} {pins : PinLevels}
    {s : State} (hs : Q (poweredUp straps pins s)) : Q (resetReleased straps pins s) :=
  h.of_port (poweredUp straps pins s) _ hs

/-- While RESET_N is low every table but EMERG_N's level is as at power-on (R169). -/
theorem Reads.asserted {ds : List Table} {Q : State → Prop} (h : Reads ds Q) (h0 : Q State.reset) (s : State)
    (hd : .emergN ∉ ds := by decide) : Q (resetAsserted s) := by
  refine h State.reset _ rfl rfl (fun x hx => ?_) h0
  cases x
  case emergN => exact absurd hx hd
  all_goals rfl

/-- From laws P of a state follow laws Q of the next one, Q being among P, when the commands and events that write a table
Q reads lead from P to Q, and both edges of RESET_N do. -/
theorem step_keeps {P Q : State → Prop} {ds : List Table} (reads : Reads ds Q) (among : ∀ s, P s → Q s)
    (outer : ∀ s pending, P s → P { s with pending := pending })
    (command : ∀ s ts t, s.resetN = true → P s → CommandEffect s ts t → (∃ x ∈ ts, x ∈ ds) → Q t)
    (event : ∀ s ts t, s.resetN = true → P s → EventEffect s ts t → (∃ x ∈ ts, x ∈ ds) → Q t)
    (asserted : ∀ s, P s → Q (resetAsserted s))
    (released : ∀ straps pins s, s.resetN = false → P s → Q (resetReleased straps pins s))
    {s t : State} (hs : P s) (h : step s = .next t) : Q t := by
  refine step_gives (P := P) (Q := Q) outer (fun s port hq => ?_) among (fun s ts t hr hp heffect => ?_)
    (fun i s hr hp => ?_) asserted released hs h
  · exact reads.of_port s port hq
  · by_cases hd : ∃ x ∈ ts, x ∈ ds
    · exact command s ts t hr hp heffect hd
    · exact reads.keeps heffect.writes hd (among s hp)
  · obtain ⟨ts, heffect⟩ := eventEffect i s
    by_cases hd : ∃ x ∈ ts, x ∈ ds
    · exact event s ts _ hr hp heffect hd
    · exact reads.keeps heffect.writes hd (among s hp)

end Sys2Proof.Machine
end

section
/-! SUPPORT. What a completion, a command and a restart make of one record: the record's identity, and the laws of one
record. -/

namespace Sys2Proof.Machine

/-! ## The changed mark -/

/-- A property of records that the changed mark has no part in. -/
def ChangedBlind (P : Record → Prop) : Prop := ∀ r b, P r → P { r with changed := b }

theorem ChangedBlind.marked {P : Record → Prop} (h : ChangedBlind P) (old : Record) {new : Record} (hn : P new) :
    P (marked old new) := by
  unfold Machine.marked
  split
  · exact hn
  · exact h new true hn

/-! ## The result of an exchange (R119 to R125) -/

/-- The record that a reply or a miss to a frame leaves, apart from its changed mark. -/
inductive Replied (limit : Nat) (taken : Nat → Bool) (f : LineFrame) (reply : Option DriverReply) (r : Record) :
    Record → Prop where
  | same : Replied limit taken f reply r r
  | missed (hroom : r.misses < limit)
      (hstays : r.misses + 1 = limit → ¬ (r.state = .active ∨ r.state = .probation ∨ r.state = .dark)) :
      Replied limit taken f reply r { r with misses := r.misses + 1 }
  | silenced : Replied limit taken f reply r { r with misses := limit, state := .silent }
  | settled (acked : Option Nat) (hacked : acked = r.lastAcked ∨ ∃ v, f = .level v ∧ acked = some v) :
      Replied limit taken f reply r { r with misses := 0, lastAcked := acked }
  | returned (acked : Option Nat) (hacked : acked = r.lastAcked ∨ ∃ v, f = .level v ∧ acked = some v) :
      Replied limit taken f reply r { r with misses := 0, state := byConfirmed r, fault := none, lastAcked := acked }
  | faulted (reason : FaultReason) :
      Replied limit taken f reply r { r with misses := 0, state := .dark, fault := some reason }
  | identified (uid : Nat) (capability : Bool) (lmin : Nat) (st : RecordState) (ft : Option FaultReason)
      (hreply : reply = some (.ident uid capability lmin)) (hfree : r.uid = uid ∨ taken uid = false)
      (hst : st = .active ∨ st = r.state ∧ ft = r.fault ∧ st ≠ .probation) :
      Replied limit taken f reply r
        { r with misses := 0, capability := some capability, lmin := min lmin Config.lminMax, confirmed := true,
                 state := st, fault := ft, uid := uid }
  | replaced (uid : Nat) (capability : Bool) (lmin : Nat)
      (hreply : reply = some (.ident uid capability lmin)) (hfree : r.uid = uid ∨ taken uid = false) :
      Replied limit taken f reply r
        { r with misses := 0, capability := some capability, lmin := min lmin Config.lminMax, confirmed := true,
                 uid := uid, m := 1000, fault := none, state := .active }
  | unanswered (hconfirmed : r.confirmed = false) :
      Replied limit taken f reply r { r with misses := 0, state := .probation }

theorem recovered_cases (r : Record) :
    recovered r = { r with misses := 0 } ∨ recovered r = { r with misses := 0, state := byConfirmed r, fault := none } := by
  unfold recovered
  split
  case h_1 => exact .inr rfl
  case h_2 =>
    split
    case h_1 | h_2 => exact .inr rfl
    all_goals exact .inl rfl
  all_goals exact .inl rfl

theorem identified_cases (r : Record) :
    ∃ st ft, identified r = { r with state := st, fault := ft }
      ∧ (st = .active ∨ st = r.state ∧ ft = r.fault ∧ st ≠ .probation) := by
  unfold identified
  split
  case h_1 => exact ⟨.active, r.fault, rfl, .inl rfl⟩
  case h_2 => exact ⟨.active, none, rfl, .inl rfl⟩
  all_goals
    rename_i hst
    exact ⟨r.state, r.fault, rfl, .inr ⟨rfl, rfl, by rw [hst]; decide⟩⟩

section
variable {limit : Nat} {taken : Nat → Bool} {f : LineFrame} {reply : Option DriverReply} {r : Record}

theorem applyMiss_replied : ∃ x, Replied limit taken f reply r x ∧ (applyMiss limit r).record = marked r x := by
  unfold applyMiss
  split
  next hroom =>
    split
    · exact ⟨_, .silenced, rfl⟩
    next hstays => exact ⟨_, .missed hroom fun e hst => hstays ⟨e, hst⟩, rfl⟩
  · exact ⟨_, .same, rfl⟩

theorem recovered_replied (acked : Option Nat) (hacked : acked = r.lastAcked ∨ ∃ v, f = .level v ∧ acked = some v) :
    Replied limit taken f reply r { recovered r with lastAcked := acked } := by
  obtain h | h := recovered_cases r <;> rw [h]
  · exact .settled acked hacked
  · exact .returned acked hacked

theorem applyRecovered_replied : Replied limit taken f reply r (recovered r) := by
  obtain h | h := recovered_cases r <;> rw [h]
  · exact .settled r.lastAcked (.inl rfl)
  · exact .returned r.lastAcked (.inl rfl)

theorem applyIdentity_replied {uid : Nat} {capability : Bool} {lmin : Nat}
    (hreply : reply = some (.ident uid capability lmin)) (hfree : r.uid = uid ∨ taken uid = false) :
    ∃ x, Replied limit taken f reply r x ∧ (applyIdentity uid capability lmin r).record = marked r x := by
  unfold applyIdentity
  dsimp only
  split
  · obtain ⟨st, ft, h, hst⟩ := identified_cases
      { r with misses := 0, capability := some capability, lmin := min lmin Config.lminMax, confirmed := true }
    rw [h]
    exact ⟨_, .identified uid capability lmin st ft hreply hfree hst, rfl⟩
  · exact ⟨_, .replaced uid capability lmin hreply hfree, rfl⟩

theorem applyNothing_replied : ∃ x, Replied limit taken f reply r x ∧ (applyNothing r).record = marked r x := by
  unfold applyNothing
  split
  next h => exact ⟨_, .unanswered (by simpa using h.2), rfl⟩
  · exact ⟨_, .settled r.lastAcked (.inl rfl), rfl⟩

/-- What applyReply does to a record, in one lemma. -/
theorem applyReply_replied (limit : Nat) (taken : Nat → Bool) (f : LineFrame) (reply : Option DriverReply) (r : Record) :
    ∃ x, Replied limit taken f reply r x ∧ (applyReply limit taken f reply r).record = marked r x := by
  unfold applyReply
  split
  case h_1 => exact applyMiss_replied
  case h_2 v | h_3 v => exact ⟨_, recovered_replied (some v) (.inr ⟨v, rfl, rfl⟩), rfl⟩
  case h_4 | h_5 => exact ⟨_, .same, rfl⟩
  case h_6 reason | h_8 reason => exact ⟨_, .faulted reason, rfl⟩
  case h_7 uid can lmin =>
    unfold applyIdent
    split
    · exact ⟨_, .silenced, rfl⟩
    next h =>
      refine applyIdentity_replied rfl ?_
      by_cases he : r.uid = uid
      · exact .inl he
      · exact .inr (by simpa [he] using h)
  case h_9 => exact ⟨_, applyRecovered_replied, rfl⟩
  case h_10 => exact applyNothing_replied

end

namespace Replied

variable {limit : Nat} {taken : Nat → Bool} {f : LineFrame} {reply : Option DriverReply} {r x : Record}

theorem place (h : Replied limit taken f reply r x) : x.place = r.place := by cases h <;> rfl

theorem uid (h : Replied limit taken f reply r x) : x.uid = r.uid ∨ taken x.uid = false := by
  cases h
  case identified hfree _ | replaced hfree => exact hfree.imp Eq.symm id
  all_goals exact .inl rfl

theorem byConfirmed_cases (r : Record) :
    r.confirmed = true ∧ byConfirmed r = .active ∨ r.confirmed = false ∧ byConfirmed r = .probation := by
  unfold byConfirmed
  cases r.confirmed <;> simp

/-- A record that stands stays so, and keeps the law of its state. -/
theorem law (h : Replied limit taken f reply r x) (hlaw : RecordLaw r) (hstands : r.state ≠ .vacant)
    (hretiring : r.state ≠ .retiring) : RecordLaw x ∧ x.state ≠ .vacant ∧ x.state ≠ .retiring := by
  obtain ⟨-, hplace, hprobation, hdark⟩ := hlaw
  have hplace : r.place ≠ none := hplace (by simpa [Record.nonVacant] using hstands)
  have stands : ∀ y : Record, y.place = r.place → y.state ≠ .vacant → y.state ≠ .retiring →
      (y.state = .probation → y.confirmed = false) → (y.state = .dark → y.fault ≠ none) →
      RecordLaw y ∧ y.state ≠ .vacant ∧ y.state ≠ .retiring := fun y hy hv hr hp hd =>
    ⟨⟨fun e => absurd e hv, fun _ => hy ▸ hplace, hp, hd⟩, hv, hr⟩
  cases h
  case same | missed | settled => exact stands _ rfl hstands hretiring hprobation hdark
  case silenced | replaced => exact stands _ rfl (by simp) (by simp) (by simp) (by simp)
  case returned =>
    obtain ⟨hc, hb⟩ | ⟨hc, hb⟩ := byConfirmed_cases r <;> exact stands _ rfl (by simp [hb]) (by simp [hb]) (by simp [hb, hc])
      (by simp [hb])
  case faulted => exact stands _ rfl (by simp) (by simp) (by simp) (by simp)
  case identified hst =>
    obtain rfl | ⟨rfl, rfl, hp⟩ := hst
    · exact stands _ rfl (by simp) (by simp) (by simp) (by simp)
    · exact stands _ rfl hstands hretiring (fun e => absurd e hp) hdark
  case unanswered hc => exact stands _ rfl (by simp) (by simp) (fun _ => hc) (by simp)

end Replied

end Sys2Proof.Machine
end

section
/-! SUPPORT. What each command and event that writes the roster leaves in it. -/

namespace Sys2Proof.Machine

/-! ## Reads of tables that are not written -/

namespace Writes

variable {ts : List Table} {s t : State}

theorem meters (h : Writes ts s t) (hn : .meters ∉ ts := by decide) : t.meters = s.meters := h.kept .meters hn
theorem portals (h : Writes ts s t) (hn : .portals ∉ ts := by decide) : t.portals = s.portals := h.kept .portals hn
theorem plans (h : Writes ts s t) (hn : .plans ∉ ts := by decide) : t.plans = s.plans := h.kept .plans hn
theorem roster (h : Writes ts s t) (hn : .roster ∉ ts := by decide) : t.roster = s.roster := h.kept .roster hn
theorem sweeps (h : Writes ts s t) (hn : .sweeps ∉ ts := by decide) : t.sweeps = s.sweeps := h.kept .sweeps hn
theorem emergN (h : Writes ts s t) (hn : .emergN ∉ ts := by decide) : t.emergN = s.emergN := h.kept .emergN hn

theorem meter (h : Writes ts s t) (m : Fin 8) (hn : .meters ∉ ts := by decide) : t.meter m = s.meter m := by
  rw [State.meter, State.meter, h.meters hn]

theorem portal (h : Writes ts s t) (p : Fin 4) (hn : .portals ∉ ts := by decide) : t.portal p = s.portal p := by
  rw [State.portal, State.portal, h.portals hn]

theorem plan (h : Writes ts s t) (p : Fin 4) (hn : .plans ∉ ts := by decide) : t.plan p = s.plan p := by
  rw [State.plan, State.plan, h.plans hn]

theorem record (h : Writes ts s t) (n : Nat) (hn : .roster ∉ ts := by decide) : t.record n = s.record n := by
  rw [State.record, State.record, h.roster hn]

theorem sweep (h : Writes ts s t) (p : Fin 4) (hn : .sweeps ∉ ts := by decide) : t.sweep p = s.sweep p := by
  rw [State.sweep, State.sweep, h.sweeps hn]

theorem line (h : Writes ts s t) (l : Line) (hn : .lines ∉ ts := by decide) : t.line l = s.line l := by
  obtain ⟨ha, hb⟩ := Prod.mk.inj (h.kept .lines hn)
  cases l
  · exact ha
  · exact hb

theorem priority (h : Writes ts s t) (c : Fin 32) (hn : .settings ∉ ts := by decide) :
    (t.noticeClass c).priority = (s.noticeClass c).priority := by
  have hsettings := congrArg (fun x => x.2.2[c].1) (h.kept .settings hn)
  simpa [Notices.settings, State.noticeClass] using hsettings

theorem stack (h : Writes ts s t) (hn : .settings ∉ ts := by decide) : t.notices.stack = s.notices.stack :=
  congrArg Prod.fst (h.kept .settings hn)

theorem pendingMark (h : Writes ts s t) (c : Fin 32) (hn : .notices ∉ ts := by decide) :
    (t.noticeClass c).pending = (s.noticeClass c).pending := by
  have hmarks := congrArg (fun x => x[c].1) (h.kept .notices hn)
  simpa [Notices.marks, State.noticeClass] using hmarks

theorem holdsMark (h : Writes ts s t) (c : Fin 32) (hn : .notices ∉ ts := by decide) :
    (t.noticeClass c).holds = (s.noticeClass c).holds := by
  have hmarks := congrArg (fun x => x[c].2) (h.kept .notices hn)
  simpa [Notices.marks, State.noticeClass] using hmarks

theorem inFootprint (h : Writes ts s t) (p : Fin 4) (n : Nat) (hn : .plans ∉ ts := by decide) :
    inFootprint t p n = inFootprint s p n := inFootprint_congr (h.plans hn) p n

end Writes

/-! ## Many records at once -/

theorem rosterWf_forEach {α : Type} (xs : List α) {f : α → State → State} {s : State} (hw : rosterWf s.roster = true)
    (h : ∀ x t, rosterWf t.roster = true → rosterWf (f x t).roster = true) :
    rosterWf (forEach xs f s).roster = true :=
  forEach_induction (P := fun t => rosterWf t.roster = true) xs hw fun x _ t ht => h x t ht

/-- Each listed slot's record is rewritten once. -/
theorem record_forEach_setRecord (g : Record → Record) (xs : List Nat) (hn : xs.Nodup) (hlt : ∀ n ∈ xs, n < 512)
    {s : State} (hw : rosterWf s.roster = true) (k : Nat) :
    (forEach xs (fun n t => t.setRecord n (g (t.record n))) s).record k
      = if k ∈ xs then g (s.record k) else s.record k := by
  induction xs generalizing s with
  | nil => simp
  | cons n xs ih =>
    obtain ⟨hnotin, hn⟩ := List.nodup_cons.1 hn
    have hlt' : ∀ m ∈ xs, m < 512 := fun m hm => hlt m (List.mem_cons_of_mem _ hm)
    rw [forEach_cons, ih hn hlt' (rosterWf_setRecord hw n _), State.record_setRecord hw (hlt n List.mem_cons_self)]
    by_cases hk : n = k
    · subst hk; simp [hnotin]
    · simp [hk, Ne.symm hk]

theorem nodup_slots {low : Nat} {t : Roster} (hw : rosterWfFrom low t = true) : (t.map (·.1)).Nodup := by
  induction t generalizing low with
  | nil => simp
  | cons e rest ih =>
    obtain ⟨k, r⟩ := e
    obtain ⟨-, -, -, hrest⟩ := rosterWfFrom_cons.1 hw
    rw [List.map_cons, List.nodup_cons]
    refine ⟨fun hin => ?_, ih hrest⟩
    obtain ⟨e, he, hek⟩ := List.mem_map.1 hin
    have := (rosterWfFrom_mem hrest he).1
    omega

theorem mem_slotsOfLine {s : State} (hw : rosterWf s.roster = true) {l : Line} {n : Nat} :
    n ∈ slotsOfLine s l ↔ (s.record n).nonVacant = true ∧ (s.record n).onLine l = true := by
  unfold slotsOfLine
  rw [List.mem_map]
  constructor
  · rintro ⟨e, he, rfl⟩
    obtain ⟨he, hp⟩ := List.mem_filter.1 he
    rw [State.record_of_mem hw he]
    simpa using hp
  · rintro ⟨hv, hl⟩
    exact ⟨_, List.mem_filter.2 ⟨State.mem_roster_of_nonVacant hv, by simp [hv, hl]⟩, rfl⟩

theorem nodup_slotsOfLine {s : State} (hw : rosterWf s.roster = true) (l : Line) : (slotsOfLine s l).Nodup :=
  (nodup_slots hw).sublist (List.filter_sublist.map _)

/-- R81: RESTART's roster. -/
theorem record_restartRoster {s : State} (hw : rosterWf s.roster = true) (n : Nat) :
    (restartRoster s).record n = (s.record n).restarted := by
  unfold restartRoster
  rw [record_forEach_setRecord Record.restarted _ (nodup_slots hw) (fun m hm => ?_) hw]
  · split
    · rfl
    next hnot =>
      have hvacant : s.record n = Record.vacant false := by
        by_contra hne
        exact hnot (List.mem_map.2 ⟨_, mem_of_rosterGet hne, rfl⟩)
      rw [hvacant]
      rfl
  · obtain ⟨e, he, rfl⟩ := List.mem_map.1 hm
    exact (rosterWfFrom_mem hw he).2.1

theorem rosterWf_restartRoster {s : State} (hw : rosterWf s.roster = true) : rosterWf (restartRoster s).roster = true :=
  rosterWf_forEach _ hw fun n _ ht => rosterWf_setRecord ht n _

/-! ## The roster after each command and event -/

theorem roster_restart (s : State) :
    (examineEmergN (evaluateAll (restartValues s))).roster = (restartRoster s).roster := by
  have notices := (writes_restartNotices s).mono (ts := [.notices, .settings, .meters, .polls, .portals])
  have before := (notices.trans (writes_restartMeters _).mono).trans (writes_restartPortals _).mono
  have after := ((writes_restartSweeps (restartRoster (restartPortals (restartMeters (restartNotices s))))).mono
    (ts := [.sweeps, .lines, .snapshots, .portals, .notices])).trans (writes_restartLines _).mono
  have after := ((after.trans (writes_restartSnapshots _).mono).trans (onlyPhotometry_evaluateAll _).writes).trans
    (writes_examineEmergN _).mono
  refine after.roster.trans ?_
  unfold restartRoster
  have key : ∀ (xs : List Nat) (t u : State), t.roster = u.roster →
      (forEach xs (fun n t => t.setRecord n (t.record n).restarted) t).roster
        = (forEach xs (fun n t => t.setRecord n (t.record n).restarted) u).roster := by
    intro xs
    induction xs with
    | nil => exact fun _ _ h => h
    | cons n xs ih =>
      intro t u h
      refine ih _ _ ?_
      simp only [State.setRecord, State.record, h]
      split
      · rfl
      · exact h
  rw [before.roster]
  exact key _ _ _ before.roster

theorem roster_fillSlot (x : Admission) (capability : Option Bool) (lmin : Nat) (s : State) :
    (fillSlot x capability lmin s).roster = (s.setRecord x.slot (admittedRecord x capability lmin)).roster :=
  ((((writes_removeStray ..).mono (ts := [.lines, .notices, .portals, .sweeps]).trans (.of_setLine ..)).trans
    (onlySweeps_requestForSlot ..).writes).trans (onlySweeps_settleSweeps _).writes).roster

theorem roster_requestForSlot (n : Nat) (s : State) : (requestForSlot n s).roster = s.roster :=
  (onlySweeps_requestForSlot n s).roster

theorem roster_moveRecord (n k : Nat) (s : State) :
    (moveRecord n k s).roster = ((s.setRecord k (s.record n)).setRecord n (.vacant false)).roster :=
  ((onlySweeps_requestForMove ..).trans (onlySweeps_settleSweeps _)).roster

theorem roster_retireRecord (n : Nat) (q : Place) (s : State) :
    (retireRecord n q s).roster = (s.setRecord n { s.record n with state := .retiring }).roster :=
  (((onlySweeps_requestForSlot ..).trans (onlySweeps_settleSweeps _)).roster).trans (State.setLine_roster ..)

theorem roster_clearFaultOf (n : Nat) (s : State) :
    (clearFaultOf n s).roster = (s.setRecord n (faultCleared (s.record n))).roster := by
  unfold clearFaultOf
  dsimp only
  split
  · exact ((onlySweeps_requestForSlot ..).trans (onlySweeps_settleSweeps _)).roster
  · rfl

theorem roster_applyLimit (l : Line) (limit : Nat) (s : State) :
    (applyLimit l limit s).roster
      = (forEach (slotsOfLine s l) (fun n t => t.setRecord n (limited limit (t.record n)))
          (s.setLine l { s.line l with missLimit := limit })).roster := by
  unfold applyLimit
  refine (onlySweeps_settleSweeps _).roster.trans ((OnlySweeps.forEach _ onlySweeps_requestForSlot _).roster.trans ?_)
  split <;> rfl

theorem roster_commitApplied (l : Line) (n : Nat) (a : Applied) (s : State) :
    (commitApplied l n a s).roster = (s.setRecord n a.record).roster := by
  have noticed : (forEach a.events (fun e t => handEvent (lineEventClass l e) t) (s.setRecord n a.record)).roster
      = (s.setRecord n a.record).roster :=
    (Writes.of_forEach (ts := [.notices]) a.events (fun e t => .of_handEvent t (lineEventClass l e)) _).roster
  unfold commitApplied
  dsimp only
  split
  · exact (onlySweeps_requestForSlot ..).roster.trans noticed
  · exact noticed

theorem roster_complete (l : Line) (x : Exchange) (received request : List Byte) (s : State) :
    (complete l x received request s).roster = (applyResult l x (acceptReply x.frame x.address received) s).roster :=
  ((((writes_takeRequest ..).mono (ts := [.lines, .notices, .portals, .sweeps]).trans (onlySweeps_notifyOrigin ..).writes).trans
    (.of_setLine ..)).trans (onlySweeps_settleSweeps _).writes).roster

/-! ## The record of each slot -/

theorem record_of_roster {s t : State} (h : t.roster = s.roster) (n : Nat) : t.record n = s.record n := by
  rw [State.record, State.record, h]

theorem record_applyLimit {s : State} (hw : rosterWf s.roster = true) (l : Line) (limit n : Nat) :
    (applyLimit l limit s).record n
      = if (s.record n).nonVacant = true ∧ (s.record n).onLine l = true then limited limit (s.record n)
        else s.record n := by
  have hw' : rosterWf (s.setLine l { s.line l with missLimit := limit }).roster = true := by simpa using hw
  rw [record_of_roster (roster_applyLimit l limit s),
    record_forEach_setRecord (limited limit) _ (nodup_slotsOfLine hw l) (fun m hm => ?_) hw']
  · simp only [mem_slotsOfLine hw, State.setLine_record]
  · exact State.lt_of_nonVacant hw ((mem_slotsOfLine hw).1 hm).1

end Sys2Proof.Machine
end

section
/-! SUPPORT. The laws of the roster are kept by every step (R57, R61 to R63). -/

namespace Sys2Proof.Machine

/-! ## Completions and grants -/

/-- R118: a completion leaves the roster as it is, vacates a RETIRING record, or writes what the reply makes of the record
that holds the address. -/
inductive ResultWritten (l : Line) (x : Exchange) (reply : Option DriverReply) (s : State) : Roster → Prop where
  | same : ResultWritten l x reply s s.roster
  | vacated (n : Nat) (hlookup : s.lookup l x.address = some n) (hretiring : (s.record n).state = .retiring)
      (hforget : x.frame = .forget) : ResultWritten l x reply s (s.setRecord n (.vacant true)).roster
  | written (n : Nat) (hlookup : s.lookup l x.address = some n) (hstands : (s.record n).state ≠ .retiring)
      (hforget : x.frame ≠ .forget) (y : Record)
      (hreplied : Replied (s.line l).missLimit (s.uidElsewhere n) x.frame reply (s.record n) y) :
      ResultWritten l x reply s (s.setRecord n (marked (s.record n) y)).roster

theorem roster_applyResult (l : Line) (x : Exchange) (reply : Option DriverReply) (s : State) :
    ResultWritten l x reply s (applyResult l x reply s).roster := by
  unfold applyResult
  split
  · have stray : (strayIdent l x.address reply s).roster = s.roster := by
      unfold strayIdent
      split
      · exact State.setLine_roster ..
      · rfl
    split
    · rw [stray]; exact .same
    · exact .same
  next n hlookup =>
    dsimp only
    split
    next hforget =>
      split
      next hretiring =>
        rw [roster_commitApplied]
        exact .vacated n hlookup hretiring hforget
      · exact .same
    next hforget =>
      split
      · exact .same
      next hstands =>
        obtain ⟨y, hreplied, hy⟩ :=
          applyReply_replied (s.line l).missLimit (s.uidElsewhere n) x.frame reply (s.record n)
        have committed := roster_commitApplied l n
          (applyReply (s.line l).missLimit (s.uidElsewhere n) x.frame reply (s.record n)) s
        rw [hy] at committed
        have offered : ∀ t, (offerService l x.address t).roster = t.roster := fun t => State.setLine_roster ..
        split
        · rw [offered, committed]; exact .written n hlookup hstands hforget y hreplied
        · rw [committed]; exact .written n hlookup hstands hforget y hreplied

/-- R82, R102: a grant leaves the roster as it is, or writes the last sent level of an eligible record. -/
inductive GrantWritten (s : State) : Roster → Prop where
  | same : GrantWritten s s.roster
  | sent (n : Nat) (hlevel : (s.record n).sweepFrame = some .level) :
      GrantWritten s (s.setRecord n { s.record n with lastSent := some (levelOfSlot s n) }).roster

theorem roster_cursorGranted (p : Fin 4) (l : Line) (n : Nat) (s : State) :
    (cursorGranted p l n s).roster = s.roster := (writes_cursorGranted p l n s).roster

theorem roster_grantTo (l : Line) (g : Grantee) (s : State) : GrantWritten s (grantTo l g s).roster := by
  unfold grantTo
  dsimp only
  split
  case h_1 n =>
    unfold grantCursor
    dsimp only
    split
    · rw [roster_cursorGranted, State.setLine_roster]; exact .same
    next hlevel => rw [roster_cursorGranted, State.setLine_roster]; exact .sent n hlevel
    · exact .same
  all_goals rw [State.setLine_roster]; exact .same

theorem roster_arbiterGrant (l : Line) (s : State) : GrantWritten s (arbiterGrant l s).roster := by
  unfold arbiterGrant
  split
  · split
    · exact .same
    · exact roster_grantTo ..
  all_goals exact .same

theorem roster_exchangeCompletion (l : Line) (chars : List Byte) (s : State) :
    (exchangeCompletion l chars s).roster = s.roster
      ∨ ∃ x received request, (s.line l).state = .busy x ∧ x.phase = .slot received request
          ∧ ResultWritten l x (acceptReply x.frame x.address received) s (exchangeCompletion l chars s).roster := by
  unfold exchangeCompletion
  split
  next x hbusy =>
    split
    next received request hphase =>
      refine .inr ⟨x, received, request, hbusy, hphase, ?_⟩
      rw [roster_complete]
      exact roster_applyResult ..
    all_goals exact .inl rfl
  all_goals exact .inl rfl

/-! ## Writing one record -/

theorem Record.nonVacant_iff {r : Record} : r.nonVacant = true ↔ r.state ≠ .vacant := by simp [Record.nonVacant]

theorem RosterLaw.congr {s t : State} (h : RosterLaw s) (hroster : t.roster = s.roster) (hplans : t.plans = s.plans) :
    RosterLaw t := by
  obtain ⟨hwf, hlaw, hunique, hplan, hdisjoint, hfoot⟩ := h
  have hrecord := record_of_roster hroster
  have hin := inFootprint_congr hplans
  have hplanEq : ∀ p, t.plan p = s.plan p := fun p => by rw [State.plan, State.plan, hplans]
  refine ⟨hroster ▸ hwf, fun n => hrecord n ▸ hlaw n, fun n k => ?_, fun p q => ?_, fun p k n => ?_, fun n => ?_⟩
  · rw [hrecord, hrecord]; exact hunique n k
  · rw [hplanEq]; exact hplan p q
  · rw [hin, hin]; exact hdisjoint p k n
  · rw [hrecord]; simp only [hin]; exact hfoot n

theorem reads_rosterLaw : Reads [.plans, .roster] RosterLaw := fun _ _ _ _ hsame h =>
  h.congr (hsame .roster (by decide)) (hsame .plans (by decide))

theorem RosterLaw.setRecord {s : State} (h : RosterLaw s) {n : Nat} {x : Record} (hlaw : RecordLaw x)
    (hunique : x.nonVacant = true → ∀ k, k ≠ n → (s.record k).nonVacant = true →
      x.place ≠ (s.record k).place ∧ (x.uid ≠ 0 → x.uid ≠ (s.record k).uid))
    (hfoot : x.nonVacant = true → ∃ p, inFootprint s p n = true) : RosterLaw (s.setRecord n x) := by
  by_cases hn : n < 512
  swap
  · rwa [State.setRecord_of_ge hn]
  obtain ⟨hwf, hlaws, huniques, hplan, hdisjoint, hfoots⟩ := h
  have hin : ∀ p k, inFootprint (s.setRecord n x) p k = inFootprint s p k := inFootprint_congr (State.setRecord_plans ..)
  have hrecord := State.record_setRecord hwf hn x
  refine ⟨rosterWf_setRecord hwf n x, fun k => ?_, fun i k => ?_, fun p q => ?_, fun p q k => ?_, fun k => ?_⟩
  · rw [hrecord]; split
    · exact hlaw
    · exact hlaws k
  · rw [hrecord, hrecord]
    split
    next hi =>
      split
      next hk => exact fun _ _ _ => hi.symm.trans hk
      next hk =>
        intro hv hvk hsame
        obtain ⟨hplace, huid⟩ := hunique hv k (Ne.symm hk) hvk
        exact absurd hsame (by rintro (e | ⟨h0, e⟩); exacts [hplace e, huid h0 e])
    next hi =>
      split
      next hk =>
        intro hvi hv hsame
        obtain ⟨hplace, huid⟩ := hunique hv i (Ne.symm hi) hvi
        exact absurd hsame (by rintro (e | ⟨h0, e⟩); exacts [hplace e.symm, huid (e ▸ h0) e.symm])
      · exact huniques i k
  · rw [State.setRecord_plan]; exact hplan p q
  · rw [hin, hin]; exact hdisjoint p q k
  · rw [hrecord]; simp only [hin]
    split
    next hk => subst hk; exact hfoot
    · exact hfoots k

/-- A record that keeps its place and its uid, or takes a uid that no other holds. -/
theorem RosterLaw.rewrite {s : State} (h : RosterLaw s) {n : Nat} {x : Record} (hlaw : RecordLaw x)
    (hv : x.nonVacant = true → (s.record n).nonVacant = true) (hplace : x.place = (s.record n).place)
    (huid : x.uid = (s.record n).uid ∨ x.uid = 0 ∨ s.uidElsewhere n x.uid = false) : RosterLaw (s.setRecord n x) := by
  have hunique := h.2.2.1
  refine h.setRecord hlaw (fun hx k hk hvk => ⟨fun e => ?_, fun h0 e => ?_⟩) fun hx => h.2.2.2.2.2 n (hv hx)
  · exact hk (hunique n k (hv hx) hvk (.inl (hplace ▸ e))).symm
  · obtain hu | hu | hu := huid
    · exact hk (hunique n k (hv hx) hvk (.inr ⟨hu ▸ h0, hu ▸ e⟩)).symm
    · exact h0 hu
    · have := (State.uidElsewhere_iff h.1).2 ⟨k, hk, hvk, e.symm⟩
      rw [hu] at this
      cases this

theorem RosterLaw.vacate {s : State} (h : RosterLaw s) (n : Nat) (b : Bool) : RosterLaw (s.setRecord n (.vacant b)) :=
  h.setRecord (.vacant b) (fun hv => absurd rfl (Record.nonVacant_iff.1 hv)) fun hv => absurd rfl (Record.nonVacant_iff.1 hv)

theorem RosterLaw.forEach {α : Type} {s : State} (h : RosterLaw s) (xs : List α) {f : α → State → State}
    (hf : ∀ x t, RosterLaw t → RosterLaw (f x t)) : RosterLaw (forEach xs f s) :=
  forEach_induction (P := RosterLaw) xs h fun x _ t ht => hf x t ht

/-! ## The law of one record -/

theorem RecordLaw.restarted {r : Record} (h : RecordLaw r) : RecordLaw r.restarted := by
  unfold Record.restarted
  split
  · exact .vacant true
  · obtain ⟨hvacant, hrest⟩ := h
    refine ⟨fun hst => ?_, hrest⟩
    have := hvacant hst
    rw [this]
    rfl

theorem RecordLaw.limited {r : Record} (h : RecordLaw r) (limit : Nat) : RecordLaw (limited limit r) := by
  obtain ⟨hvacant, hplace, hprobation, hdark⟩ := h
  unfold Machine.limited
  dsimp only
  split
  next hst =>
    refine ⟨by simp, fun _ => hplace (Record.nonVacant_iff.2 ?_), by simp, by simp⟩
    obtain (e | e | e) := hst.1 <;> rw [e] <;> decide
  · refine ⟨fun hst => ?_, hplace, hprobation, hdark⟩
    rw [hvacant hst]
    simp [Record.vacant]

theorem RecordLaw.faultCleared {r : Record} (h : RecordLaw r) (hstands : r.state ≠ .vacant) : RecordLaw (faultCleared r) := by
  obtain ⟨-, hplace, hprobation, hdark⟩ := h
  have hplace := hplace (Record.nonVacant_iff.2 hstands)
  unfold Machine.faultCleared
  split
  · cases hc : r.confirmed
    · exact ⟨by simp, fun _ => hplace, fun _ => rfl, by simp⟩
    · exact ⟨by simp, fun _ => hplace, by simp, by simp⟩
  next hd => exact ⟨fun e => absurd e hstands, fun _ => hplace, hprobation, fun e => absurd e hd⟩

theorem recordLaw_changedBlind : ChangedBlind RecordLaw := fun r b ⟨hvacant, hrest⟩ =>
  ⟨fun hst => by rw [hvacant hst]; rfl, hrest⟩

/-- A standing record rewritten without a change of its state, place, confirmed and fault. -/
theorem RecordLaw.of_same {r x : Record} (h : RecordLaw r) (hstands : r.state ≠ .vacant) (hst : x.state = r.state)
    (hplace : x.place = r.place) (hconfirmed : x.confirmed = r.confirmed) (hfault : x.fault = r.fault) : RecordLaw x := by
  obtain ⟨-, hplaced, hprobation, hdark⟩ := h
  refine ⟨fun e => absurd (hst ▸ e) hstands, fun _ => ?_, fun e => ?_, fun e => ?_⟩
  · rw [hplace]; exact hplaced (Record.nonVacant_iff.2 hstands)
  · rw [hconfirmed]; exact hprobation (hst ▸ e)
  · rw [hfault]; exact hdark (hst ▸ e)

end Sys2Proof.Machine
end

section
/-! SUPPORT. The laws of the roster are kept by every step: the commands and events that write the roster or a plan. -/

namespace Sys2Proof.Machine

/-! ## Plans (R58, R59) -/

theorem not_holds_of_occupied_eq_zero {s : State} {p : Fin 4} (h : occupied s p = 0) {n : Nat}
    (hv : (s.record n).nonVacant = true) : inFootprint s p n = false := by
  unfold occupied at h
  rw [List.length_eq_zero_iff, List.filter_eq_nil_iff] at h
  simpa [hv] using h _ (State.mem_roster_of_nonVacant hv)

theorem inFootprint_setPlan (s : State) (p k : Fin 4) (q : Option Plan) (n : Nat) :
    inFootprint (s.setPlan p q) k n = if p = k then q.any (·.holds n) else inFootprint s k n := by
  unfold inFootprint
  rw [State.plan_setPlan]
  by_cases hp : p = k
  · cases q <;> simp [hp]
  · simp only [if_neg hp]

/-- R58: an empty plan's portal may take any plan that is well formed and apart from the others. -/
theorem RosterLaw.setPlan {s : State} (h : RosterLaw s) {p : Fin 4} (hempty : occupied s p = 0) (q : Option Plan)
    (hwf : ∀ x, q = some x → x.wf = true)
    (hapart : ∀ x k n, q = some x → k ≠ p → x.holds n = true → inFootprint s k n = false) :
    RosterLaw (s.setPlan p q) := by
  obtain ⟨hroster, hlaws, hunique, hplan, hdisjoint, hfoot⟩ := h
  have other {k : Fin 4} {n : Nat} (hk : p ≠ k) (hin : q.any (·.holds n) = true) : inFootprint s k n = false := by
    obtain ⟨x, hx, hholds⟩ := Option.any_eq_true _ _ |>.1 hin
    exact hapart x k n hx (Ne.symm hk) hholds
  refine ⟨hroster, hlaws, hunique, fun k x => ?_, fun i k n => ?_, fun n hv => ?_⟩
  · rw [State.plan_setPlan]
    split
    · exact hwf x
    · exact hplan k x
  · rw [inFootprint_setPlan, inFootprint_setPlan]
    split
    next hi =>
      split
      next hk => exact fun _ _ => hi.symm.trans hk
      next hk => exact fun hin hink => absurd hink (by simp [other hk hin])
    next hi =>
      split
      next hk => exact fun hin hink => absurd hin (by simp [other hi hink])
      · exact hdisjoint i k n
  · obtain ⟨k, hk⟩ := hfoot n hv
    refine ⟨k, ?_⟩
    rw [inFootprint_setPlan]
    split
    next hpk =>
      subst hpk
      rw [not_holds_of_occupied_eq_zero hempty hv] at hk
      cases hk
    · exact hk

theorem not_inFootprint_of_apart {s : State} {p k : Fin 4} {q : Plan} {n : Nat} (hapart : overlapsOther s p q = false)
    (hwf : q.wf = true) (hk : k ≠ p) (hn : q.holds n = true) : inFootprint s k n = false := by
  have hlt : n < 512 := Plan.names_lt hwf ((Plan.holds_iff hwf).1 hn)
  by_contra hc
  obtain ⟨r, hr, hrn⟩ := inFootprint_iff.1 (by simpa using hc)
  have hall := hapart
  unfold overlapsOther at hall
  rw [List.any_eq_false] at hall
  have hnot := hall k (mem_allPortals k)
  rw [hr] at hnot
  refine hnot ?_
  simp only [Option.any_some, Bool.and_eq_true, bne_iff_ne]
  exact ⟨hk, List.any_eq_true.2 ⟨n, List.mem_range.2 hlt, by simp [hn, hrn]⟩⟩

/-! ## Commands -/

theorem roster_writePlan (p : Fin 4) (q : Option Plan) (s : State) :
    Writes [.portals, .notices] (s.setPlan p q) (writePlan p q s) :=
  (onlyPhotometry_evalStageShort ..).writes

theorem RosterLaw.admission {s : State} (h : RosterLaw s) {x : Admission} (capability : Option Bool) (lmin : Nat)
    (hpassed : x.Passed s) : RosterLaw (s.setRecord x.slot (admittedRecord x capability lmin)) := by
  refine h.setRecord ⟨fun e => ?_, fun _ => ?_, fun _ => rfl, fun e => ?_⟩ (fun _ k _ hvk => ⟨fun e => ?_, fun h0 e => ?_⟩)
    fun _ => hpassed.inPlan
  · exact RecordState.noConfusion e
  · exact Option.some_ne_none _
  · exact RecordState.noConfusion e
  · have hat := (State.lookup_eq_none h.1).1 hpassed.placeFree k
    rw [Record.at_iff.2 ⟨hvk, e.symm⟩] at hat
    cases hat
  · exact (State.lookupUid_eq_none h.1).1 (hpassed.uidFree h0) k ⟨hvk, e.symm⟩

theorem RosterLaw.amend {s : State} (h : RosterLaw s) {n : Nat} {x : Selection} {m : Half} {override : Byte}
    {pinned : Half} {uid : UidField} (hpassed : AmendPassed n x uid s) :
    RosterLaw (s.setRecord n (amended x m override pinned uid (s.record n))) := by
  refine h.rewrite ((h.2.1 n).of_same hpassed.nonVacant rfl rfl rfl rfl) id rfl ?_
  by_cases hu : x.uid = true
  · right
    by_cases h0 : uid.toNat = 0
    · exact .inl (by simp [amended, hu, h0])
    · exact .inr (by simpa [amended, hu] using hpassed.uidFree hu h0)
  · exact .inl (by simp [amended, hu])

/-- R71: a record that is carried to a free slot of a plan. -/
theorem RosterLaw.move {s : State} (h : RosterLaw s) {n k : Nat} (hfull : (s.record n).state ≠ .vacant)
    (hplan : ∃ p, inFootprint s p k = true) (hvacant : (s.record k).nonVacant = false) :
    RosterLaw ((s.setRecord k (s.record n)).setRecord n (.vacant false)) := by
  have hv := Record.nonVacant_iff.2 hfull
  have hnk : k ≠ n := by rintro rfl; rw [hv] at hvacant; cases hvacant
  have hn := State.lt_of_nonVacant h.1 hv
  have hk : k < 512 := by
    obtain ⟨p, hp⟩ := hplan
    obtain ⟨q, hq, hholds⟩ := inFootprint_iff.1 hp
    have hwf := h.2.2.2.1 p q hq
    exact Plan.names_lt hwf ((Plan.holds_iff hwf).1 hholds)
  have hcomm : (s.setRecord k (s.record n)).setRecord n (.vacant false)
      = (s.setRecord n (.vacant false)).setRecord k (s.record n) := by
    have hwf1 := rosterWf_setRecord h.1 k (s.record n)
    have hwf2 := rosterWf_setRecord h.1 n (.vacant false)
    have hroster := rosterWfFrom_ext (rosterWf_setRecord hwf1 n (.vacant false)) (rosterWf_setRecord hwf2 k (s.record n))
      fun j => by
        show State.record _ j = State.record _ j
        simp only [State.record_setRecord hwf1 hn, State.record_setRecord hwf2 hk, State.record_setRecord h.1 hk,
          State.record_setRecord h.1 hn]
        split
        · subst_vars; simp [hnk]
        · rfl
    simp only [State.setRecord_of_lt hn, State.setRecord_of_lt hk] at hroster ⊢
    rw [hroster]
  rw [hcomm]
  have hvacated := h.vacate n false
  have hrecord := State.record_setRecord h.1 hn (.vacant false)
  refine hvacated.setRecord (h.2.1 n) (fun _ j hj hvj => ?_) fun _ => ?_
  · rw [hrecord] at hvj ⊢
    split at hvj
    · exact absurd rfl (Record.nonVacant_iff.1 hvj)
    next hne =>
      rw [if_neg hne]
      exact ⟨fun e => hne (h.2.2.1 n j hv hvj (.inl e)), fun h0 e => hne (h.2.2.1 n j hv hvj (.inr ⟨h0, e⟩))⟩
  · simp only [inFootprint_congr (State.setRecord_plans s n (.vacant false))]
    exact hplan

theorem rosterLaw_command {s t : State} {ts : List Table} (h : RosterLaw s) (heffect : CommandEffect s ts t)
    (htouched : ∃ x ∈ ts, x ∈ [Table.plans, .roster]) : RosterLaw t := by
  have hw := heffect.writes
  cases heffect
  case restart =>
    refine RosterLaw.congr (s := restartRoster s) ?_ (roster_restart s) (hw.plans.trans (writes_restartRoster s).plans.symm)
    refine h.forEach _ fun n t ht => ?_
    have hrestarted := (ht.2.1 n).restarted
    unfold Record.restarted at hrestarted ⊢
    split
    · exact ht.vacate n true
    next hr =>
      rw [if_neg hr] at hrestarted
      exact ht.rewrite hrestarted id rfl (.inl rfl)
  case removePlan p _ hempty =>
    exact reads_rosterLaw.keeps (roster_writePlan p none s) (by decide) (h.setPlan hempty none nofun nofun)
  case setPlan p q _ hempty hwf hapart =>
    refine reads_rosterLaw.keeps (roster_writePlan p (some q) s) (by decide) (h.setPlan hempty (some q) ?_ ?_)
    · rintro _ ⟨⟩; exact hwf
    · rintro _ k n ⟨⟩ hk hn; exact not_inFootprint_of_apart hapart hwf hk hn
  case admission x capability lmin hpassed _ =>
    exact (h.admission capability lmin hpassed).congr (roster_fillSlot ..) (hw.plans.trans (State.setRecord_plans ..).symm)
  case amend hpassed => exact h.amend hpassed
  case amendAsking hpassed => exact (h.amend hpassed).congr (roster_requestForSlot ..) (onlySweeps_requestForSlot ..).plans
  case move hfull hretiring hplan hvacant =>
    refine (h.move hfull hplan hvacant).congr (roster_moveRecord ..) (hw.plans.trans ?_)
    rw [State.setRecord_plans, State.setRecord_plans]
  case retire n q hn hfull _ hplace _ =>
    refine (h.rewrite (n := n) (x := { s.record n with state := .retiring }) ⟨by simp, fun _ => ?_, by simp, by simp⟩
      (fun _ => Record.nonVacant_iff.2 hfull) rfl (.inl rfl)).congr (roster_retireRecord ..)
      (hw.plans.trans (State.setRecord_plans ..).symm)
    simp [hplace]
  case clearFault n hn hfull hretiring =>
    refine (h.rewrite (n := n) ((h.2.1 n).faultCleared hfull) (fun _ => Record.nonVacant_iff.2 hfull) ?_ (.inl ?_)).congr
      (roster_clearFaultOf ..) (hw.plans.trans (State.setRecord_plans ..).symm)
    · unfold faultCleared; split <;> rfl
    · unfold faultCleared; split <;> rfl
  case readRecord n hn => exact h.rewrite (recordLaw_changedBlind _ false (h.2.1 n)) id rfl (.inl rfl)
  case setLine l limit _ _ =>
    refine RosterLaw.congr ?_ (roster_applyLimit l limit s) (hw.plans.trans ?_)
    · refine (h.congr (State.setLine_roster ..) (State.setLine_plans ..)).forEach _ fun n t ht => ?_
      have hlimited := (ht.2.1 n).limited limit
      refine ht.rewrite hlimited (fun hv => ?_) ?_ (.inl ?_)
      · refine Record.nonVacant_iff.2 fun hst => Record.nonVacant_iff.1 hv ?_
        simp [limited, hst]
      · unfold limited; dsimp only; split <;> rfl
      · unfold limited; dsimp only; split <;> rfl
    · exact ((Writes.of_setLine (ts := [.lines, .roster]) s l { s.line l with missLimit := limit }).trans
        (.of_forEach _ (fun n t => .of_setRecord t n (limited limit (t.record n))) _)).plans.symm
  all_goals exact absurd htouched (by decide)

/-! ## Events -/

theorem rosterLaw_event {s t : State} {ts : List Table} (h : RosterLaw s) (heffect : EventEffect s ts t)
    (htouched : ∃ x ∈ ts, x ∈ [Table.plans, .roster]) : RosterLaw t := by
  have hw := heffect.writes
  cases heffect
  case arbiterGrant l =>
    have granted : ∀ t : State, t.plans = s.plans → GrantWritten s t.roster → RosterLaw t := by
      intro t hplans hgrant
      generalize hr : t.roster = r at hgrant
      cases hgrant
      case same => exact h.congr hr hplans
      case sent n hlevel =>
        have hstands : (s.record n).state ≠ .vacant := fun e => by simp [Record.sweepFrame, e] at hlevel
        have hsent := h.rewrite (x := { s.record n with lastSent := some (levelOfSlot s n) })
          ((h.2.1 n).of_same hstands rfl rfl rfl rfl) id rfl (.inl rfl)
        exact hsent.congr hr (hplans.trans (State.setRecord_plans ..).symm)
    exact granted _ hw.plans (roster_arbiterGrant l s)
  case exchangeCompletion l chars =>
    obtain hsame | ⟨x, received, request, -, -, hresult⟩ := roster_exchangeCompletion l chars s
    · exact h.congr hsame hw.plans
    · generalize hr : (exchangeCompletion l chars s).roster = r at hresult
      cases hresult
      case same => exact h.congr hr hw.plans
      case vacated n _ _ _ =>
        exact (h.vacate n true).congr hr (hw.plans.trans (State.setRecord_plans ..).symm)
      case written n hlookup hstands _ y hreplied =>
        have hv := (Record.at_iff.1 (State.at_of_lookup h.1 hlookup)).1
        obtain ⟨hlaw, hy, -⟩ := hreplied.law (h.2.1 n) (Record.nonVacant_iff.1 hv) hstands
        have blind : ChangedBlind fun z => z.place = (s.record n).place
            ∧ (z.uid = (s.record n).uid ∨ s.uidElsewhere n z.uid = false) := fun z b hz => hz
        obtain ⟨hplace, huid⟩ := blind.marked (s.record n) ⟨hreplied.place, hreplied.uid⟩
        refine (h.rewrite (recordLaw_changedBlind.marked _ hlaw) (fun _ => hv) hplace (huid.imp_right .inr)).congr hr
          (hw.plans.trans (State.setRecord_plans ..).symm)
  all_goals exact absurd htouched (by decide)

/-! ## Reset -/

theorem writes_poweredUp (straps : BitVec 4) (pins : PinLevels) (s : State) :
    Writes [.portals, .sweeps, .notices] { s with resetN := true, straps := straps, emergN := pins.emergN }
      (poweredUp straps pins s) :=
  (onlyPhotometry_evaluateAll _).writes.trans (writes_examineEmergN _)

/-- Settles O42: only the commands and events that write the roster or a plan matter; each rewrites one record or all of a
line, and keeps places and uids apart. -/
theorem stepKeepsRosterLaw : Obligations.StepKeepsRosterLaw := by
  unfold Obligations.StepKeepsRosterLaw
  intro s t hs h
  refine step_keeps (P := RosterLaw) reads_rosterLaw (fun _ => id) (fun _ _ => id)
    (fun s ts t _ hs heffect htouched => rosterLaw_command hs heffect htouched)
    (fun s ts t _ hs heffect htouched => rosterLaw_event hs heffect htouched) (fun s _ => reads_rosterLaw.asserted (rosterLaw_of_check (by decide)) s)
    (fun straps pins s _ hs => reads_rosterLaw.released ?_) hs h
  have hpowered := writes_poweredUp straps pins s
  exact hs.congr hpowered.roster hpowered.plans

end Sys2Proof.Machine
end

section
/-! SUPPORT. The law of sweeps is kept by every step (R96, R100, R102, R106, R111). Between a change of the roster and the
settling of the sweeps only a weaker law holds; settling gives the full one back. -/

namespace Sys2Proof.Machine

/-- Something done for each member of a list makes Q of P for that member and leaves P and Q of the others. -/
theorem forEach_each {α : Type} {P Q : State → α → Prop} {f : α → State → State} (xs : List α) (hn : xs.Nodup)
    (own : ∀ x t, P t x → Q (f x t) x)
    (otherP : ∀ x y t, y ≠ x → P t y → P (f x t) y) (otherQ : ∀ x y t, y ≠ x → Q t y → Q (f x t) y) {s : State}
    (h : ∀ x ∈ xs, P s x) : ∀ x ∈ xs, Q (forEach xs f s) x := by
  induction xs generalizing s with
  | nil => simp
  | cons x xs ih =>
    obtain ⟨hx, hn⟩ := List.nodup_cons.1 hn
    have hne : ∀ y ∈ xs, y ≠ x := fun y hy e => hx (e ▸ hy)
    intro y hy
    obtain rfl | hy := List.mem_cons.1 hy
    · exact forEach_induction (P := fun t => Q t y) xs (own y s (h y List.mem_cons_self)) fun z hz t ht =>
        otherQ z y t (Ne.symm (hne z hz)) ht
    · exact ih hn (fun z hz => otherP x z s (hne z hz) (h z (List.mem_cons_of_mem _ hz))) y hy

theorem nodup_allPortals : allPortals.Nodup := by decide

/-! ## Waiting slots (R100) -/

theorem waitingSlot_ne_none {s : State} (hw : rosterWf s.roster = true) {p : Fin 4} {l : Line} {k : Nat} :
    waitingSlot s p l k ≠ none ↔ ∃ n, k ≤ n ∧ EligibleAt s p l n := by
  constructor
  · intro h
    obtain ⟨n, hn⟩ := Option.ne_none_iff_exists'.1 h
    simp only [waitingSlot, Option.map_eq_some_iff] at hn
    obtain ⟨e, he, rfl⟩ := hn
    have hp := List.find?_some he
    simp only [Bool.and_eq_true, decide_eq_true_eq] at hp
    obtain ⟨⟨hk, heligible⟩, hin⟩ := hp
    exact ⟨e.1, hk, by rwa [State.record_of_mem hw (List.mem_of_find?_eq_some he)], hin⟩
  · rintro ⟨n, hk, hn⟩ hnone
    exact absurd (lt_of_waitingSlot_eq_none hnone hn) (by omega)

/-! ## The law of one portal's sweep -/

/-- What SweepLaw says of one portal. -/
def SweepLawAt (s : State) (p : Fin 4) : Prop :=
  (∀ w, (s.sweep p).running = some w →
    CursorLaw s p .a w.cursorA ∧ CursorLaw s p .b w.cursorB ∧ (w.cursorA.phase ≠ .passed ∨ w.cursorB.phase ≠ .passed)
      ∧ (s.sweep p).done = false)
    ∧ ((s.sweep p).running = none → (s.sweep p).owed = false)

/-- SweepLaw, portal by portal and without its match. -/
def SweepsLawful (s : State) : Prop := ∀ p, SweepLawAt s p

theorem sweepLaw_iff (s : State) : SweepLaw s ↔ SweepsLawful s := by
  refine forall_congr' fun p => ⟨fun h => ⟨fun w hw => ?_, fun hw => ?_⟩, fun h => ?_⟩
  · rw [hw] at h; exact h
  · rw [hw] at h; exact h
  · split
    next w hw => exact h.1 w hw
    next hw => exact h.2 hw

/-- The law of one portal's sweep whose cursors may both have passed: it is about to end. -/
def SettledAt (s : State) (p : Fin 4) : Prop :=
  (∀ w, (s.sweep p).running = some w →
    CursorLaw s p .a w.cursorA ∧ CursorLaw s p .b w.cursorB ∧ (s.sweep p).done = false)
    ∧ ((s.sweep p).running = none → (s.sweep p).owed = false)

/-- Where a cursor stands, whatever the roster holds. -/
def CursorPlaced (c : Cursor) : Prop :=
  match c.phase with
  | .waiting => c.position ≠ none
  | .passed => c.position = none
  | .onLine n => c.position = some n
  | .onLineRestarted => True

/-- The law of one portal's sweep before its cursors' phases have been found again. -/
def PlacedAt (s : State) (p : Fin 4) : Prop :=
  (∀ w, (s.sweep p).running = some w → CursorPlaced w.cursorA ∧ CursorPlaced w.cursorB ∧ (s.sweep p).done = false)
    ∧ ((s.sweep p).running = none → (s.sweep p).owed = false)

theorem CursorLaw.placed {s : State} {p : Fin 4} {l : Line} {c : Cursor} (h : CursorLaw s p l c) : CursorPlaced c := by
  unfold CursorLaw at h
  unfold CursorPlaced
  split
  next hp => rw [hp] at h; obtain ⟨n, hn, -⟩ := h; simp [hn]
  next hp => rw [hp] at h; exact h
  next hp => rw [hp] at h; exact h
  · trivial

theorem SettledAt.placed {s : State} {p : Fin 4} (h : SettledAt s p) : PlacedAt s p :=
  ⟨fun w hw => by
    obtain ⟨ha, hb, hdone⟩ := h.1 w hw
    exact ⟨ha.placed, hb.placed, hdone⟩, h.2⟩

theorem SweepLawAt.settled {s : State} {p : Fin 4} (h : SweepLawAt s p) : SettledAt s p :=
  ⟨fun w hw => by
    obtain ⟨ha, hb, -, hdone⟩ := h.1 w hw
    exact ⟨ha, hb, hdone⟩, h.2⟩

/-! ## Congruence -/

theorem CursorLaw.congr {s t : State} {p : Fin 4} {l : Line} {c : Cursor} (h : CursorLaw s p l c)
    (hwait : ∀ k, waitingSlot s p l k ≠ none → waitingSlot t p l k ≠ none) : CursorLaw t p l c := by
  unfold CursorLaw at h ⊢
  split
  next hp => rw [hp] at h; obtain ⟨n, hn, hs⟩ := h; exact ⟨n, hn, hwait n hs⟩
  next hp => rw [hp] at h; exact h
  next hp => rw [hp] at h; exact h
  · trivial

theorem waitingSlot_congr {s t : State} (hroster : t.roster = s.roster) {p : Fin 4} (hplan : t.plan p = s.plan p)
    (l : Line) (k : Nat) : waitingSlot t p l k = waitingSlot s p l k := by
  simp only [waitingSlot, Machine.inFootprint, hroster, hplan]

theorem SweepLawAt.congr {s t : State} {p : Fin 4} (h : SweepLawAt s p) (hsweep : t.sweep p = s.sweep p)
    (hwait : ∀ l k, waitingSlot s p l k ≠ none → waitingSlot t p l k ≠ none) : SweepLawAt t p := by
  unfold SweepLawAt at h ⊢
  rw [hsweep]
  exact ⟨fun w hw => ⟨(h.1 w hw).1.congr (hwait _), (h.1 w hw).2.1.congr (hwait _), (h.1 w hw).2.2⟩, h.2⟩

theorem SweepLawAt.of_kept {s t : State} {p : Fin 4} (h : SweepLawAt s p) (hsweep : t.sweep p = s.sweep p)
    (hroster : t.roster = s.roster) (hplan : t.plan p = s.plan p) : SweepLawAt t p :=
  h.congr hsweep fun l k => by rw [waitingSlot_congr hroster hplan]; exact id

theorem PlacedAt.congr {s t : State} {p : Fin 4} (h : PlacedAt s p) (hsweep : t.sweep p = s.sweep p) : PlacedAt t p := by
  unfold PlacedAt at h ⊢
  rw [hsweep]
  exact h

theorem reads_sweepsLawful : Reads [.plans, .roster, .sweeps] SweepsLawful := fun s t _ _ hsame h p =>
  (h p).of_kept (by rw [State.sweep, State.sweep]; rw [show t.sweeps = s.sweeps from hsame .sweeps (by decide)])
    (hsame .roster (by decide))
    (by rw [State.plan, State.plan]; rw [show t.plans = s.plans from hsame .plans (by decide)])

/-! ## Settling, beginning and ending (R99, R100, R106) -/

theorem cursorLaw_settledCursor {s t : State} {p : Fin 4} {l : Line} {c : Cursor} (h : CursorPlaced c)
    (hwait : ∀ k, waitingSlot t p l k = waitingSlot s p l k) : CursorLaw t p l (settledCursor s p l c) := by
  unfold CursorPlaced at h
  unfold settledCursor
  split
  next hp =>
    rw [hp] at h
    split
    next hn => exact absurd hn h
    next n hn =>
      split
      next hs =>
        unfold CursorLaw
        rw [hp]
        exact ⟨n, hn, by rw [hwait]; exact Option.isSome_iff_ne_none.1 hs⟩
      · rfl
  next hp => rw [hp] at h; unfold CursorLaw; rw [hp]; exact h
  next hp => unfold CursorLaw; rw [hp]; trivial
  next hp => rw [hp] at h; unfold CursorLaw; rw [hp]; exact h

theorem PlacedAt.settleCursors {s : State} {p : Fin 4} (h : PlacedAt s p) : SettledAt (settleCursors p s) p := by
  unfold Machine.settleCursors
  split
  next hw => exact ⟨fun w hw' => (by rw [hw] at hw'; cases hw'), h.2⟩
  next w hw =>
    obtain ⟨ha, hb, hdone⟩ := h.1 w hw
    refine ⟨fun w' hw' => ?_, fun hw' => ?_⟩ <;> rw [State.sweep_setSweep_self] at hw'
    · cases hw'
      rw [State.sweep_setSweep_self]
      exact ⟨cursorLaw_settledCursor ha fun _ => rfl, cursorLaw_settledCursor hb fun _ => rfl, hdone⟩
    · cases hw'

theorem cursorPlaced_from (first : Option Nat) : CursorPlaced (.from first) := by
  cases first
  · rfl
  · exact Option.some_ne_none _

theorem cursorPlaced_placedCursor (first : Option Nat) (old : Option Cursor) : CursorPlaced (placedCursor first old) := by
  unfold placedCursor
  split
  · exact cursorPlaced_from first
  · split
    case h_1 | h_2 => exact trivial
    all_goals exact cursorPlaced_from first

theorem settledAt_beginSweep (cls : SweepClass) (p : Fin 4) (s : State) : SettledAt (beginSweep cls p s) p := by
  unfold beginSweep
  refine PlacedAt.settleCursors ?_
  unfold PlacedAt
  rw [State.sweep_setSweep_self]
  refine ⟨fun w hw => ?_, fun hw => by cases hw⟩
  cases hw
  exact ⟨cursorPlaced_placedCursor .., cursorPlaced_placedCursor .., rfl⟩

theorem sweepLawAt_closeSweep {p : Fin 4} {s : State} (ho : (s.sweep p).owed = false) : SweepLawAt (closeSweep p s) p := by
  unfold closeSweep SweepLawAt
  simp [handEvent, ho]

theorem SettledAt.of_not_bothPassed {s : State} {p : Fin 4} (h : SettledAt s p) (hb : ¬ bothPassed s p = true) :
    SweepLawAt s p := by
  refine ⟨fun w hw => ?_, h.2⟩
  obtain ⟨hca, hcb, hdone⟩ := h.1 w hw
  refine ⟨hca, hcb, ?_, hdone⟩
  by_contra hc
  simp only [not_or, not_not] at hc
  exact hb (by simp [bothPassed, hw, hc.1, hc.2])

theorem SweepLawAt.of_idle {s : State} {p : Fin 4} (hr : (s.sweep p).running = none) (ho : (s.sweep p).owed = false) :
    SweepLawAt s p := ⟨fun w hw => (by rw [hr] at hw; cases hw), fun _ => ho⟩

theorem sweepLawAt_startOwed {p : Fin 4} {s : State} (hr : (s.sweep p).running = none) : SweepLawAt (startOwed p s) p := by
  unfold startOwed
  split
  · dsimp only
    split
    · exact .of_idle (by simp [hr]) (by simp)
    · unfold closeIfPassed
      split
      · refine sweepLawAt_closeSweep ?_
        rw [beginSweep_owed, State.sweep_setSweep_self]
      next hb => exact (settledAt_beginSweep ..).of_not_bothPassed hb
  next ho => exact .of_idle hr (by simpa using ho)

theorem SettledAt.endIfPassed {s : State} {p : Fin 4} (h : SettledAt s p) : SweepLawAt (endIfPassed p s) p := by
  unfold Machine.endIfPassed
  split
  · refine sweepLawAt_startOwed ?_
    simp [closeSweep, handEvent]
  next hb => exact h.of_not_bothPassed hb

theorem sweepLawAt_startSweep (cls : SweepClass) (p : Fin 4) (s : State) : SweepLawAt (startSweep cls p s) p :=
  (settledAt_beginSweep ..).endIfPassed

theorem sweepLawAt_requestEmergencySweep (p : Fin 4) (s : State) : SweepLawAt (requestEmergencySweep p s) p := by
  unfold requestEmergencySweep
  split
  · exact sweepLawAt_startSweep ..
  · exact (settledAt_beginSweep ..).endIfPassed

theorem OnlySweeps.plan {s t : State} (h : OnlySweeps s t) (p : Fin 4) : t.plan p = s.plan p := by
  rw [State.plan, State.plan, h.plans]

/-- An operation of the sweep unit on one portal leaves the others' sweeps as they are. -/
theorem SweepLawAt.other {s t : State} {k : Fin 4} (h : SweepLawAt s k) (hkept : SweepKept k s t) (honly : OnlySweeps s t) :
    SweepLawAt t k := h.of_kept hkept.1 honly.roster (honly.plan k)

theorem sweepsLawful_requestEmergencySweep {s : State} (h : SweepsLawful s) (p : Fin 4) : SweepsLawful (requestEmergencySweep p s) := by
  intro k
  by_cases hk : k = p
  · subst hk; exact sweepLawAt_requestEmergencySweep k s
  · exact (h k).other (sweepKept_requestEmergencySweep hk s) (onlySweeps_requestEmergencySweep p s)

theorem sweepsLawful_requestSweep {s : State} (h : SweepsLawful s) (p : Fin 4) : SweepsLawful (requestSweep p s) := by
  intro k
  by_cases hk : k = p
  · subst hk
    have hk := h k
    unfold requestSweep
    split
    · exact hk
    · split
      · exact sweepLawAt_startSweep ..
      next w hw =>
        have hrunning := hk.1 w hw
        refine ⟨fun w' hw' => ?_, fun hw' => ?_⟩ <;> rw [State.sweep_setSweep_self] at hw'
        · rw [hw] at hw'
          cases hw'
          rw [State.sweep_setSweep_self]
          exact hrunning
        · rw [hw] at hw'
          cases hw'
  · exact (h k).other (sweepKept_requestSweep hk s) (onlySweeps_requestSweep p s)

theorem sweepsLawful_requestForSlot {s : State} (h : SweepsLawful s) (n : Nat) : SweepsLawful (requestForSlot n s) := by
  unfold requestForSlot
  split
  · exact h
  · exact sweepsLawful_requestSweep h _

/-! ## Settling all sweeps (R100) -/

/-- The weaker law of every sweep, which no change of the roster breaks. -/
def PlacedLaw (s : State) : Prop := ∀ p, PlacedAt s p

theorem SweepsLawful.placed {s : State} (h : SweepsLawful s) : PlacedLaw s := fun p =>
  (h p).settled.placed

theorem reads_placedLaw : Reads [.sweeps] PlacedLaw := fun s t _ _ hsame h p =>
  (h p).congr (by rw [State.sweep, State.sweep]; rw [show t.sweeps = s.sweeps from hsame .sweeps (by decide)])

/-- R100: one portal's part of settling. -/
theorem PlacedAt.settle {s : State} {p : Fin 4} (h : PlacedAt s p) : SweepLawAt (endIfPassed p (Machine.settleCursors p s)) p :=
  h.settleCursors.endIfPassed

theorem sweepKept_settle {p k : Fin 4} (hk : k ≠ p) (s : State) :
    SweepKept k s (endIfPassed p (settleCursors p s)) :=
  (sweepKept_settleCursors hk s).trans (sweepKept_endIfPassed hk _)

theorem onlySweeps_settle (p : Fin 4) (s : State) : OnlySweeps s (endIfPassed p (settleCursors p s)) :=
  (onlySweeps_settleCursors p s).trans (onlySweeps_endIfPassed p _)

theorem PlacedLaw.settledAt {s : State} (h : PlacedLaw s) (p : Fin 4) : SweepLawAt (settleSweeps s) p :=
  forEach_each (P := PlacedAt) (Q := SweepLawAt) (f := fun p t => endIfPassed p (settleCursors p t)) allPortals
    nodup_allPortals (fun _ _ hp => hp.settle) (fun _ _ t hk hp => hp.congr (sweepKept_settle hk t).1)
    (fun p _ t hk hp => hp.other (sweepKept_settle hk t) (onlySweeps_settle p t)) (fun p _ => h p) p (mem_allPortals p)

theorem sweepsLawful_settleSweeps {s : State} (h : PlacedLaw s) : SweepsLawful (settleSweeps s) := h.settledAt

theorem placedLaw_requestSweep {s : State} (h : PlacedLaw s) (p : Fin 4) : PlacedLaw (requestSweep p s) := by
  intro k
  by_cases hk : k = p
  · subst hk
    unfold requestSweep
    split
    · exact h k
    · split
      · exact (sweepLawAt_startSweep ..).settled.placed
      next w hw =>
        have hrunning := (h k).1 w hw
        refine ⟨fun w' hw' => ?_, fun hw' => ?_⟩ <;> rw [State.sweep_setSweep_self] at hw'
        · rw [hw] at hw'
          cases hw'
          rw [State.sweep_setSweep_self]
          exact hrunning
        · rw [hw] at hw'
          cases hw'
  · exact (h k).congr (sweepKept_requestSweep hk s).1

theorem placedLaw_requestForSlot {s : State} (h : PlacedLaw s) (n : Nat) : PlacedLaw (requestForSlot n s) := by
  unfold requestForSlot
  split
  · exact h
  · exact placedLaw_requestSweep h _

theorem placedLaw_requestForMove {s : State} (h : PlacedLaw s) (n k : Nat) : PlacedLaw (requestForMove n k s) := by
  unfold requestForMove
  split
  · exact placedLaw_requestForSlot h _
  · exact placedLaw_requestForSlot (placedLaw_requestForSlot h _) _

theorem CursorPlaced.setCursor {w : Walk} {l : Line} {c : Cursor} (hw : CursorPlaced w.cursorA ∧ CursorPlaced w.cursorB)
    (hc : CursorPlaced c) : CursorPlaced (w.setCursor l c).cursorA ∧ CursorPlaced (w.setCursor l c).cursorB := by
  cases l
  · exact ⟨hc, hw.2⟩
  · exact ⟨hw.1, hc⟩

theorem placedLaw_cursorCompleted {s : State} (h : PlacedLaw s) (p : Fin 4) (l : Line) :
    PlacedLaw (cursorCompleted p l s) := by
  unfold cursorCompleted
  split
  · exact h
  next w hw =>
    have moved : ∀ position, PlacedLaw (s.setSweep p { s.sweep p with running := some (w.setCursor l (.from position)) }) := by
      intro position k
      by_cases hk : k = p
      · subst hk
        obtain ⟨ha, hb, hdone⟩ := (h k).1 w hw
        refine ⟨fun w' hw' => ?_, fun hw' => ?_⟩ <;> rw [State.sweep_setSweep_self] at hw'
        · cases hw'
          rw [State.sweep_setSweep_self]
          obtain ⟨ha, hb⟩ := CursorPlaced.setCursor (l := l) ⟨ha, hb⟩ (cursorPlaced_from position)
          exact ⟨ha, hb, hdone⟩
        · cases hw'
      · exact (h k).congr (State.sweep_setSweep_of_ne _ _ _ _ hk)
    dsimp only
    split
    · exact moved _
    · exact moved _
    · exact h
    · exact h

end Sys2Proof.Machine
end

section
/-! SUPPORT. The law of sweeps is kept by every step: the commands and events that write a sweep, the roster or a plan. -/

namespace Sys2Proof.Machine

/-! ## Eligibility that stays (R101) -/

/-- A record is rewritten without a change of what the cursors look at. -/
theorem SweepsLawful.rewrite {s : State} (hw : rosterWf s.roster = true) (h : SweepsLawful s) {n : Nat} {x : Record}
    (hx : ∀ l, x.eligibleOn l = (s.record n).eligibleOn l) : SweepsLawful (s.setRecord n x) := by
  by_cases hn : n < 512
  swap
  · rwa [State.setRecord_of_ge hn]
  refine fun p => (h p).congr (State.setRecord_sweep ..) fun l k hk => ?_
  obtain ⟨j, hj, heligible, hin⟩ := (waitingSlot_ne_none hw).1 hk
  refine (waitingSlot_ne_none (rosterWf_setRecord hw n x)).2 ⟨j, hj, ?_, ?_⟩
  · rw [State.record_setRecord hw hn]
    split
    next e => subst e; rw [hx]; exact heligible
    · exact heligible
  · rwa [inFootprint_congr (State.setRecord_plans s n x)]

theorem eligibleOn_eq {r x : Record} (hst : x.state = r.state) (hplace : x.place = r.place)
    (hfault : r.state = .dark → x.fault = r.fault) (l : Line) : x.eligibleOn l = r.eligibleOn l := by
  have hframe : x.sweepFrame = r.sweepFrame := by
    unfold Record.sweepFrame
    rw [hst]
    cases hr : r.state
    case dark => rw [hfault hr]
    all_goals rfl
  unfold Record.eligibleOn Record.onLine
  rw [hplace, hframe]

/-! ## Emergency entry (R51) -/

theorem writes_inEmergency (p : Fin 4) (s : State) : Writes [.portals] s (s.setPortal p (s.portal p).inEmergency) :=
  .of_setPortal ..

theorem sweepsLawful_enterEmergency {s : State} (h : SweepsLawful s) (p : Fin 4) : SweepsLawful (enterEmergency p s) := by
  have hentered := reads_sweepsLawful.keeps (writes_inEmergency p s) (by decide) h
  exact reads_sweepsLawful.keeps (ts := [.notices]) ((Writes.of_handTrue ..).trans (.of_handEvent ..)) (by decide)
    (sweepsLawful_requestEmergencySweep hentered p)

theorem sweepsLawful_enterAll {s : State} (h : SweepsLawful s) : SweepsLawful (enterAll s) :=
  forEach_induction (P := SweepsLawful) _ h fun p _ t ht => by
    unfold enterIfEnabled
    split
    · exact sweepsLawful_enterEmergency ht p
    · exact ht

theorem sweepsLawful_examineEmergN {s : State} (h : SweepsLawful s) : SweepsLawful (examineEmergN s) := by
  unfold examineEmergN
  split
  · exact sweepsLawful_enterAll h
  · exact h

/-! ## Ramp expiries (R40) -/

theorem sweepsLawful_rampPhases {s : State} (h : SweepsLawful s) (p : Fin 4) : SweepsLawful (rampPhases p s) := by
  unfold rampPhases stepStages
  have hbefore := (((Writes.of_setPortal (ts := [.portals, .notices]) s p
    { s.portal p with rampTimer := some (s.portal p).ramp.steps }).trans (writes_commitProfile p _)).trans
    (writes_takeModeRequest p _))
  have hphases := reads_sweepsLawful.keeps hbefore (by decide) h
  dsimp only
  split
  · exact hphases
  · exact sweepsLawful_requestSweep (reads_sweepsLawful.keeps (.of_setPortal (ts := [.portals]) ..) (by decide) hphases) p

theorem sweepsLawful_rampExpired {s : State} (h : SweepsLawful s) (p : Fin 4) : SweepsLawful (rampExpired p s) := by
  unfold rampExpired
  split
  · refine forEach_induction (P := SweepsLawful) _ (sweepsLawful_rampPhases h p) fun q _ t ht => ?_
    unfold followerExpiry
    split
    · exact sweepsLawful_rampPhases ht q
    · exact ht
  · exact h

/-! ## Grants (R102) -/

theorem CursorLaw.setCursor {s : State} {p : Fin 4} {w : Walk} {c : Cursor} (l : Line)
    (hw : CursorLaw s p .a w.cursorA ∧ CursorLaw s p .b w.cursorB) (hc : CursorLaw s p l c) :
    CursorLaw s p .a (w.setCursor l c).cursorA ∧ CursorLaw s p .b (w.setCursor l c).cursorB := by
  cases l
  · exact ⟨hc, hw.2⟩
  · exact ⟨hw.1, hc⟩

theorem sweepsLawful_cursorGranted {s : State} (h : SweepsLawful s) (p : Fin 4) (l : Line) (n : Nat) :
    SweepsLawful (cursorGranted p l n s) := by
  unfold cursorGranted
  split
  · exact h
  next w hw =>
    intro k
    by_cases hk : k = p
    · subst hk
      obtain ⟨ha, hb, -, hdone⟩ := (h k).1 w hw
      obtain ⟨ha, hb⟩ := CursorLaw.setCursor (c := { position := some n, phase := .onLine n }) l ⟨ha, hb⟩ rfl
      refine ⟨fun w' hw' => ?_, fun hw' => ?_⟩ <;> rw [State.sweep_setSweep_self] at hw'
      · cases hw'
        rw [State.sweep_setSweep_self]
        refine ⟨ha, hb, ?_, hdone⟩
        cases l
        · exact .inl nofun
        · exact .inr nofun
      · cases hw'
    · exact (h k).of_kept (State.sweep_setSweep_of_ne _ _ _ _ hk) rfl rfl

theorem sweepsLawful_grantTo {s : State} (hw : rosterWf s.roster = true) (h : SweepsLawful s) (l : Line) (g : Grantee) :
    SweepsLawful (grantTo l g s) := by
  have line : ∀ {t : State} (y : LineCtl), SweepsLawful t → SweepsLawful (t.setLine l y) := fun y ht =>
    reads_sweepsLawful.keeps (.of_setLine (ts := [.lines]) ..) (by decide) ht
  have sent : ∀ n, SweepsLawful (s.setRecord n { s.record n with lastSent := some (levelOfSlot s n) }) := fun n =>
    h.rewrite hw fun l' => eligibleOn_eq rfl rfl (fun _ => rfl) l'
  unfold grantTo
  dsimp only
  split
  case h_1 p n =>
    unfold grantCursor
    dsimp only
    split
    · exact sweepsLawful_cursorGranted (line _ h) _ _ _
    · exact sweepsLawful_cursorGranted (line _ (sent n)) _ _ _
    · exact h
  · exact line _ h
  · exact line _ h

/-! ## Commands -/

theorem sweepsLawful_restart (s : State) : SweepsLawful (examineEmergN (evaluateAll (restartValues s))) := by
  refine sweepsLawful_examineEmergN (reads_sweepsLawful.keeps (ts := [.portals, .notices])
    (onlyPhotometry_evaluateAll _).writes (by decide) ?_)
  have hidle : SweepsLawful (restartSweeps (restartRoster (restartPortals (restartMeters (restartNotices s))))) := by
    have each := forEach_each (P := fun _ _ => True) (Q := fun (t : State) k => t.sweep k = .powerOn)
      (f := fun p t => t.setSweep p .powerOn) allPortals nodup_allPortals (fun p t _ => State.sweep_setSweep_self ..)
      (fun _ _ _ _ _ => trivial) (fun p k t hk ht => (State.sweep_setSweep_of_ne _ _ _ _ hk).trans ht)
      (s := restartRoster (restartPortals (restartMeters (restartNotices s)))) fun _ _ => trivial
    intro p
    have hp := each p (mem_allPortals p)
    exact .of_idle (congrArg Sweep.running hp) (congrArg Sweep.owed hp)
  exact reads_sweepsLawful.keeps (ts := [.lines, .snapshots])
    ((writes_restartLines _).mono.trans (writes_restartSnapshots _).mono) (by decide) hidle

theorem sweepsLawful_abandonSweep {s : State} (h : SweepsLawful s) (p : Fin 4) : SweepsLawful (abandonSweep p s) := by
  unfold abandonSweep
  split
  · exact h
  · intro k
    by_cases hk : k = p
    · subst hk; exact .of_idle (by simp) (by simp)
    · exact (h k).of_kept (State.sweep_setSweep_of_ne _ _ _ _ hk) rfl rfl

/-- R58: a plan is written only while its portal's sweep is IDLE. -/
theorem sweepsLawful_writePlan {s : State} (h : SweepsLawful s) {p : Fin 4} (hidle : planBusy s p = false)
    (q : Option Plan) : SweepsLawful (writePlan p q s) := by
  refine reads_sweepsLawful.keeps (roster_writePlan p q s) (by decide) fun k => ?_
  by_cases hk : k = p
  · subst hk
    have hrunning : (s.sweep k).running = none := by
      simp only [planBusy, Bool.or_eq_false_iff] at hidle
      simpa using hidle.2
    exact .of_idle hrunning ((h k).2 hrunning)
  · exact (h k).of_kept rfl rfl (State.plan_setPlan_of_ne _ _ _ _ hk)

theorem writes_removeIgnored (l : Line) (a : Nat) (s : State) : Writes [.lines] s (removeIgnored l a s) := .of_setLine ..

/-- A roster write of any kind, then what asks for sweeps, then settling. -/
theorem PlacedLaw.of_writes {ts : List Table} {s t : State} (h : PlacedLaw s) (hw : Writes ts s t)
    (hd : .sweeps ∉ ts := by decide) : PlacedLaw t :=
  reads_placedLaw.keeps hw (by rintro ⟨x, hx, hxs⟩; rw [List.mem_singleton] at hxs; exact hd (hxs ▸ hx)) h

theorem SweepsLawful.amend {s : State} (hroster : rosterWf s.roster = true) (h : SweepsLawful s) (n : Nat) (x : Selection)
    (m : Half) (override : Byte) (pinned : Half) (uid : UidField) :
    SweepsLawful (s.setRecord n (amended x m override pinned uid (s.record n))) :=
  h.rewrite hroster fun l => eligibleOn_eq rfl rfl (fun _ => rfl) l

theorem sweepsLawful_command {s t : State} {ts : List Table} (hroster : rosterWf s.roster = true) (h : SweepsLawful s)
    (heffect : CommandEffect s ts t) (htouched : ∃ x ∈ ts, x ∈ [Table.plans, .roster, .sweeps]) : SweepsLawful t := by
  cases heffect
  case restart => exact sweepsLawful_restart s
  case start p m _ =>
    have hstarted := ((writes_commitProfile p s).mono (ts := [.portals, .notices])).trans
      (.of_setPortal _ p (((commitProfile p s).portal p).started m))
    exact sweepsLawful_requestSweep (reads_sweepsLawful.keeps hstarted (by decide) h) p
  case halt p _ =>
    exact sweepsLawful_abandonSweep (reads_sweepsLawful.keeps (.of_setPortal (ts := [.portals]) ..) (by decide) h) p
  case enableInEmergency p _ _ =>
    exact sweepsLawful_enterEmergency (reads_sweepsLawful.keeps (.of_setPortal (ts := [.portals]) ..) (by decide) h) p
  case removePlan hidle _ => exact sweepsLawful_writePlan h hidle none
  case setPlan q hidle _ _ _ => exact sweepsLawful_writePlan h hidle (some q)
  case admission x capability lmin _ _ =>
    have hwritten := (Writes.of_setRecord (ts := [.roster, .lines, .notices]) s x.slot
      (admittedRecord x capability lmin)).trans (writes_removeStray x.place.line x.place.address _).mono
    have hplaced := (h.placed.of_writes hwritten).of_writes (writes_removeIgnored x.place.line x.place.address _)
    exact sweepsLawful_settleSweeps (placedLaw_requestForSlot hplaced _)
  case amend n x m override pinned uid _ =>
    exact h.amend hroster n x m override pinned uid
  case amendAsking n x m override pinned uid _ =>
    exact sweepsLawful_requestForSlot (h.amend hroster n x m override pinned uid) n
  case move n k _ _ _ _ _ _ =>
    have hmoved := (Writes.of_setRecord (ts := [.roster]) s k (s.record n)).trans (.of_setRecord _ n (.vacant false))
    exact sweepsLawful_settleSweeps (placedLaw_requestForMove (h.placed.of_writes hmoved) n k)
  case retire n q _ _ _ _ _ =>
    have hretired := h.placed.of_writes (.of_setRecord (ts := [.roster]) s n { s.record n with state := .retiring })
    have hwritten := hretired.of_writes (.of_setLine (ts := [.lines]) _ q.line (retiredLine (s.line q.line) q.address))
    exact sweepsLawful_settleSweeps (placedLaw_requestForSlot hwritten n)
  case clearFault n _ _ _ =>
    unfold clearFaultOf
    dsimp only
    split
    · have hcleared := Writes.of_setRecord (ts := [.roster]) s n (faultCleared (s.record n))
      exact sweepsLawful_settleSweeps (placedLaw_requestForSlot (h.placed.of_writes hcleared) n)
    next hdark =>
      refine h.rewrite hroster fun l => eligibleOn_eq ?_ ?_ (fun e => absurd e hdark) l <;>
        rw [faultCleared, if_neg hdark]
  case readRecord => exact h.rewrite hroster fun l => eligibleOn_eq rfl rfl (fun _ => rfl) l
  case resweep p _ => exact sweepsLawful_requestSweep h p
  case setLine l limit _ _ =>
    have hlimited := (Writes.of_setLine (ts := [.roster, .lines, .notices]) s l
      { s.line l with missLimit := limit }).trans
      (.of_forEach (slotsOfLine s l) (fun n t => .of_setRecord t n (limited limit (t.record n))) _)
    unfold applyLimit
    refine sweepsLawful_settleSweeps (forEach_induction (P := PlacedLaw) _ ?_ fun n _ t ht =>
      placedLaw_requestForSlot ht n)
    split
    · exact h.placed.of_writes hlimited
    · exact h.placed.of_writes (hlimited.trans (.of_handEvent ..))
  all_goals exact absurd htouched (by decide)

/-! ## Events -/

theorem placedLaw_commitApplied {s : State} (h : PlacedLaw s) (l : Line) (n : Nat) (a : Applied) :
    PlacedLaw (commitApplied l n a s) := by
  have hnoticed := (Writes.of_setRecord (ts := [.roster, .notices]) s n a.record).trans
    (.of_forEach a.events (fun e t => .of_handEvent t (lineEventClass l e)) _)
  unfold commitApplied
  dsimp only
  split
  · exact placedLaw_requestForSlot (h.of_writes hnoticed) n
  · exact h.of_writes hnoticed

theorem placedLaw_applyResult {s : State} (h : PlacedLaw s) (l : Line) (x : Exchange) (reply : Option DriverReply) :
    PlacedLaw (applyResult l x reply s) := by
  unfold applyResult
  split
  · split
    · unfold strayIdent
      split
      · exact h.of_writes (.of_setLine (ts := [.lines]) ..)
      · exact h
    · exact h
  · dsimp only
    split
    · split
      · exact placedLaw_commitApplied h _ _ _
      · exact h
    · split
      · exact h
      · split
        · exact (placedLaw_commitApplied h _ _ _).of_writes (.of_setLine (ts := [.lines]) ..)
        · exact placedLaw_commitApplied h _ _ _

theorem placedLaw_notifyOrigin {s : State} (h : PlacedLaw s) (l : Line) (o : Origin) : PlacedLaw (notifyOrigin l o s) := by
  unfold notifyOrigin
  split
  · exact placedLaw_cursorCompleted h _ _
  · exact h
  · exact h

theorem sweepsLawful_event {s t : State} {ts : List Table} (hroster : rosterWf s.roster = true) (h : SweepsLawful s)
    (heffect : EventEffect s ts t) (htouched : ∃ x ∈ ts, x ∈ [Table.plans, .roster, .sweeps]) : SweepsLawful t := by
  cases heffect
  case emergNAssertion =>
    unfold emergNAsserted
    split
    · exact h
    · exact sweepsLawful_enterAll (reads_sweepsLawful.keeps (.of_emergN (ts := [.emergN]) ..) (by decide) h)
  case rampExpiry p => exact sweepsLawful_rampExpired h p
  case refreshTimerExpiry p =>
    unfold refreshExpired
    split
    · exact sweepsLawful_requestSweep (reads_sweepsLawful.keeps (.of_setPortal (ts := [.portals]) ..) (by decide) h) p
    · exact h
  case arbiterGrant l =>
    unfold arbiterGrant
    split
    · split
      · exact h
      · exact sweepsLawful_grantTo hroster h _ _
    · exact h
    · exact h
  case exchangeCompletion l chars =>
    unfold exchangeCompletion
    split
    next x _ =>
      split
      next received request _ =>
        have hresult := placedLaw_applyResult h.placed l x (acceptReply x.frame x.address received)
        have htaken := hresult.of_writes (writes_takeRequest l (readRequest (request ++ chars)) _)
        exact sweepsLawful_settleSweeps
          ((placedLaw_notifyOrigin htaken l x.origin).of_writes (.of_setLine (ts := [.lines]) ..))
      all_goals exact h
    all_goals exact h
  all_goals exact absurd htouched (by decide)

theorem sweepsLawful_poweredUp {s : State} (h : SweepsLawful s) (straps : BitVec 4) (pins : PinLevels) :
    SweepsLawful (poweredUp straps pins s) := by
  have hevaluated : SweepsLawful (evaluateAll { s with resetN := true, straps := straps, emergN := pins.emergN }) :=
    reads_sweepsLawful.keeps (ts := [.portals, .notices]) (onlyPhotometry_evaluateAll _).writes (by decide) h
  exact sweepsLawful_examineEmergN hevaluated

/-- Settles O45: requests, starts and ends of sweeps keep the law; after a roster change settling the sweeps restores it. -/
theorem stepKeepsSweepLaw : Obligations.StepKeepsSweepLaw := by
  unfold Obligations.StepKeepsSweepLaw
  intro s t hroster hs h
  refine (sweepLaw_iff t).2 (step_keeps (P := fun s => rosterWf s.roster = true ∧ SweepsLawful s) reads_sweepsLawful
    (fun _ => And.right) (fun _ _ => id) (fun s ts t _ hs heffect => sweepsLawful_command hs.1 hs.2 heffect)
    (fun s ts t _ hs heffect => sweepsLawful_event hs.1 hs.2 heffect) (fun s _ => ?_)
    (fun straps pins s _ hs => reads_sweepsLawful.released (sweepsLawful_poweredUp hs.2 straps pins)) ⟨hroster, (sweepLaw_iff s).1 hs⟩ h)
  have hreset : SweepsLawful State.reset := (sweepLaw_iff _).1 (sweepLaw_of_check (by decide))
  exact reads_sweepsLawful.asserted hreset s

end Sys2Proof.Machine
end

section
/-! SUPPORT. The laws of the reset line, of the port and of the in-service stack are kept by every step (R153, R162, R165,
R169). -/

namespace Sys2Proof.Machine

/-! ## While RESET_N is low -/

/-- R169: while RESET_N is low, only its own row changes anything. -/
theorem RowEffect.of_low {i : Instr} {s t : State} (h : RowEffect i s t) (hr : s.resetN = false) :
    t = s ∨ t = resetAsserted s ∨ ∃ straps pins, t = resetReleased straps pins s := by
  have high : ∀ {P : Prop}, s.resetN = true → P := fun h => absurd h (by simp [hr])
  cases h
  case port p hp =>
    cases hp
    case kept => exact .inl rfl
    all_goals exact high ‹_›
  case command h _ _ _ _ _ => exact high h
  case event h => exact high h
  case asserted => exact .inr (.inl rfl)
  case released straps pins _ _ => exact .inr (.inr ⟨straps, pins, rfl⟩)

theorem ResetLaw.of_high {s : State} (h : s.resetN = true) : ResetLaw s := fun hl => absurd h (by simp [hl])

theorem resetLaw_resetAsserted (s : State) : ResetLaw (resetAsserted s) := fun _ => rfl

theorem resetReleased_eq (straps : BitVec 4) (pins : PinLevels) (s : State) :
    resetReleased straps pins s = { poweredUp straps pins s with
      port := { (poweredUp straps pins s).port with
        ready := true, held := none, preparing := none, ignoring := !pins.csN } } := by
  unfold resetReleased poweredUp
  dsimp only

theorem resetN_resetReleased (straps : BitVec 4) (pins : PinLevels) (s : State) :
    (resetReleased straps pins s).resetN = true := by
  rw [resetReleased_eq]
  dsimp only
  exact (writes_poweredUp straps pins s).outer.resetN

theorem RowEffect.resetN_of_high {i : Instr} {s t : State} (h : RowEffect i s t) (hr : s.resetN = true) :
    t.resetN = true ∨ t = resetAsserted s := by
  cases h
  case port => exact .inl hr
  case command heffect => exact .inl (heffect.writes.outer.resetN.trans hr)
  case event =>
    obtain ⟨ts, heffect⟩ := eventEffect i s
    exact .inl (heffect.writes.outer.resetN.trans hr)
  case asserted => exact .inr rfl
  case released => exact .inl (resetN_resetReleased ..)

theorem RowEffect.resetLaw {i : Instr} {s t : State} (h : RowEffect i s t) (hs : ResetLaw s) : ResetLaw t := by
  cases hr : s.resetN
  · obtain rfl | rfl | ⟨straps, pins, rfl⟩ := h.of_low hr
    · exact hs
    · exact resetLaw_resetAsserted s
    · exact .of_high (resetN_resetReleased ..)
  · obtain ht | rfl := h.resetN_of_high hr
    · exact .of_high ht
    · exact resetLaw_resetAsserted s

theorem ResetLaw.of_pending {s : State} (h : ResetLaw s) (pending : List Instr) :
    ResetLaw { s with pending := pending } := fun hr => by
  have hs := h hr
  rw [hs]

/-! ## The port (R162, R165) -/

/-- What PortLaw says of the port alone. -/
def Port.lawful (x : Port) : Prop :=
  (x.ready = true ↔ x.preparing = none) ∧ (x.held ≠ none → x.ready = true)
    ∧ (x.ignoring = true → x.ready = true ∧ x.held = none)

theorem PortMove.lawful {s : State} {p : Port} (hp : PortMove s p) (h : s.port.lawful) : p.lawful := by
  obtain ⟨hready, hheld, hignoring⟩ := h
  cases hp
  case kept | passed => exact ⟨hready, hheld, hignoring⟩
  case ended => exact ⟨hready, hheld, nofun⟩
  case prepared => exact ⟨⟨nofun, nofun⟩, fun e => absurd rfl e, nofun⟩
  case sent held hh _ =>
    obtain rfl | rfl := hh
    · exact ⟨hready, fun e => absurd rfl e, fun hi => ⟨(hignoring hi).1, rfl⟩⟩
    · exact ⟨hready, hheld, hignoring⟩
  case raised hlow r =>
    refine ⟨⟨fun _ => rfl, fun _ => rfl⟩, fun _ => rfl, fun hi => ?_⟩
    rw [hlow] at hignoring
    cases (hignoring hi).1

theorem RowEffect.portLaw {i : Instr} {s t : State} (h : RowEffect i s t) (hs : PortLaw s) : PortLaw t := by
  cases h
  case port p hp => exact fun hr => hp.lawful (hs hr)
  case command hr ts u p hp heffect => exact fun _ => hp.lawful (hs hr)
  case event hr =>
    obtain ⟨ts, heffect⟩ := eventEffect i s
    intro _
    rw [heffect.writes.outer.port]
    exact hs hr
  case asserted => exact fun hr => by cases hr
  case released straps pins _ _ =>
    exact fun _ => ⟨⟨fun _ => rfl, fun _ => rfl⟩, fun e => absurd rfl e, fun _ => ⟨rfl, rfl⟩⟩

/-! ## The in-service stack (R153 to R155) -/

theorem reads_stackLaw : Reads [.settings] StackLaw := fun s t _ _ hsame h => by
  have hsettings : t.notices.settings = s.notices.settings := hsame .settings (by decide)
  have hstack : t.notices.stack = s.notices.stack := congrArg Prod.fst hsettings
  have hpriority : ∀ c, (t.noticeClass c).priority = (s.noticeClass c).priority := fun c => by
    have hc := congrArg (fun x => x.2.2[c].1) hsettings
    simpa [Notices.settings, State.noticeClass] using hc
  unfold StackLaw at h ⊢
  simp only [hstack, hpriority]
  exact h

/-- Strictly falling numbers between 1 and 15 are at most fifteen. -/
theorem length_le_of_pairwise_gt {l : List Nat} (h : l.Pairwise (· > ·)) (hrange : ∀ x ∈ l, 1 ≤ x ∧ x ≤ 15) :
    l.length ≤ 15 := by
  have hnodup : l.Nodup := h.imp fun hgt => Nat.ne_of_gt hgt
  rw [← List.toFinset_card_of_nodup hnodup]
  have hsub : l.toFinset ⊆ Finset.Icc 1 15 := fun x hx => Finset.mem_Icc.2 (hrange x (List.mem_toFinset.1 hx))
  exact Finset.card_le_card hsub

theorem eligible_of_pickClass {s : State} {c : Fin 32} (h : pickClass s = some c) : eligible s c = true := by
  have hpicked := pickedFrom_pickClass s
  rw [h] at hpicked
  exact hpicked.1

/-- R154: an eligible class goes on top of the stack. -/
theorem StackLaw.push {s : State} (h : StackLaw s) {c : Fin 32} (hc : eligible s c = true) :
    StackLaw { s with notices := { s.notices with
      stack := { cls := c, priority := (s.noticeClass c).priority } :: s.notices.stack } } := by
  obtain ⟨hpriority, hfalling, hnodup, -, hrange⟩ := h
  obtain ⟨-, -, hnotin, htop⟩ := eligible_iff.1 hc
  have habove : ∀ x ∈ s.notices.stack.map (·.priority), (s.noticeClass c).priority > x := by
    cases hstack : s.notices.stack with
    | nil => simp
    | cons e rest =>
      rw [hstack] at htop hfalling
      simp only [List.head?_cons, Option.map_some, Option.getD_some] at htop
      rw [List.map_cons, List.pairwise_cons] at hfalling
      intro x hx
      obtain rfl | hx := List.mem_cons.1 hx
      · exact htop
      · exact Nat.lt_trans (hfalling.1 x hx) htop
  have hfalling' := List.pairwise_cons.2 ⟨habove, hfalling⟩
  have hrange' : ∀ e ∈ ({ cls := c, priority := (s.noticeClass c).priority } : StackEntry) :: s.notices.stack,
      1 ≤ e.priority ∧ e.priority ≤ 15 := by
    intro e he
    obtain rfl | he := List.mem_cons.1 he
    · exact hpriority c
    · exact hrange e he
  refine ⟨hpriority, hfalling', List.nodup_cons.2 ⟨fun hin => ?_, hnodup⟩, ?_, hrange'⟩
  · obtain ⟨e, he, hec⟩ := List.mem_map.1 hin
    exact hnotin e he hec
  · have hlength := length_le_of_pairwise_gt hfalling' fun x hx => by
      obtain rfl | hx := List.mem_cons.1 hx
      · exact hpriority c
      · obtain ⟨e, he, rfl⟩ := List.mem_map.1 hx
        exact hrange e he
    simpa using hlength

theorem StackLaw.pop {s : State} (h : StackLaw s) {e : StackEntry} {rest : List StackEntry}
    (hstack : s.notices.stack = e :: rest) : StackLaw { s with notices := { s.notices with stack := rest } } := by
  obtain ⟨hpriority, hfalling, hnodup, hlength, hrange⟩ := h
  rw [hstack] at hfalling hnodup hlength hrange
  exact ⟨hpriority, (List.pairwise_cons.1 hfalling).2, (List.nodup_cons.1 hnodup).2, by simp at hlength ⊢; omega,
    fun x hx => hrange x (List.mem_cons_of_mem _ hx)⟩

theorem StackLaw.setPriority {s : State} (h : StackLaw s) (c : Fin 32) {y : NoticeClass}
    (hy : 1 ≤ y.priority ∧ y.priority ≤ 15) : StackLaw (s.setNoticeClass c y) := by
  refine ⟨fun k => ?_, h.2⟩
  rw [State.noticeClass_setNoticeClass]
  split
  · exact hy
  · exact h.1 k

theorem StackLaw.clear {s : State} (h : StackLaw s) : StackLaw { s with notices := { s.notices with stack := [] } } :=
  ⟨h.1, .nil, .nil, Nat.zero_le 15, nofun⟩

theorem stackLaw_reset : StackLaw State.reset := ⟨by decide, .nil, .nil, by decide, nofun⟩

theorem stackLaw_restartNotices {s : State} (h : StackLaw s) : StackLaw (restartNotices s) := by
  unfold restartNotices
  have hcleared := forEach_induction (P := StackLaw) (f := fun c t => t.setNoticeClass c (t.noticeClass c).restarted)
    allClasses h fun c _ t ht => ht.setPriority c (y := (t.noticeClass c).restarted) (ht.1 c)
  exact hcleared.clear

theorem stackLaw_command {s t : State} {ts : List Table} (h : StackLaw s) (heffect : CommandEffect s ts t)
    (htouched : ∃ x ∈ ts, x ∈ [Table.settings]) : StackLaw t := by
  cases heffect
  case restart =>
    have hblocks := ((((((writes_restartMeters (restartNotices s)).mono
      (ts := [.meters, .polls, .portals, .roster, .sweeps, .lines, .snapshots, .notices])).trans
      (writes_restartPortals _).mono).trans (writes_restartRoster _).mono).trans (writes_restartSweeps _).mono).trans
      (writes_restartLines _).mono).trans (writes_restartSnapshots _).mono
    exact reads_stackLaw.keeps ((hblocks.trans (onlyPhotometry_evaluateAll _).writes).trans (writes_examineEmergN _).mono)
      (by decide) (stackLaw_restartNotices h)
  case setPriority cs priority hpriority =>
    exact forEach_induction (P := StackLaw) cs h fun c _ t ht => ht.setPriority c hpriority
  case mask cs masked => exact forEach_induction (P := StackLaw) cs h fun c _ t ht => ht.setPriority c (ht.1 c)
  case takeNotice c hpick =>
    have hcleared := h.setPriority c (y := { s.noticeClass c with pending := false }) (h.1 c)
    unfold takenNotice
    dsimp only
    split
    · exact hcleared
    · have hpushed := (h.push (eligible_of_pickClass hpick)).setPriority c
        (y := { s.noticeClass c with pending := false }) (h.1 c)
      exact hpushed
  case finishNotice e rest hstack =>
    unfold finishedNotice
    dsimp only
    split
    · exact (h.pop hstack).setPriority e.cls (y := { s.noticeClass e.cls with pending := true }) (h.1 e.cls)
    · exact h.pop hstack
  case setAutoFinish => exact h
  all_goals exact absurd htouched (by decide)

theorem step_keeps_stackLaw {s t : State} (hs : StackLaw s) (h : step s = .next t) : StackLaw t := by
  refine step_keeps (P := StackLaw) reads_stackLaw (fun _ => id) (fun _ _ => id)
    (fun s ts t _ hs heffect => stackLaw_command hs heffect)
    (fun s ts t _ _ heffect htouched => ?_) (fun s _ => reads_stackLaw.asserted stackLaw_reset s)
    (fun straps pins s _ hs => reads_stackLaw.released ?_) hs h
  · cases heffect <;> exact absurd htouched (by decide)
  · exact reads_stackLaw.keeps (writes_poweredUp straps pins s) (by decide) hs

end Sys2Proof.Machine
end

section
/-! SUPPORT. What RESTART leaves in each block before any evaluation (R18, R35, R55, R81, R112, R133, R158, R168). -/

namespace Sys2Proof.Machine

theorem nodup_allMeters : allMeters.Nodup := by decide

theorem nodup_allClasses : allClasses.Nodup := List.nodup_finRange 32

theorem mem_allLines (l : Line) : l ∈ allLines := by cases l <;> decide

theorem nodup_allLines : allLines.Nodup := by decide

/-! ## Each block -/

theorem meter_restartMeters (s : State) (m : Fin 8) : (restartMeters s).meter m = restartedMeter s (s.meter m) :=
  forEach_each (P := fun t k => t.meter k = s.meter k ∧ t.portals = s.portals)
    (Q := fun t k => t.meter k = restartedMeter s (s.meter k) ∧ t.portals = s.portals)
    (f := fun m t => t.setMeter m (restartedMeter t (t.meter m))) allMeters nodup_allMeters
    (fun k t ht => ⟨by
      rw [State.meter_setMeter_self, ht.1]
      simp only [restartedMeter, State.portal, ht.2], ht.2⟩)
    (fun k j t hj ht => ⟨(State.meter_setMeter_of_ne _ _ _ _ hj).trans ht.1, ht.2⟩)
    (fun k j t hj ht => ⟨(State.meter_setMeter_of_ne _ _ _ _ hj).trans ht.1, ht.2⟩) (fun _ _ => ⟨rfl, rfl⟩) m
    (mem_allMeters m) |>.1

theorem portal_restartPortals (s : State) (p : Fin 4) : (restartPortals s).portal p = (s.portal p).restarted :=
  forEach_each (P := fun t k => t.portal k = s.portal k) (Q := fun t k => t.portal k = (s.portal k).restarted)
    (f := fun p t => t.setPortal p (t.portal p).restarted) allPortals nodup_allPortals
    (fun k t ht => by rw [State.portal_setPortal_self, ht])
    (fun _ _ _ hj ht => (State.portal_setPortal_of_ne _ _ _ _ hj).trans ht)
    (fun _ _ _ hj ht => (State.portal_setPortal_of_ne _ _ _ _ hj).trans ht) (fun _ _ => rfl) p (mem_allPortals p)

theorem sweep_restartSweeps (s : State) (p : Fin 4) : (restartSweeps s).sweep p = .powerOn :=
  forEach_each (P := fun _ _ => True) (Q := fun t k => t.sweep k = .powerOn)
    (f := fun p t => t.setSweep p .powerOn) allPortals nodup_allPortals (fun _ _ _ => State.sweep_setSweep_self ..)
    (fun _ _ _ _ _ => trivial) (fun _ _ _ hj ht => (State.sweep_setSweep_of_ne _ _ _ _ hj).trans ht)
    (fun _ _ => trivial) p (mem_allPortals p)

theorem line_restartLines (s : State) (l : Line) : (restartLines s).line l = (s.line l).restarted :=
  forEach_each (P := fun t k => t.line k = s.line k) (Q := fun t k => t.line k = (s.line k).restarted)
    (f := fun l t => t.setLine l (t.line l).restarted) allLines nodup_allLines
    (fun k t ht => by rw [State.line_setLine_self, ht])
    (fun _ _ _ hj ht => (State.line_setLine_of_ne _ _ _ _ hj).trans ht)
    (fun _ _ _ hj ht => (State.line_setLine_of_ne _ _ _ _ hj).trans ht) (fun _ _ => rfl) l (mem_allLines l)

theorem noticeClass_clearStack (s : State) (c : Fin 32) :
    State.noticeClass { s with notices := { s.notices with stack := [] } } c = s.noticeClass c := rfl

theorem noticeClass_restartNotices (s : State) (c : Fin 32) :
    (restartNotices s).noticeClass c = (s.noticeClass c).restarted := by
  have each := forEach_each (P := fun t k => t.noticeClass k = s.noticeClass k)
    (Q := fun t k => t.noticeClass k = (s.noticeClass k).restarted)
    (f := fun c t => t.setNoticeClass c (t.noticeClass c).restarted) allClasses nodup_allClasses
    (fun k t ht => by rw [State.noticeClass_setNoticeClass_self, ht])
    (fun _ _ _ hj ht => (State.noticeClass_setNoticeClass_of_ne _ _ _ _ hj).trans ht)
    (fun _ _ _ hj ht => (State.noticeClass_setNoticeClass_of_ne _ _ _ _ hj).trans ht) (fun _ _ => rfl) c (mem_allClasses c)
  unfold restartNotices
  exact (noticeClass_clearStack _ c).trans each

theorem snapshotOf_restartSnapshots (s : State) (p : Fin 4) :
    (restartSnapshots s).snapshotOf p = { photo := none, output := none } :=
  forEach_each (P := fun _ _ => True) (Q := fun t k => t.snapshotOf k = { photo := none, output := none })
    (f := fun p t => t.setSnapshot p { photo := none, output := none }) allPortals nodup_allPortals
    (fun _ _ _ => State.snapshotOf_setSnapshot_self ..) (fun _ _ _ _ _ => trivial)
    (fun _ _ _ hj ht => (State.snapshotOf_setSnapshot_of_ne _ _ _ _ hj).trans ht) (fun _ _ => trivial) p
    (mem_allPortals p)

/-! ## All blocks -/

theorem meter_restartValues (s : State) (m : Fin 8) : (restartValues s).meter m = restartedMeter s (s.meter m) := by
  have hnotices := writes_restartNotices s
  have hafter := ((((writes_restartPortals (restartMeters (restartNotices s))).mono
    (ts := [.portals, .roster, .sweeps, .lines, .snapshots])).trans (writes_restartRoster _).mono).trans
    (writes_restartSweeps _).mono).trans (writes_restartLines _).mono
  have hafter := hafter.trans (writes_restartSnapshots _).mono
  refine (hafter.meter m).trans ?_
  rw [meter_restartMeters, hnotices.meter]
  unfold restartedMeter
  simp only [hnotices.portal]

theorem portal_restartValues (s : State) (p : Fin 4) : (restartValues s).portal p = (s.portal p).restarted := by
  have hbefore := ((writes_restartNotices s).mono (ts := [.notices, .settings, .meters, .polls])).trans
    (writes_restartMeters _).mono
  have hafter := (((writes_restartRoster (restartPortals (restartMeters (restartNotices s)))).mono
    (ts := [.roster, .sweeps, .lines, .snapshots])).trans (writes_restartSweeps _).mono).trans (writes_restartLines _).mono
  have hafter := hafter.trans (writes_restartSnapshots _).mono
  refine (hafter.portal p).trans ?_
  rw [portal_restartPortals, hbefore.portal]

theorem sweep_restartValues (s : State) (p : Fin 4) : (restartValues s).sweep p = .powerOn := by
  have hafter := ((writes_restartLines (restartSweeps (restartRoster (restartPortals (restartMeters (restartNotices s)))))).mono
    (ts := [.lines, .snapshots])).trans (writes_restartSnapshots _).mono
  exact (hafter.sweep p).trans (sweep_restartSweeps ..)

theorem line_restartValues (s : State) (l : Line) : (restartValues s).line l = (s.line l).restarted := by
  have hbefore := ((((writes_restartNotices s).mono
    (ts := [.notices, .settings, .meters, .polls, .portals, .roster, .sweeps])).trans (writes_restartMeters _).mono).trans
    (writes_restartPortals _).mono).trans (writes_restartRoster _).mono
  have hbefore := hbefore.trans (writes_restartSweeps _).mono
  refine ((writes_restartSnapshots _).line l).trans ?_
  rw [line_restartLines, hbefore.line]

theorem noticeClass_of_writes {ts : List Table} {s t : State} (h : Writes ts s t) (c : Fin 32)
    (hn : .notices ∉ ts := by decide) (hs : .settings ∉ ts := by decide) : t.noticeClass c = s.noticeClass c := by
  have hmasked : (t.noticeClass c).masked = (s.noticeClass c).masked := by
    have hc := congrArg (fun x => x.2.2[c].2) (h.kept .settings hs)
    simpa [Notices.settings, State.noticeClass] using hc
  have hpriority := h.priority c hs
  have hpending := h.pendingMark c hn
  have hholds := h.holdsMark c hn
  cases hx : t.noticeClass c
  cases hy : s.noticeClass c
  simp_all

theorem writes_restartValues_of_notices (s : State) :
    Writes [.meters, .polls, .portals, .roster, .sweeps, .lines, .snapshots] (restartNotices s) (restartValues s) :=
  (((((writes_restartMeters (restartNotices s)).mono.trans (writes_restartPortals _).mono).trans
    (writes_restartRoster _).mono).trans (writes_restartSweeps _).mono).trans (writes_restartLines _).mono).trans
    (writes_restartSnapshots _).mono

theorem noticeClass_restartValues (s : State) (c : Fin 32) :
    (restartValues s).noticeClass c = (s.noticeClass c).restarted :=
  (noticeClass_of_writes (writes_restartValues_of_notices s) c).trans (noticeClass_restartNotices s c)

theorem snapshotOf_restartValues (s : State) (p : Fin 4) :
    (restartValues s).snapshotOf p = { photo := none, output := none } := snapshotOf_restartSnapshots ..

end Sys2Proof.Machine
end

section
/-! SUPPORT. The holds and pending marks say what they should, class by class (R149, R152). -/

namespace Sys2Proof.Machine

/-! ## Class numbers -/

theorem photometryClass_inj {p q : Fin 4} : photometryClass p = photometryClass q ↔ p = q := by revert p q; decide
theorem emergencyClass_inj {p q : Fin 4} : emergencyClass p = emergencyClass q ↔ p = q := by revert p q; decide
theorem stageShortClass_inj {p q : Fin 4} : stageShortClass p = stageShortClass q ↔ p = q := by revert p q; decide
theorem strayClass_inj {l k : Line} : strayClass l = strayClass k ↔ l = k := by cases l <;> cases k <;> decide

theorem photometryClass_ne_emergencyClass (p q : Fin 4) : photometryClass p ≠ emergencyClass q := by revert p q; decide
theorem photometryClass_ne_stageShortClass (p q : Fin 4) : photometryClass p ≠ stageShortClass q := by revert p q; decide
theorem emergencyClass_ne_stageShortClass (p q : Fin 4) : emergencyClass p ≠ stageShortClass q := by revert p q; decide

theorem strayClass_ne_photometryClass (l : Line) (p : Fin 4) : strayClass l ≠ photometryClass p := by
  revert p; cases l <;> decide

theorem strayClass_ne_emergencyClass (l : Line) (p : Fin 4) : strayClass l ≠ emergencyClass p := by
  revert p; cases l <;> decide

theorem strayClass_ne_stageShortClass (l : Line) (p : Fin 4) : strayClass l ≠ stageShortClass p := by
  revert p; cases l <;> decide

theorem condition_class_cases {c : Fin 32} (h : isCondition c = true) :
    (∃ p, c = photometryClass p) ∨ (∃ p, c = emergencyClass p) ∨ (∃ p, c = stageShortClass p) ∨ ∃ l, c = strayClass l := by
  have hc : ∀ c : Fin 32, isCondition c = true → (∃ p, c = photometryClass p) ∨ (∃ p, c = emergencyClass p)
      ∨ (∃ p, c = stageShortClass p) ∨ c = strayClass .a ∨ c = strayClass .b := by decide
  obtain h | h | h | h | h := hc c h
  · exact .inl h
  · exact .inr (.inl h)
  · exact .inr (.inr (.inl h))
  · exact .inr (.inr (.inr ⟨.a, h⟩))
  · exact .inr (.inr (.inr ⟨.b, h⟩))

theorem isCondition_photometryClass (p : Fin 4) : isCondition (photometryClass p) = true := by revert p; decide
theorem isCondition_emergencyClass (p : Fin 4) : isCondition (emergencyClass p) = true := by revert p; decide
theorem isCondition_stageShortClass (p : Fin 4) : isCondition (stageShortClass p) = true := by revert p; decide
theorem isCondition_strayClass (l : Line) : isCondition (strayClass l) = true := by cases l <;> decide
theorem isCondition_sweepDoneClass (p : Fin 4) : isCondition (sweepDoneClass p) = false := by revert p; decide
theorem isCondition_meterLostClass (p : Fin 4) : isCondition (meterLostClass p) = false := by revert p; decide
theorem isCondition_modeSettledClass (p : Fin 4) : isCondition (modeSettledClass p) = false := by revert p; decide
theorem isCondition_lineEventClass (l : Line) (e : LineEvent) : isCondition (lineEventClass l e) = false := by
  cases l <;> cases e <;> decide

/-! ## What each condition class says -/

/-- The condition that a class stands for; an event class stands for none. -/
def ConditionHolds (s : State) (c : Fin 32) : Prop :=
  (∃ p, c = photometryClass p ∧ (s.portal p).condition = .fallback)
    ∨ (∃ p, c = emergencyClass p ∧ (s.portal p).mode = .emergency)
    ∨ (∃ p, c = stageShortClass p ∧ shortHolds s p = true)
    ∨ ∃ l, c = strayClass l ∧ (s.line l).strays ≠ []

theorem conditionHolds_photometry {s : State} {p : Fin 4} :
    ConditionHolds s (photometryClass p) ↔ (s.portal p).condition = .fallback := by
  simp [ConditionHolds, photometryClass_inj, photometryClass_ne_emergencyClass, photometryClass_ne_stageShortClass,
    (strayClass_ne_photometryClass _ _).symm]

theorem conditionHolds_emergency {s : State} {p : Fin 4} :
    ConditionHolds s (emergencyClass p) ↔ (s.portal p).mode = .emergency := by
  simp [ConditionHolds, emergencyClass_inj, (photometryClass_ne_emergencyClass _ _).symm,
    emergencyClass_ne_stageShortClass, (strayClass_ne_emergencyClass _ _).symm]

theorem conditionHolds_stageShort {s : State} {p : Fin 4} :
    ConditionHolds s (stageShortClass p) ↔ shortHolds s p = true := by
  simp [ConditionHolds, stageShortClass_inj, (photometryClass_ne_stageShortClass _ _).symm,
    (emergencyClass_ne_stageShortClass _ _).symm, (strayClass_ne_stageShortClass _ _).symm]

theorem conditionHolds_stray {s : State} {l : Line} : ConditionHolds s (strayClass l) ↔ (s.line l).strays ≠ [] := by
  simp [ConditionHolds, strayClass_inj, strayClass_ne_photometryClass, strayClass_ne_emergencyClass,
    strayClass_ne_stageShortClass]

theorem not_conditionHolds_of_event {s : State} {c : Fin 32} (h : isCondition c = false) : ¬ ConditionHolds s c := by
  rintro (⟨p, rfl, -⟩ | ⟨p, rfl, -⟩ | ⟨p, rfl, -⟩ | ⟨l, rfl, -⟩)
  · simp [isCondition_photometryClass] at h
  · simp [isCondition_emergencyClass] at h
  · simp [isCondition_stageShortClass] at h
  · simp [isCondition_strayClass] at h

/-- What a class stands for is the same where what it looks at is. -/
theorem conditionHolds_congr {s t : State} {c : Fin 32}
    (hphotometry : ∀ p, c = photometryClass p → ((t.portal p).condition = .fallback ↔ (s.portal p).condition = .fallback))
    (hemergency : ∀ p, c = emergencyClass p → ((t.portal p).mode = .emergency ↔ (s.portal p).mode = .emergency))
    (hshort : ∀ p, c = stageShortClass p → shortHolds t p = shortHolds s p)
    (hstray : ∀ l, c = strayClass l → ((t.line l).strays ≠ [] ↔ (s.line l).strays ≠ [])) :
    ConditionHolds t c ↔ ConditionHolds s c := by
  cases hc : isCondition c
  · exact iff_of_false (not_conditionHolds_of_event hc) (not_conditionHolds_of_event hc)
  · obtain ⟨p, rfl⟩ | ⟨p, rfl⟩ | ⟨p, rfl⟩ | ⟨l, rfl⟩ := condition_class_cases hc
    · rw [conditionHolds_photometry, conditionHolds_photometry]; exact hphotometry p rfl
    · rw [conditionHolds_emergency, conditionHolds_emergency]; exact hemergency p rfl
    · rw [conditionHolds_stageShort, conditionHolds_stageShort, hshort p rfl]
    · rw [conditionHolds_stray, conditionHolds_stray]; exact hstray l rfl

theorem conditionHolds_setNoticeClass (s : State) (k : Fin 32) (x : NoticeClass) (c : Fin 32) :
    ConditionHolds (s.setNoticeClass k x) c ↔ ConditionHolds s c := Iff.rfl

/-- What is true of the portal written and of each other portal is true of all portals. -/
theorem State.portal_setPortal_induction (s : State) {p : Fin 4} {y : Portal} {P : Fin 4 → Portal → Prop} (hself : P p y)
    (hother : ∀ q, q ≠ p → P q (s.portal q)) (q : Fin 4) : P q ((s.setPortal p y).portal q) := by
  by_cases hq : q = p
  · subst hq; rwa [State.portal_setPortal_self]
  · rw [State.portal_setPortal_of_ne s p y q hq]; exact hother q hq

/-! ## The law, but for classes that are about to be handed over -/

/-- MarksLaw, class by class, but that the holds marks of some classes are yet to be set. -/
structure MarksBut (off : List (Fin 32)) (s : State) : Prop where
  holds : ∀ c, c ∉ off → ((s.noticeClass c).holds = true ↔ ConditionHolds s c)
  pends : ∀ c, isCondition c = true → (s.noticeClass c).pending = true → (s.noticeClass c).holds = true
  result : ∀ p, (s.portal p).stageShort = (s.noticeClass (stageShortClass p)).holds

theorem marksLaw_iff {s : State} : MarksLaw s ↔ MarksBut [] s := by
  constructor
  · rintro ⟨hportals, hlines, hclasses⟩
    refine ⟨fun c _ => ?_, fun c => (hclasses c).2, fun p => ?_⟩
    · cases hc : isCondition c
      · simp [(hclasses c).1 hc, not_conditionHolds_of_event hc]
      · obtain ⟨p, rfl⟩ | ⟨p, rfl⟩ | ⟨p, rfl⟩ | ⟨l, rfl⟩ := condition_class_cases hc
        · rw [conditionHolds_photometry]; exact (hportals p).1
        · rw [conditionHolds_emergency]; exact (hportals p).2.1
        · rw [conditionHolds_stageShort, (hportals p).2.2.1]
        · rw [conditionHolds_stray]; exact hlines l
    · obtain ⟨-, -, hshort, hresult⟩ := hportals p
      rw [hresult, hshort]
  · rintro ⟨hholds, hpends, hresult⟩
    have hshort : ∀ p, (s.noticeClass (stageShortClass p)).holds = shortHolds s p := fun p => by
      rw [Bool.eq_iff_iff, ← conditionHolds_stageShort]
      exact hholds _ List.not_mem_nil
    refine ⟨fun p => ⟨?_, ?_, hshort p, (hresult p).trans (hshort p)⟩, fun l => ?_, fun c => ⟨fun hc => ?_, hpends c⟩⟩
    · rw [← conditionHolds_photometry]; exact hholds _ List.not_mem_nil
    · rw [← conditionHolds_emergency]; exact hholds _ List.not_mem_nil
    · rw [← conditionHolds_stray]; exact hholds _ List.not_mem_nil
    · have hnot := mt (hholds c List.not_mem_nil).1 (not_conditionHolds_of_event hc)
      simpa using hnot

namespace MarksBut

variable {off : List (Fin 32)} {s t : State}

theorem mono (h : MarksBut off s) {more : List (Fin 32)} (hsub : ∀ c ∈ off, c ∈ more) : MarksBut more s :=
  ⟨fun c hc => h.holds c fun hoff => hc (hsub c hoff), h.pends, h.result⟩

/-- What neither hands a condition over nor changes one that is not about to be handed over. -/
theorem frame {more : List (Fin 32)} (h : MarksBut off s) (hsub : ∀ c ∈ off, c ∈ more)
    (hholds : ∀ c, (t.noticeClass c).holds = (s.noticeClass c).holds)
    (hpends : ∀ c, isCondition c = true → (t.noticeClass c).pending = true → (s.noticeClass c).holds = true)
    (hresult : ∀ p, (t.portal p).stageShort = (s.portal p).stageShort)
    (hcondition : ∀ c, c ∉ more → (ConditionHolds t c ↔ ConditionHolds s c)) : MarksBut more t := by
  refine ⟨fun c hc => ?_, fun c hc hp => ?_, fun p => ?_⟩
  · rw [hholds, hcondition c hc]; exact h.holds c fun hoff => hc (hsub c hoff)
  · rw [hholds]; exact hpends c hc hp
  · rw [hholds, hresult]; exact h.result p

theorem setPortal (h : MarksBut off s) {more : List (Fin 32)} (hsub : ∀ c ∈ off, c ∈ more) (p : Fin 4) (y : Portal)
    (hresult : y.stageShort = (s.portal p).stageShort)
    (hphotometry : photometryClass p ∉ more → (y.condition = .fallback ↔ (s.portal p).condition = .fallback))
    (hemergency : emergencyClass p ∉ more → (y.mode = .emergency ↔ (s.portal p).mode = .emergency))
    (hshort : stageShortClass p ∉ more → y.active = (s.portal p).active ∧ y.lf = (s.portal p).lf) :
    MarksBut more (s.setPortal p y) := by
  have hresult := s.portal_setPortal_induction (p := p) (y := y) (P := fun q x => x.stageShort = (s.portal q).stageShort)
    hresult fun _ _ => rfl
  have hphotometry := s.portal_setPortal_induction (p := p) (y := y)
    (P := fun q x => photometryClass q ∉ more → (x.condition = .fallback ↔ (s.portal q).condition = .fallback))
    hphotometry fun _ _ _ => Iff.rfl
  have hemergency := s.portal_setPortal_induction (p := p) (y := y)
    (P := fun q x => emergencyClass q ∉ more → (x.mode = .emergency ↔ (s.portal q).mode = .emergency))
    hemergency fun _ _ _ => Iff.rfl
  have hshort := s.portal_setPortal_induction (p := p) (y := y)
    (P := fun q x => stageShortClass q ∉ more → x.active = (s.portal q).active ∧ x.lf = (s.portal q).lf)
    hshort fun _ _ _ => ⟨rfl, rfl⟩
  refine h.frame hsub (fun _ => rfl) h.pends hresult fun c hc =>
    conditionHolds_congr (fun q e => hphotometry q (e ▸ hc)) (fun q e => hemergency q (e ▸ hc))
      (fun q e => ?_) fun l _ => by rw [State.setPortal_line]
  obtain ⟨hactive, hlf⟩ := hshort q (e ▸ hc)
  exact shortHolds_congr q rfl hactive hlf

end MarksBut

end Sys2Proof.Machine
end

section
/-! SUPPORT. The notice marks through each operation of the other units (R10, R16, R31, R51, R53, R143, R152). -/

namespace Sys2Proof.Machine

theorem handCondition_eq (c : Fin 32) (b : Bool) (s : State) :
    handCondition c b s = s.setNoticeClass c { s.noticeClass c with
      holds := b, pending := b && ((s.noticeClass c).pending || !(s.noticeClass c).holds) } := by
  cases b
  · rfl
  · exact handTrue_cases c s

theorem RunMode.mode_ne_emergency (m : RunMode) : m.mode ≠ .emergency := by cases m <;> nofun

theorem ReturnMode.mode_ne_emergency (m : ReturnMode) : m.mode ≠ .emergency := by cases m <;> nofun

theorem RunMode.mode_ne_halted (m : RunMode) : m.mode ≠ .halted := by cases m <;> nofun

/-- What a class stands for is found in three tables. -/
theorem reads_conditionHolds (c : Fin 32) : Reads [.portals, .plans, .lines] fun s => ConditionHolds s c := by
  intro s t _ _ hsame h
  have hportals : t.portals = s.portals := hsame .portals (by decide)
  have hplans : t.plans = s.plans := hsame .plans (by decide)
  have hlines : (t.lineA, t.lineB) = (s.lineA, s.lineB) := hsame .lines (by decide)
  have hportal : ∀ p, t.portal p = s.portal p := fun p => congrArg (·[p]) hportals
  have hplan : ∀ p, t.plan p = s.plan p := fun p => congrArg (·[p]) hplans
  have hline : ∀ l, t.line l = s.line l := fun l => by
    cases l
    · exact congrArg Prod.fst hlines
    · exact congrArg Prod.snd hlines
  exact (conditionHolds_congr (fun p _ => by rw [hportal]) (fun p _ => by rw [hportal])
    (fun p _ => shortHolds_congr p (hplan p) (by rw [hportal]) (by rw [hportal])) fun l _ => by rw [hline]).2 h

namespace MarksBut

variable {off : List (Fin 32)} {s t : State}

theorem onlySweeps (h : MarksBut off s) (ht : OnlySweeps s t) : MarksBut off t := by
  have hplan : ∀ p, t.plan p = s.plan p := fun p => congrArg (·[p]) ht.plans
  refine h.frame (fun _ hc => hc) (fun c => by rw [ht.noticeClass]) (fun c hc hp => ?_) (fun p => by rw [ht.portal])
    fun c _ => conditionHolds_congr (fun p _ => by rw [ht.portal]) (fun p _ => by rw [ht.portal])
      (fun p _ => shortHolds_congr p (hplan p) (by rw [ht.portal]) (by rw [ht.portal])) fun l _ => by rw [ht.line]
  rw [ht.noticeClass_eq fun p e => by rw [e, isCondition_sweepDoneClass] at hc; cases hc] at hp
  exact h.pends c hc hp

/-- The marks of one class are written, with its holds mark as it was. -/
theorem setPending (h : MarksBut off s) (c : Fin 32) {y : NoticeClass} (hholds : y.holds = (s.noticeClass c).holds)
    (hpends : isCondition c = true → y.pending = true → (s.noticeClass c).holds = true) :
    MarksBut off (s.setNoticeClass c y) := by
  refine h.frame (fun _ hk => hk) (fun k => ?_) (fun k hk hp => ?_) (fun _ => rfl) fun k _ =>
    conditionHolds_setNoticeClass s c y k
  · by_cases e : k = c
    · subst e; rw [State.noticeClass_setNoticeClass_self, hholds]
    · rw [State.noticeClass_setNoticeClass_of_ne s c y k e]
  · by_cases e : k = c
    · subst e; rw [State.noticeClass_setNoticeClass_self] at hp; exact hpends hk hp
    · rw [State.noticeClass_setNoticeClass_of_ne s c y k e] at hp; exact h.pends k hk hp

theorem handEvent (h : MarksBut off s) {c : Fin 32} (hc : isCondition c = false) : MarksBut off (handEvent c s) :=
  h.setPending c rfl fun hk => by rw [hc] at hk; cases hk

theorem hand (h : MarksBut (c :: off) s) {b : Bool} (hb : b = true ↔ ConditionHolds s c)
    (hc : ∀ p, c ≠ stageShortClass p) : MarksBut off (handCondition c b s) := by
  rw [handCondition_eq]
  refine ⟨fun k hk => ?_, fun k hk hp => ?_, fun p => ?_⟩
  · rw [conditionHolds_setNoticeClass]
    by_cases e : k = c
    · subst e; rw [State.noticeClass_setNoticeClass_self]; exact hb
    · rw [State.noticeClass_setNoticeClass_of_ne _ _ _ k e]
      exact h.holds k fun hmem => (List.mem_cons.1 hmem).elim e hk
  · by_cases e : k = c
    · subst e
      rw [State.noticeClass_setNoticeClass_self] at hp ⊢
      exact (Bool.and_eq_true .. ▸ hp).1
    · rw [State.noticeClass_setNoticeClass_of_ne _ _ _ k e] at hp ⊢
      exact h.pends k hk hp
  · rw [State.noticeClass_setNoticeClass_of_ne _ _ _ _ (hc p).symm]
    exact h.result p

/-- R31: the evaluation of STAGE_SHORT, whatever has changed before it. -/
theorem settle (h : MarksBut (stageShortClass p :: off) s) : MarksBut off (evalStageShort p s) := by
  unfold evalStageShort
  dsimp only
  split
  next hsame =>
    refine ⟨fun k hk => ?_, h.pends, h.result⟩
    by_cases e : k = stageShortClass p
    · subst e; rw [conditionHolds_stageShort, ← h.result, hsame]
    · exact h.holds k fun hmem => (List.mem_cons.1 hmem).elim e hk
  next =>
    rw [handCondition_eq]
    have hkept := s.portal_setPortal_induction (p := p) (y := { s.portal p with stageShort := shortHolds s p })
      (P := fun q x => x.condition = (s.portal q).condition ∧ x.mode = (s.portal q).mode
        ∧ x.active = (s.portal q).active ∧ x.lf = (s.portal q).lf) ⟨rfl, rfl, rfl, rfl⟩ fun _ _ => ⟨rfl, rfl, rfl, rfl⟩
    have hshort := fun q => shortHolds_congr (s := s) (t := s.setPortal p { s.portal p with stageShort := shortHolds s p }) q rfl
      (hkept q).2.2.1 (hkept q).2.2.2
    refine ⟨fun k hk => ?_, fun k hk hp => ?_, fun q => ?_⟩
    · rw [conditionHolds_setNoticeClass]
      by_cases e : k = stageShortClass p
      · subst e
        rw [State.noticeClass_setNoticeClass_self, conditionHolds_stageShort, hshort]
      · rw [State.noticeClass_setNoticeClass_of_ne _ _ _ k e]
        refine (h.holds k fun hmem => (List.mem_cons.1 hmem).elim e hk).trans (conditionHolds_congr (fun q _ => ?_)
          (fun q _ => ?_) (fun q _ => (hshort q).symm) fun l _ => by rw [State.setPortal_line])
        · rw [(hkept q).1]
        · rw [(hkept q).2.1]
    · by_cases e : k = stageShortClass p
      · subst e
        rw [State.noticeClass_setNoticeClass_self] at hp ⊢
        exact (Bool.and_eq_true .. ▸ hp).1
      · rw [State.noticeClass_setNoticeClass_of_ne _ _ _ k e] at hp ⊢
        exact h.pends k hk hp
    · by_cases e : q = p
      · subst e
        rw [State.noticeClass_setNoticeClass_self, State.setNoticeClass_portal, State.portal_setPortal_self]
      · rw [State.noticeClass_setNoticeClass_of_ne _ _ _ _ (fun e' => e (stageShortClass_inj.1 e')),
          State.setNoticeClass_portal, State.portal_setPortal_of_ne _ _ _ _ e]
        exact h.result q

theorem evalOwnCondition (h : MarksBut off s) (p : Fin 4) : MarksBut off (evalOwnCondition p s) := by
  unfold Machine.evalOwnCondition
  dsimp only
  split
  · exact h
  · refine settle ?_
    have hne : ∀ q, photometryClass p ≠ stageShortClass q := photometryClass_ne_stageShortClass p
    have hmore : ∀ c ∈ off, c ∈ photometryClass p :: stageShortClass p :: off := fun c hc =>
      List.mem_cons_of_mem _ (List.mem_cons_of_mem _ hc)
    have written := h.setPortal hmore p { s.portal p with condition := conditionNow s p, lf := lfOnEntry s p (conditionNow s p) }
      rfl (fun hc => absurd List.mem_cons_self hc) (fun _ => Iff.rfl)
      fun hc => absurd (List.mem_cons_of_mem _ List.mem_cons_self) hc
    unfold handPhotometry
    split
    next hnew =>
      exact written.hand (b := true) (iff_of_true rfl (by
        rw [conditionHolds_photometry, State.portal_setPortal_self]; exact hnew)) hne
    next hnew =>
      split
      · exact written.hand (b := false) (iff_of_false nofun (by
          rw [conditionHolds_photometry, State.portal_setPortal_self]; exact hnew)) hne
      next hold =>
        exact h.setPortal (fun c hc => List.mem_cons_of_mem _ hc) p _ rfl (fun _ => iff_of_false hnew hold)
          (fun _ => Iff.rfl) fun hc => absurd List.mem_cons_self hc

theorem forEach {α : Type} {f : α → State → State} (hf : ∀ x t, MarksBut off t → MarksBut off (f x t)) (xs : List α)
    (h : MarksBut off s) : MarksBut off (forEach xs f s) :=
  forEach_induction xs h fun x _ t ht => hf x t ht

theorem evalFollowers (h : MarksBut off s) (p : Fin 4) : MarksBut off (evalFollowers p s) :=
  h.forEach (fun q _ ht => ht.evalOwnCondition q) _

theorem evalCondition (h : MarksBut off s) (p : Fin 4) : MarksBut off (evalCondition p s) := by
  unfold Machine.evalCondition
  dsimp only
  split
  · exact h.evalOwnCondition p
  · exact (h.evalOwnCondition p).evalFollowers p

theorem evalFormer (h : MarksBut off s) (former : Option MeterSite) (now : Option (Fin 4)) :
    MarksBut off (evalFormer former now s) := by
  unfold Machine.evalFormer
  split
  · exact h
  · split
    · exact h
    · exact h.evalCondition _

theorem evaluateAll (h : MarksBut off s) : MarksBut off (evaluateAll s) :=
  (h.forEach (fun p _ ht => ht.evalCondition p) _).forEach
    (fun _ _ ht => settle (ht.mono fun _ hc => List.mem_cons_of_mem _ hc)) _

theorem revise (h : MarksBut off s) (p : Fin 4) (la : Option Nat) : MarksBut off (revise p la s) := by
  unfold Machine.revise
  split
  · exact h
  · exact settle (h.setPortal (fun c hc => List.mem_cons_of_mem _ hc) p _ rfl (fun _ => Iff.rfl) (fun _ => Iff.rfl)
      fun hc => absurd List.mem_cons_self hc)

theorem reviseFollowers (h : MarksBut off s) (p : Fin 4) (la : Option Nat) :
    MarksBut off (reviseFollowers p la s) :=
  h.forEach (fun q t ht => by
    split
    · exact ht.revise q la
    · exact ht) _

theorem readingArrival (h : MarksBut off s) (p : Fin 4) : MarksBut off (readingArrival p s) := by
  have hown := h.evalOwnCondition p
  have hrevised : MarksBut off (if ((Machine.evalOwnCondition p s).portal p).condition = .live then
      Machine.revise p (approach (Machine.evalOwnCondition p s) p) (Machine.evalOwnCondition p s)
      else Machine.evalOwnCondition p s) := by
    split
    · exact hown.revise p _
    · exact hown
  unfold Machine.readingArrival
  dsimp only
  refine reviseFollowers ?_ p _
  split
  · exact hrevised
  · exact hrevised.evalFollowers p

theorem commitProfile (h : MarksBut off s) (p : Fin 4) : MarksBut off (commitProfile p s) := by
  unfold Machine.commitProfile
  split
  · exact h
  · exact settle (h.setPortal (fun c hc => List.mem_cons_of_mem _ hc) p _ rfl (fun _ => Iff.rfl) (fun _ => Iff.rfl)
      fun hc => absurd List.mem_cons_self hc)

/-- A portal is written, but for what a class stands for. -/
theorem keepPortal (h : MarksBut off s) (p : Fin 4) (y : Portal) (hshort : y.stageShort = (s.portal p).stageShort)
    (hcondition : y.condition = (s.portal p).condition)
    (hmode : y.mode = .emergency ↔ (s.portal p).mode = .emergency) (hactive : y.active = (s.portal p).active)
    (hlf : y.lf = (s.portal p).lf) : MarksBut off (s.setPortal p y) :=
  h.setPortal (fun _ hc => hc) p y hshort (fun _ => by rw [hcondition]) (fun _ => hmode) fun _ => ⟨hactive, hlf⟩

theorem enterEmergency (h : MarksBut off s) (p : Fin 4) : MarksBut off (enterEmergency p s) := by
  have written : MarksBut (emergencyClass p :: off) (s.setPortal p (s.portal p).inEmergency) :=
    h.setPortal (fun c hc => List.mem_cons_of_mem _ hc) p _ rfl (fun _ => Iff.rfl)
      (fun hc => absurd List.mem_cons_self hc) fun _ => ⟨rfl, rfl⟩
  have asked := onlySweeps_requestEmergencySweep p (s.setPortal p (s.portal p).inEmergency)
  refine handEvent ?_ (isCondition_modeSettledClass p)
  refine (written.onlySweeps asked).hand (b := true) (iff_of_true rfl ?_) (emergencyClass_ne_stageShortClass p)
  rw [conditionHolds_emergency, asked.mode, State.portal_setPortal_self]
  rfl

theorem enterAll (h : MarksBut off s) : MarksBut off (enterAll s) :=
  h.forEach (fun p t ht => by
    unfold enterIfEnabled
    split
    · exact ht.enterEmergency p
    · exact ht) _

theorem releasePortal (h : MarksBut off s) (p : Fin 4) (back : ReturnMode) : MarksBut off (releasePortal p back s) := by
  have written : MarksBut (emergencyClass p :: off) (s.setPortal p ((s.portal p).released back)) :=
    h.setPortal (fun c hc => List.mem_cons_of_mem _ hc) p _ rfl (fun _ => Iff.rfl)
      (fun hc => absurd List.mem_cons_self hc) fun _ => ⟨rfl, rfl⟩
  refine handEvent ?_ (isCondition_modeSettledClass p)
  refine written.hand (b := false) (iff_of_false nofun ?_) (emergencyClass_ne_stageShortClass p)
  rw [conditionHolds_emergency, State.portal_setPortal_self]
  exact back.mode_ne_emergency

theorem takeModeRequest (h : MarksBut off s) {p : Fin 4} (hmode : (s.portal p).mode ≠ .emergency) :
    MarksBut off (takeModeRequest p s) := by
  unfold Machine.takeModeRequest
  split
  · exact h
  next m _ =>
    refine handEvent (h.keepPortal p _ ?_ ?_ (iff_of_false m.mode_ne_emergency hmode) ?_ ?_)
      (isCondition_modeSettledClass p)
    all_goals rfl

theorem stepStages (h : MarksBut off s) (p : Fin 4) : MarksBut off (stepStages p s) := by
  unfold Machine.stepStages
  dsimp only
  split
  · exact h
  · have written := h.keepPortal p { s.portal p with levels := (s.portal p).steppedLevels } rfl rfl Iff.rfl rfl rfl
    exact written.onlySweeps (onlySweeps_requestSweep ..)

/-- A plan is written. -/
theorem writePlan (h : MarksBut off s) (p : Fin 4) (q : Option Plan) : MarksBut off (writePlan p q s) := by
  refine settle (h.frame (fun c hc => List.mem_cons_of_mem _ hc) (fun _ => rfl) h.pends (fun _ => rfl) fun c hc =>
    conditionHolds_congr (fun _ _ => Iff.rfl) (fun _ _ => Iff.rfl) (fun k e => ?_) fun l _ => by rw [State.setPlan_line])
  exact shortHolds_congr k (State.plan_setPlan_of_ne s p q k fun hk => hc (by rw [e, hk]; exact List.mem_cons_self)) rfl rfl

theorem setLine (h : MarksBut off s) {more : List (Fin 32)} (hsub : ∀ c ∈ off, c ∈ more) (l : Line) (y : LineCtl)
    (hstray : strayClass l ∉ more → (y.strays ≠ [] ↔ (s.line l).strays ≠ [])) : MarksBut more (s.setLine l y) := by
  refine h.frame hsub (fun c => by rw [State.setLine_noticeClass]) (fun c hc hp => ?_)
    (fun p => by rw [State.setLine_portal]) fun c hc => conditionHolds_congr (fun p _ => by rw [State.setLine_portal])
      (fun p _ => by rw [State.setLine_portal])
      (fun p _ => shortHolds_congr p (State.setLine_plan ..) (by rw [State.setLine_portal]) (by rw [State.setLine_portal]))
      fun k e => ?_
  · rw [State.setLine_noticeClass] at hp; exact h.pends c hc hp
  · by_cases hk : k = l
    · subst hk; rw [State.line_setLine_self]; exact hstray (e ▸ hc)
    · rw [State.line_setLine_of_ne s l k y hk]

theorem keepLine (h : MarksBut off s) (l : Line) (y : LineCtl) (hstray : y.strays = (s.line l).strays) :
    MarksBut off (s.setLine l y) := h.setLine (fun _ hc => hc) l y fun _ => by rw [hstray]

theorem removeStray (h : MarksBut off s) (l : Line) (a : Nat) : MarksBut off (removeStray l a s) := by
  unfold Machine.removeStray
  dsimp only
  split
  next hlast =>
    refine (h.setLine (fun c hc => List.mem_cons_of_mem _ hc) l _ fun hc => absurd List.mem_cons_self hc).hand
      (b := false) (iff_of_false nofun ?_) (strayClass_ne_stageShortClass l)
    rw [conditionHolds_stray, State.line_setLine_self, not_not]
    exact List.isEmpty_iff.1 hlast.1
  next hlast =>
    refine h.setLine (fun _ hc => hc) l _ fun _ => ?_
    constructor
    · rintro hkept hnone
      exact hkept (by simp [hnone])
    · intro hsome hnone
      exact hlast ⟨List.isEmpty_iff.2 hnone, by simpa using hsome⟩

theorem addStray (h : MarksBut off s) (l : Line) (a : Nat) : MarksBut off (addStray l a s) := by
  unfold Machine.addStray
  dsimp only
  split
  · refine (h.setLine (fun c hc => List.mem_cons_of_mem _ hc) l _ fun hc => absurd List.mem_cons_self hc).hand
      (b := true) (iff_of_true rfl ?_) (strayClass_ne_stageShortClass l)
    rw [conditionHolds_stray, State.line_setLine_self]
    simp
  next hsome => exact h.setLine (fun _ hc => hc) l _ fun _ => iff_of_true (by simp) (by simpa using hsome)

end MarksBut

end Sys2Proof.Machine
end

section
/-! SUPPORT. The laws of reset, of the port, of the in-service stack and of the notice marks are kept by every step. -/

namespace Sys2Proof.Machine

theorem reads_marksBut (off : List (Fin 32)) : Reads [.portals, .plans, .lines, .notices] (MarksBut off) := by
  intro s t hr hst hsame h
  have hmarks : t.notices.marks = s.notices.marks := hsame .notices (by decide)
  have hmark : ∀ c, (t.noticeClass c).pending = (s.noticeClass c).pending
      ∧ (t.noticeClass c).holds = (s.noticeClass c).holds := fun c => by
    have hc := congrArg (·[c]) hmarks
    simp only [Notices.marks, Fin.getElem_fin, Vector.getElem_map] at hc
    exact ⟨congrArg Prod.fst hc, congrArg Prod.snd hc⟩
  have hportals : t.portals = s.portals := hsame .portals (by decide)
  have hinputs : ∀ x ∈ [Table.portals, .plans, .lines], x.Same s t := fun x hx =>
    hsame x (by revert x hx; decide)
  have hback : ∀ x ∈ [Table.portals, .plans, .lines], x.Same t s := fun x hx => by
    have := hinputs x hx
    cases x
    case portals | plans | lines => exact this.symm
    all_goals exact absurd hx (by decide)
  refine h.frame (fun _ hc => hc) (fun c => (hmark c).2) (fun c hc hp => h.pends c hc ((hmark c).1 ▸ hp))
    (fun p => by rw [State.portal, State.portal, hportals]) fun c _ =>
    ⟨fun ht => reads_conditionHolds c t s hr.symm hst.symm hback ht, fun hs => reads_conditionHolds c s t hr hst hinputs hs⟩

namespace MarksBut

variable {off : List (Fin 32)} {s t : State} {ts : List Table}

theorem writes (h : MarksBut off s) (hw : Writes ts s t)
    (hd : ¬ ∃ x ∈ ts, x ∈ [Table.portals, .plans, .lines, .notices] := by decide) : MarksBut off t :=
  (reads_marksBut off).keeps hw hd h

theorem settings (h : MarksBut off s) (hw : Writes [.settings] s t) : MarksBut off t := h.writes hw

theorem setRecord (h : MarksBut off s) (n : Nat) (r : Record) : MarksBut off (s.setRecord n r) :=
  h.writes (.of_setRecord (ts := [.roster]) s n r)

theorem setMeter (h : MarksBut off s) (m : Fin 8) (x : Meter) : MarksBut off (s.setMeter m x) :=
  h.writes (.of_setMeter (ts := [.meters]) s m x)

end MarksBut

/-- RESTART clears every mark, and no condition holds before the evaluations (R158). -/
theorem marksBut_restartValues (s : State) : MarksBut [] (restartValues s) := by
  refine ⟨fun c _ => ?_, fun c _ hp => ?_, fun p => ?_⟩
  · rw [noticeClass_restartValues]
    refine iff_of_false nofun ?_
    rintro (⟨p, -, h⟩ | ⟨p, -, h⟩ | ⟨p, -, h⟩ | ⟨l, -, h⟩)
    · rw [portal_restartValues] at h; cases h
    · rw [portal_restartValues] at h; cases h
    · simp [shortHolds, Portal.stageIsShort, portal_restartValues, Portal.restarted] at h
    · rw [line_restartValues] at h; exact h rfl
  · rw [noticeClass_restartValues] at hp; cases hp
  · rw [noticeClass_restartValues, portal_restartValues]; rfl

theorem marksBut_reset : MarksBut [] State.reset := by
  refine ⟨fun c _ => ?_, fun c _ hp => ?_, by decide⟩
  · have hholds : (State.reset.noticeClass c).holds = false := by revert c; decide
    rw [hholds]
    refine iff_of_false nofun ?_
    rintro (⟨p, -, h⟩ | ⟨p, -, h⟩ | ⟨p, -, h⟩ | ⟨l, -, h⟩)
    · revert p; decide
    · revert p; decide
    · revert p; decide
    · cases l <;> exact h rfl
  · have hpending : (State.reset.noticeClass c).pending = false := by revert c; decide
    rw [hpending] at hp; cases hp

theorem writes_stack (s : State) (stack : List StackEntry) :
    Writes [.settings] s { s with notices := { s.notices with stack := stack } } :=
  ⟨⟨rfl, rfl, rfl, rfl⟩, fun x hx => by
    cases x
    case settings => exact absurd (by decide) hx
    all_goals rfl⟩

/-! ## Portals after a commit (R23) -/

theorem portal_evalStageShort (p q : Fin 4) (s : State) :
    (evalStageShort p s).portal q = { s.portal q with stageShort := ((evalStageShort p s).portal q).stageShort } := by
  obtain ⟨b, x, h, -⟩ := onlyStageShort_evalStageShort p s
  have hportal : (evalStageShort p s).portal q = (s.setPortal p { s.portal p with stageShort := b }).portal q := by
    rw [h]; rfl
  rw [hportal]
  exact s.portal_setPortal_induction (P := fun q x => x = { s.portal q with stageShort := x.stageShort }) rfl
    (fun _ _ => rfl) q

theorem portal_evalStageShort_of_ne {p q : Fin 4} (h : q ≠ p) (s : State) :
    (evalStageShort p s).portal q = s.portal q := by
  obtain ⟨b, x, ht, -⟩ := onlyStageShort_evalStageShort p s
  rw [ht]
  exact State.portal_setPortal_of_ne s p { s.portal p with stageShort := b } q h

theorem portal_commitProfile (p : Fin 4) (s : State) :
    (commitProfile p s).portal p = { s.portal p with
      active := (s.portal p).pendingProfile.getD (s.portal p).active, pendingProfile := none,
      stageShort := ((commitProfile p s).portal p).stageShort } := by
  unfold commitProfile
  split
  next h =>
    have hportal : s.portal p = { s.portal p with pendingProfile := none } := by rw [← h]
    rw [h]; exact hportal
  next v h => rw [h, portal_evalStageShort, State.portal_setPortal_self]; rfl

theorem portal_commitProfile_of_ne {p q : Fin 4} (h : q ≠ p) (s : State) :
    (commitProfile p s).portal q = s.portal q := by
  unfold commitProfile
  split
  · rfl
  · exact (portal_evalStageShort_of_ne h _).trans (State.portal_setPortal_of_ne _ _ _ _ h)

/-! ## Host commands -/

theorem marksBut_couple {s : State} (h : MarksBut [] s) (p : Fin 4) (leader : Option (Fin 4)) :
    MarksBut [] (couple p leader s) := by
  unfold couple
  split
  · exact h
  · exact (h.keepPortal p { s.portal p with leader := leader } rfl rfl Iff.rfl rfl rfl).evalCondition p

theorem marksBut_startPortal {s : State} (h : MarksBut [] s) {p : Fin 4} (hmode : (s.portal p).mode ≠ .emergency)
    (m : RunMode) : MarksBut [] (startPortal p m s) := by
  have hkept : ((commitProfile p s).portal p).mode = (s.portal p).mode := by rw [portal_commitProfile]
  have started := (h.commitProfile p).keepPortal p (((commitProfile p s).portal p).started m) rfl rfl
    (iff_of_false m.mode_ne_emergency (hkept ▸ hmode)) rfl rfl
  exact started.onlySweeps (onlySweeps_requestSweep ..)

theorem marksBut_haltPortal {s : State} (h : MarksBut [] s) {p : Fin 4} (hmode : (s.portal p).mode ≠ .emergency) :
    MarksBut [] (haltPortal p s) := by
  have halted := h.keepPortal p
    { s.portal p with mode := .halted, rampTimer := none, refreshTimer := none, pendingMode := none } rfl rfl
    (iff_of_false nofun hmode) rfl rfl
  exact halted.onlySweeps (onlySweeps_abandonSweep ..)

theorem marksBut_fillSlot {s : State} (h : MarksBut [] s) (x : Admission) (capability : Option Bool) (lmin : Nat) :
    MarksBut [] (fillSlot x capability lmin s) := by
  have written := (h.setRecord x.slot (admittedRecord x capability lmin)).removeStray x.place.line x.place.address
  have filled : MarksBut [] (removeIgnored x.place.line x.place.address
      (removeStray x.place.line x.place.address (s.setRecord x.slot (admittedRecord x capability lmin)))) :=
    written.keepLine x.place.line _ rfl
  exact (filled.onlySweeps (onlySweeps_requestForSlot ..)).onlySweeps (onlySweeps_settleSweeps _)

theorem marksBut_retireRecord {s : State} (h : MarksBut [] s) (n : Nat) (q : Place) :
    MarksBut [] (retireRecord n q s) := by
  have retired := (h.setRecord n { s.record n with state := .retiring }).keepLine q.line
    (retiredLine (s.line q.line) q.address) (by rw [State.setRecord_line]; rfl)
  exact (retired.onlySweeps (onlySweeps_requestForSlot ..)).onlySweeps (onlySweeps_settleSweeps _)

theorem marksBut_rejectStray {s : State} (h : MarksBut [] s) (l : Line) (a : Nat) : MarksBut [] (rejectStray l a s) :=
  (h.removeStray l a).keepLine l _ rfl

theorem marksBut_applyLimit {s : State} (h : MarksBut [] s) (l : Line) (limit : Nat) :
    MarksBut [] (applyLimit l limit s) := by
  have written := (h.keepLine l { s.line l with missLimit := limit } rfl).forEach
    (fun n t ht => ht.setRecord n (limited limit (t.record n))) (slotsOfLine s l)
  unfold applyLimit
  dsimp only
  refine MarksBut.onlySweeps (MarksBut.onlySweeps ?_ (OnlySweeps.forEach _ onlySweeps_requestForSlot _))
    (onlySweeps_settleSweeps _)
  split
  · exact written
  · exact written.handEvent (isCondition_lineEventClass ..)

theorem marksBut_command {s t : State} {ts : List Table} (h : MarksBut [] s) (heffect : CommandEffect s ts t)
    (htouched : ∃ x ∈ ts, x ∈ [Table.portals, .plans, .lines, .notices]) : MarksBut [] t := by
  cases heffect
  case restart =>
    unfold examineEmergN
    split
    · exact (marksBut_restartValues s).evaluateAll.enterAll
    · exact (marksBut_restartValues s).evaluateAll
  case removeMeter m => exact (h.setMeter m _).evalFormer _ _
  case configureMeter m address p _ _ _ => exact ((h.setMeter m _).evalFormer _ _).evalCondition p
  case setProfile p v _ =>
    exact h.keepPortal p { s.portal p with pendingProfile := some v } rfl rfl Iff.rfl rfl rfl
  case setProfileAtOnce p v _ =>
    exact (h.keepPortal p { s.portal p with pendingProfile := some v } rfl rfl Iff.rfl rfl rfl).commitProfile p
  case start p m hmode => exact marksBut_startPortal h (by rw [hmode]; nofun) m
  case halt p hmode => exact marksBut_haltPortal h fun e => by rw [e] at hmode; exact hmode.elim nofun nofun
  case setRamp p r _ _ _ _ _ => exact h.keepPortal p { s.portal p with ramp := r } rfl rfl Iff.rfl rfl rfl
  case requestMode p m _ =>
    unfold Portal.requested
    split
    · exact h.keepPortal p { s.portal p with returnMode := some m.returnMode } rfl rfl Iff.rfl rfl rfl
    split
    · exact h.keepPortal p { s.portal p with pendingMode := none } rfl rfl Iff.rfl rfl rfl
    · exact h.keepPortal p { s.portal p with pendingMode := some m } rfl rfl Iff.rfl rfl rfl
  case setStageLevel p i level _ _ =>
    exact h.keepPortal p { s.portal p with manual := (s.portal p).manual.set i level } rfl rfl Iff.rfl rfl rfl
  case uncouple p => exact marksBut_couple h p none
  case couple p q _ => exact marksBut_couple h p (some q)
  case setEmergencyEnable p on =>
    exact h.keepPortal p { s.portal p with emergencyEnable := on } rfl rfl Iff.rfl rfl rfl
  case enableInEmergency p _ _ =>
    exact (h.keepPortal p { s.portal p with emergencyEnable := true } rfl rfl Iff.rfl rfl rfl).enterEmergency p
  case release p _ _ => exact h.releasePortal p _
  case removePlan p _ _ => exact h.writePlan p none
  case setPlan p q _ _ _ _ => exact h.writePlan p (some q)
  case admission x capability lmin _ _ => exact marksBut_fillSlot h x capability lmin
  case amendAsking n x m o pinned uid _ => exact (h.setRecord n _).onlySweeps (onlySweeps_requestForSlot ..)
  case move n k _ _ _ _ _ _ =>
    exact (((h.setRecord k _).setRecord n _).onlySweeps (onlySweeps_requestForMove ..)).onlySweeps
      (onlySweeps_settleSweeps _)
  case retire n q _ _ _ _ _ => exact marksBut_retireRecord h n q
  case clearFault n _ _ _ =>
    unfold clearFaultOf
    dsimp only
    split
    · exact ((h.setRecord n _).onlySweeps (onlySweeps_requestForSlot ..)).onlySweeps (onlySweeps_settleSweeps _)
    · exact h.setRecord n _
  case resweep p _ => exact h.onlySweeps (onlySweeps_requestSweep ..)
  case setLine l limit _ _ => exact marksBut_applyLimit h l limit
  case rejectStray l a _ _ _ => exact marksBut_rejectStray h l a
  case clearIgnore l _ => exact h.keepLine l _ rfl
  case takeNotice c _ =>
    have taken := h.setPending c (y := { s.noticeClass c with pending := false }) rfl fun _ => nofun
    unfold takenNotice
    dsimp only
    split
    · exact taken
    · exact taken.settings (writes_stack ..)
  case finishNotice e rest _ =>
    have popped : MarksBut [] { s with notices := { s.notices with stack := rest } } := h.settings (writes_stack ..)
    unfold finishedNotice
    dsimp only
    split
    next hagain => exact popped.setPending e.cls rfl fun _ _ => hagain.2
    · exact popped
  all_goals exact absurd htouched (by decide)

/-! ## Events -/

theorem marksBut_rampPhases {s : State} (h : MarksBut [] s) {p : Fin 4} (hmode : (s.portal p).mode ≠ .emergency) :
    MarksBut [] (rampPhases p s) := by
  have timed := h.keepPortal p { s.portal p with rampTimer := some (s.portal p).ramp.steps } rfl rfl Iff.rfl rfl rfl
  refine (timed.commitProfile p).takeModeRequest (p := p) ?_ |>.stepStages p
  rwa [portal_commitProfile, State.portal_setPortal_self]

theorem Portal.mode_of_running {x : Portal} (h : x.running = true) : x.mode = .auto ∨ x.mode = .manual := by
  unfold Portal.running at h
  split at h
  next hm => exact .inl hm
  next hm => exact .inr hm
  · cases h
  · cases h

theorem Portal.mode_ne_emergency_of_running {x : Portal} (h : x.running = true) : x.mode ≠ .emergency := by
  obtain hm | hm := Portal.mode_of_running h <;> rw [hm] <;> nofun

theorem marksBut_rampExpired {s : State} (h : MarksBut [] s) (p : Fin 4) : MarksBut [] (rampExpired p s) := by
  unfold rampExpired
  split
  next hruns =>
    refine (marksBut_rampPhases h (Portal.mode_ne_emergency_of_running hruns.2)).forEach (fun q t ht => ?_) _
    unfold followerExpiry
    split
    next hq => exact marksBut_rampPhases ht (Portal.mode_ne_emergency_of_running hq)
    · exact ht
  · exact h

theorem marksBut_holdExpired {s : State} (h : MarksBut [] s) (m : Fin 8) : MarksBut [] (holdExpired m s) := by
  unfold holdExpired
  dsimp only
  split
  next q _ _ =>
    split
    · exact ((h.setMeter m _).handEvent (isCondition_meterLostClass q.portal)).evalCondition q.portal
    · exact h
  · exact h

theorem marksBut_applyPoll {s : State} (h : MarksBut [] s) (a : Nat) (result : Option (MeterStatus × Nat)) :
    MarksBut [] (applyPoll a result s) := by
  unfold applyPoll
  split
  · exact h
  next m _ =>
    split
    · exact (h.setMeter m _).readingArrival _
    · exact h.setMeter m _
    · exact h.setMeter m _

theorem marksBut_commitApplied {s : State} (h : MarksBut [] s) (l : Line) (n : Nat) (a : Applied) :
    MarksBut [] (commitApplied l n a s) := by
  have noticed := (h.setRecord n a.record).forEach
    (fun e t ht => ht.handEvent (isCondition_lineEventClass l e)) a.events
  unfold commitApplied
  dsimp only
  split
  · exact noticed.onlySweeps (onlySweeps_requestForSlot ..)
  · exact noticed

theorem marksBut_strayIdent {s : State} (h : MarksBut [] s) (l : Line) (a : Nat) (reply : Option DriverReply) :
    MarksBut [] (strayIdent l a reply s) := by
  unfold strayIdent
  split
  · exact h.setLine (fun _ hc => hc) l _ fun _ => not_congr List.map_eq_nil_iff
  · exact h

theorem marksBut_applyResult {s : State} (h : MarksBut [] s) (l : Line) (x : Exchange) (reply : Option DriverReply) :
    MarksBut [] (applyResult l x reply s) := by
  unfold applyResult
  split
  · split
    · exact marksBut_strayIdent h l x.address reply
    · exact h
  next n _ =>
    dsimp only
    split
    · split
      · exact marksBut_commitApplied h l n _
      · exact h
    split
    · exact h
    split
    · exact (marksBut_commitApplied h l n _).keepLine l _ rfl
    · exact marksBut_commitApplied h l n _

theorem marksBut_takeRequest {s : State} (h : MarksBut [] s) (l : Line) (q : Option Request) :
    MarksBut [] (takeRequest l q s) := by
  unfold takeRequest
  split
  · exact h
  next a =>
    unfold takeJoin
    split
    · split
      · exact h
      · exact h.keepLine l _ rfl
    split
    · exact h
    split
    · exact h.keepLine l _ rfl
    split
    · exact (h.addStray l a).keepLine l _ rfl
    · exact h
  next a => exact h.removeStray l a
  next a =>
    unfold takeNews
    split
    · split
      · exact h
      · exact h.keepLine l _ rfl
    · exact h
  · exact h.keepLine l _ rfl

theorem marksBut_complete {s : State} (h : MarksBut [] s) (l : Line) (x : Exchange) (received request : List Byte) :
    MarksBut [] (complete l x received request s) := by
  have taken := marksBut_takeRequest (marksBut_applyResult h l x (acceptReply x.frame x.address received)) l
    (readRequest request)
  have told := taken.onlySweeps (onlySweeps_notifyOrigin l x.origin _)
  have freed : MarksBut [] (freeLine l _) := told.keepLine l _ rfl
  exact freed.onlySweeps (onlySweeps_settleSweeps _)

theorem marksBut_cursorGranted {s : State} (h : MarksBut [] s) (p : Fin 4) (l : Line) (n : Nat) :
    MarksBut [] (cursorGranted p l n s) := h.writes (writes_cursorGranted p l n s)

theorem strays_servedCursor (c : LineCtl) (cls : SweepClass) (p : Fin 4) (st : LineState) :
    (c.servedCursor cls p st).strays = c.strays := by cases cls <;> rfl

theorem marksBut_grantTo {s : State} (h : MarksBut [] s) (l : Line) (g : Grantee) : MarksBut [] (grantTo l g s) := by
  unfold grantTo
  dsimp only
  split
  next cls p n =>
    unfold grantCursor
    dsimp only
    split
    · exact marksBut_cursorGranted (h.keepLine l _ (strays_servedCursor ..)) p l n
    · refine marksBut_cursorGranted ((h.setRecord n _).keepLine l _ ?_) p l n
      rw [strays_servedCursor, State.setRecord_line]
    · exact h
  · exact h.keepLine l _ rfl
  · exact h.keepLine l _ rfl

theorem marksBut_arbiterGrant {s : State} (h : MarksBut [] s) (l : Line) : MarksBut [] (arbiterGrant l s) := by
  unfold arbiterGrant
  split
  · split
    · exact h
    · exact marksBut_grantTo h l _
  · exact h
  · exact h

theorem marksBut_event {s t : State} {ts : List Table} (h : MarksBut [] s) (heffect : EventEffect s ts t)
    (htouched : ∃ x ∈ ts, x ∈ [Table.portals, .plans, .lines, .notices]) : MarksBut [] t := by
  have ended : MarksBut [] { s with poll := none } := h.writes (writes_pollEnded s)
  cases heffect
  case emergNAssertion =>
    unfold emergNAsserted
    split
    · exact h
    · exact (h.writes (.of_emergN (ts := [.emergN]) s (s.straps.getLsbD 3))).enterAll
  case rampExpiry p => exact marksBut_rampExpired h p
  case refreshTimerExpiry p =>
    unfold refreshExpired
    split
    · exact (h.keepPortal p { s.portal p with refreshTimer := none } rfl rfl Iff.rfl rfl rfl).onlySweeps
        (onlySweeps_requestSweep ..)
    · exact h
  case holdTimerExpiry m => exact marksBut_holdExpired h m
  case pollCompletion c0 c1 c2 c3 c4 =>
    unfold Machine.pollCompletion
    split
    · exact h
    · exact marksBut_applyPoll ended _ _
  case pollWindowClose =>
    unfold Machine.pollWindowClose
    split
    · exact h
    · exact marksBut_applyPoll ended _ _
  case quietPeriodEnd l =>
    unfold quietEnded
    split
    · split
      · exact h.keepLine l _ rfl
      · exact h
    all_goals exact h
  case arbiterGrant l => exact marksBut_arbiterGrant h l
  case phase l f =>
    unfold withPhase
    split
    · exact h.keepLine l _ rfl
    all_goals exact h
  case exchangeCompletion l chars =>
    unfold Machine.exchangeCompletion
    split
    · split
      · exact marksBut_complete h l _ _ _
      all_goals exact h
    all_goals exact h
  all_goals exact absurd htouched (by decide)

/-! ## Every step -/

theorem step_row {s t : State} (h : step s = .next t) :
    t = s ∨ ∃ i rest, RowEffect i { s with pending := rest } t := by
  unfold step at h
  split at h
  · cases h
    exact .inl rfl
  next i rest _ => exact .inr ⟨i, rest, exec_rowEffect h⟩

theorem marksBut_poweredUp {s : State} (h : MarksBut [] s) (straps : BitVec 4) (pins : PinLevels) :
    MarksBut [] (poweredUp straps pins s) := by
  have sampled : MarksBut [] { s with resetN := true, straps := straps, emergN := pins.emergN } :=
    h.frame (fun _ hc => hc) (fun _ => rfl) h.pends (fun _ => rfl) fun _ _ => Iff.rfl
  unfold poweredUp examineEmergN
  split
  · exact sampled.evaluateAll.enterAll
  · exact sampled.evaluateAll

theorem step_keeps_marksLaw {s t : State} (hs : MarksLaw s) (h : step s = .next t) : MarksLaw t := by
  rw [marksLaw_iff] at hs ⊢
  exact step_keeps (P := MarksBut []) (reads_marksBut []) (fun _ => id)
    (fun _ _ hs => hs.frame (fun _ hc => hc) (fun _ => rfl) hs.pends (fun _ => rfl) fun _ _ => Iff.rfl)
    (fun _ _ _ _ hs heffect htouched => marksBut_command hs heffect htouched)
    (fun _ _ _ _ hs heffect htouched => marksBut_event hs heffect htouched)
    (fun s _ => (reads_marksBut []).asserted marksBut_reset s)
    (fun straps pins _ _ hs => (reads_marksBut []).released (marksBut_poweredUp hs straps pins)) hs h

/-- Settles O59: ResetLaw and PortLaw row by row, the stack and the marks by what each command and event writes of them. -/
theorem stepKeepsResetPortAndNoticeLaws : Obligations.StepKeepsResetPortAndNoticeLaws := by
  intro s t hreset hport hstack hmarks h
  refine ⟨?_, ?_, step_keeps_stackLaw hstack h, step_keeps_marksLaw hmarks h⟩
  · obtain rfl | ⟨i, rest, hrow⟩ := step_row h
    · exact hreset
    · exact hrow.resetLaw (hreset.of_pending rest)
  · obtain rfl | ⟨i, rest, hrow⟩ := step_row h
    · exact hport
    · exact hrow.portLaw hport

end Sys2Proof.Machine
end

section
/-! SUPPORT. What sweeps, entries into EMERGENCY and ramp phases leave in each portal (R39, R40, R51, R99). -/

namespace Sys2Proof.Machine

/-! ## Refresh timers of sweeps that start (R99) -/

/-- A portal is as it was, or its refresh timer has been started; a HALTED portal is as it was. -/
def TimersStarted (s t : State) : Prop :=
  ∀ p, t.portal p = s.portal p
    ∨ (s.portal p).mode ≠ .halted ∧ t.portal p = { s.portal p with refreshTimer := some (s.portal p).ramp.refresh }

namespace TimersStarted

theorem refl (s : State) : TimersStarted s s := fun _ => .inl rfl

theorem of_eq {s t : State} (h : t.portals = s.portals) : TimersStarted s t := fun p => .inl (congrArg (·[p]) h)

theorem trans {s t u : State} (h : TimersStarted s t) (k : TimersStarted t u) : TimersStarted s u := fun p => by
  obtain hp | ⟨hm, hp⟩ := h p
  · rw [← hp]; exact k p
  · obtain hq | ⟨-, hq⟩ := k p
    · exact .inr ⟨hm, hq.trans hp⟩
    · exact .inr ⟨hm, by rw [hq, hp]⟩

theorem forEach {α : Type} (xs : List α) {f : α → State → State} (h : ∀ x t, TimersStarted t (f x t)) (s : State) :
    TimersStarted s (forEach xs f s) :=
  forEach_induction (P := TimersStarted s) xs (.refl s) fun x _ t ht => ht.trans (h x t)

end TimersStarted

theorem timersStarted_settleCursors (p : Fin 4) (s : State) : TimersStarted s (settleCursors p s) := fun q =>
  .inl (settleCursors_portal p q s)

theorem timersStarted_beginSweep (cls : SweepClass) {p : Fin 4} {s : State} (h : (s.portal p).mode ≠ .halted) :
    TimersStarted s (beginSweep cls p s) := fun q => by
  have hportal : (beginSweep cls p s).portal q
      = (s.setPortal p { s.portal p with refreshTimer := some (s.portal p).ramp.refresh }).portal q := by
    unfold beginSweep
    dsimp only
    rw [settleCursors_portal, State.setSweep_portal]
  rw [hportal]
  by_cases hq : q = p
  · subst hq; exact .inr ⟨h, State.portal_setPortal_self ..⟩
  · exact .inl (State.portal_setPortal_of_ne _ _ _ _ hq)

theorem timersStarted_closeSweep (p : Fin 4) (s : State) : TimersStarted s (closeSweep p s) := .of_eq rfl

theorem timersStarted_startOwed (p : Fin 4) (s : State) : TimersStarted s (startOwed p s) := by
  unfold startOwed
  split
  · dsimp only
    split
    · exact .of_eq rfl
    next hm =>
      have begun : TimersStarted s (beginSweep .normal p (s.setSweep p { s.sweep p with owed := false })) :=
        TimersStarted.trans (.of_eq rfl) (timersStarted_beginSweep .normal hm)
      unfold closeIfPassed
      split
      · exact begun.trans (timersStarted_closeSweep p _)
      · exact begun
  · exact .refl s

theorem timersStarted_endIfPassed (p : Fin 4) (s : State) : TimersStarted s (endIfPassed p s) := by
  unfold endIfPassed
  split
  · exact (timersStarted_closeSweep p s).trans (timersStarted_startOwed p _)
  · exact .refl s

theorem timersStarted_requestSweep (p : Fin 4) (s : State) : TimersStarted s (requestSweep p s) := by
  unfold requestSweep
  split
  · exact .refl s
  next hm =>
    split
    · exact (timersStarted_beginSweep .normal hm).trans (timersStarted_endIfPassed p _)
    · exact .of_eq rfl

theorem timersStarted_requestEmergencySweep {p : Fin 4} {s : State} (h : (s.portal p).mode ≠ .halted) :
    TimersStarted s (requestEmergencySweep p s) := by
  unfold requestEmergencySweep
  split
  · exact (timersStarted_beginSweep .emergency h).trans (timersStarted_endIfPassed p _)
  · have begun : TimersStarted s (beginSweep .emergency p (s.setSweep p { s.sweep p with owed := false })) :=
      TimersStarted.trans (.of_eq rfl) (timersStarted_beginSweep .emergency h)
    exact begun.trans (timersStarted_endIfPassed p _)

theorem timersStarted_requestForSlot (n : Nat) (s : State) : TimersStarted s (requestForSlot n s) := by
  unfold requestForSlot
  split
  · exact .refl s
  · exact timersStarted_requestSweep _ s

theorem timersStarted_requestForMove (n k : Nat) (s : State) : TimersStarted s (requestForMove n k s) := by
  unfold requestForMove
  split
  · exact timersStarted_requestForSlot k s
  · exact (timersStarted_requestForSlot n s).trans (timersStarted_requestForSlot k _)

theorem timersStarted_settleSweeps (s : State) : TimersStarted s (settleSweeps s) :=
  .forEach _ (fun p t => (timersStarted_settleCursors p t).trans (timersStarted_endIfPassed p _)) s

theorem timersStarted_abandonSweep (p : Fin 4) (s : State) : TimersStarted s (abandonSweep p s) := by
  unfold abandonSweep
  split
  · exact .refl s
  · exact .of_eq rfl

theorem timersStarted_notifyOrigin (l : Line) (o : Origin) (s : State) : TimersStarted s (notifyOrigin l o s) := by
  unfold notifyOrigin
  split
  · unfold cursorCompleted
    split
    · exact .refl s
    · dsimp only
      split
      · exact .of_eq rfl
      · exact .of_eq rfl
      · exact .refl s
      · exact .refl s
  · exact .refl s
  · exact .refl s

/-- What writes no portal before a part that starts timers. -/
theorem TimersStarted.after {ts : List Table} {s t u : State} (hw : Writes ts s t) (h : TimersStarted t u)
    (hn : .portals ∉ ts := by decide) : TimersStarted s u := (TimersStarted.of_eq (hw.portals hn)).trans h

theorem timersStarted_requested (n : Nat) (s : State) : TimersStarted s (settleSweeps (requestForSlot n s)) :=
  (timersStarted_requestForSlot n s).trans (timersStarted_settleSweeps _)

theorem timersStarted_fillSlot (x : Admission) (capability : Option Bool) (lmin : Nat) (s : State) :
    TimersStarted s (fillSlot x capability lmin s) :=
  (timersStarted_requested x.slot _).after (((Writes.of_setRecord (ts := [.roster, .lines, .notices]) s x.slot
    (admittedRecord x capability lmin)).trans (writes_removeStray ..).mono).trans (.of_setLine ..))

theorem timersStarted_moveRecord (n k : Nat) (s : State) : TimersStarted s (moveRecord n k s) :=
  ((timersStarted_requestForMove n k _).trans (timersStarted_settleSweeps _)).after
    ((Writes.of_setRecord (ts := [.roster]) s k (s.record n)).trans (.of_setRecord ..))

theorem timersStarted_retireRecord (n : Nat) (q : Place) (s : State) : TimersStarted s (retireRecord n q s) :=
  (timersStarted_requested n _).after
    ((Writes.of_setRecord (ts := [.roster, .lines]) s n { s.record n with state := .retiring }).trans (.of_setLine ..))

theorem timersStarted_clearFaultOf (n : Nat) (s : State) : TimersStarted s (clearFaultOf n s) := by
  have written := Writes.of_setRecord (ts := [.roster]) s n (faultCleared (s.record n))
  unfold clearFaultOf
  dsimp only
  split
  · exact (timersStarted_requested n _).after written
  · exact .of_eq written.portals

theorem timersStarted_applyLimit (l : Line) (limit : Nat) (s : State) : TimersStarted s (applyLimit l limit s) := by
  have written := (Writes.of_setLine (ts := [.roster, .lines, .notices]) s l { s.line l with missLimit := limit }).trans
    (.of_forEach (slotsOfLine s l) (fun n t => .of_setRecord t n (limited limit (t.record n))) _)
  unfold applyLimit
  dsimp only
  refine TimersStarted.trans (TimersStarted.trans ?_ (.forEach _ timersStarted_requestForSlot _))
    (timersStarted_settleSweeps _)
  split
  · exact .of_eq written.portals
  · exact .of_eq (written.trans (.of_handEvent ..)).portals

theorem timersStarted_commitApplied (l : Line) (n : Nat) (a : Applied) (s : State) :
    TimersStarted s (commitApplied l n a s) := by
  have noticed := (Writes.of_setRecord (ts := [.roster, .notices]) s n a.record).trans
    (.of_forEach a.events (fun e t => .of_handEvent t (lineEventClass l e)) _)
  unfold commitApplied
  dsimp only
  split
  · exact (timersStarted_requestForSlot n _).after noticed
  · exact .of_eq noticed.portals

theorem timersStarted_applyResult (l : Line) (x : Exchange) (reply : Option DriverReply) (s : State) :
    TimersStarted s (applyResult l x reply s) := by
  unfold applyResult
  split
  · split
    · unfold strayIdent
      split
      · exact .of_eq (State.setLine_portals ..)
      · exact .refl s
    · exact .refl s
  next n _ =>
    dsimp only
    split
    · split
      · exact timersStarted_commitApplied l n _ s
      · exact .refl s
    split
    · exact .refl s
    split
    · exact (timersStarted_commitApplied l n _ s).trans (.of_eq (State.setLine_portals ..))
    · exact timersStarted_commitApplied l n _ s

theorem timersStarted_complete (l : Line) (x : Exchange) (received request : List Byte) (s : State) :
    TimersStarted s (complete l x received request s) := by
  have taken := (timersStarted_applyResult l x (acceptReply x.frame x.address received) s).trans
    (.of_eq (writes_takeRequest l (readRequest request) _).portals)
  have told := taken.trans (timersStarted_notifyOrigin l x.origin _)
  exact (told.trans (.of_eq (State.setLine_portals ..))).trans (timersStarted_settleSweeps _)

/-! ## Entries into EMERGENCY (R49, R51) -/

theorem portal_requestEmergencySweep {p : Fin 4} {s : State} (h : (s.portal p).mode ≠ .halted) :
    (requestEmergencySweep p s).portal p = { s.portal p with refreshTimer := some (s.portal p).ramp.refresh } := by
  have begun : ∀ t : State, t.portal p = s.portal p → (endIfPassed p (beginSweep .emergency p t)).portal p
      = { s.portal p with refreshTimer := some (s.portal p).ramp.refresh } := fun t ht => by
    have hbegun : (beginSweep .emergency p t).portal p
        = { s.portal p with refreshTimer := some (s.portal p).ramp.refresh } := by
      obtain hp | ⟨-, hp⟩ := timersStarted_beginSweep .emergency (ht ▸ h) p
      · have hrefresh := beginSweep_refreshTimer .emergency p t
        rw [hp] at hrefresh
        rw [hp, ← ht, ← hrefresh]
      · rw [hp, ht]
    obtain hp | ⟨-, hp⟩ := timersStarted_endIfPassed p (beginSweep .emergency p t) p
    · rw [hp, hbegun]
    · rw [hp, hbegun]
  unfold requestEmergencySweep
  split
  · exact begun s rfl
  · exact begun _ rfl

theorem portal_enterEmergency (p : Fin 4) (s : State) : (enterEmergency p s).portal p
    = { (s.portal p).inEmergency with refreshTimer := some (s.portal p).ramp.refresh } := by
  have hmode : ((s.setPortal p (s.portal p).inEmergency).portal p).mode ≠ .halted := by
    rw [State.portal_setPortal_self]; nofun
  have hportal : (enterEmergency p s).portal p
      = (requestEmergencySweep p (s.setPortal p (s.portal p).inEmergency)).portal p := by
    unfold enterEmergency
    rw [handTrue_cases]
    rfl
  rw [hportal, portal_requestEmergencySweep hmode, State.portal_setPortal_self]
  rfl

theorem portal_enterEmergency_of_ne {p q : Fin 4} (h : q ≠ p) (s : State) :
    (enterEmergency p s).portal q = s.portal q := by
  have hportal : (enterEmergency p s).portal q
      = (requestEmergencySweep p (s.setPortal p (s.portal p).inEmergency)).portal q := by
    unfold enterEmergency
    rw [handTrue_cases]
    rfl
  rw [hportal, (sweepKept_requestEmergencySweep h _).2.1, State.portal_setPortal_of_ne _ _ _ _ h]

/-- R49: what puts a portal into EMERGENCY. -/
def Portal.enters (x : Portal) : Prop := x.emergencyEnable = true ∧ x.mode ≠ .emergency

theorem enterIfEnabled_of_enters {p : Fin 4} {s : State} (h : (s.portal p).enters) :
    enterIfEnabled p s = enterEmergency p s := if_pos h

theorem enterIfEnabled_of_not_enters {p : Fin 4} {s : State} (h : ¬ (s.portal p).enters) : enterIfEnabled p s = s :=
  if_neg h

theorem portal_enterIfEnabled_of_ne {p q : Fin 4} (h : q ≠ p) (s : State) :
    (enterIfEnabled p s).portal q = s.portal q := by
  by_cases hp : (s.portal p).enters
  · rw [enterIfEnabled_of_enters hp, portal_enterEmergency_of_ne h]
  · rw [enterIfEnabled_of_not_enters hp]

/-- R51: the entry of a portal, as enterAll leaves it. -/
def Portal.entered (x : Portal) : Portal := { x.inEmergency with refreshTimer := some x.ramp.refresh }

theorem portal_enterAll (s : State) (p : Fin 4) :
    ((s.portal p).enters → (enterAll s).portal p = (s.portal p).entered)
      ∧ (¬ (s.portal p).enters → (enterAll s).portal p = s.portal p) := by
  refine forEach_each (P := fun t k => t.portal k = s.portal k)
    (Q := fun t k => ((s.portal k).enters → t.portal k = (s.portal k).entered)
      ∧ (¬ (s.portal k).enters → t.portal k = s.portal k)) (f := enterIfEnabled) allPortals nodup_allPortals
    (fun k t ht => ⟨fun hk => ?_, fun hk => ?_⟩) (fun k j t hj ht => (portal_enterIfEnabled_of_ne hj t).trans ht)
    (fun k j t hj ht => ?_) (fun _ _ => rfl) p (mem_allPortals p)
  · rw [← ht] at hk ⊢
    rw [enterIfEnabled_of_enters hk]
    exact portal_enterEmergency k t
  · rw [← ht] at hk ⊢
    rw [enterIfEnabled_of_not_enters hk]
  · rwa [portal_enterIfEnabled_of_ne hj t]

/-! ## Ramp phases (R39, R40, R44) -/

/-- R40: a portal after its ramp phases, but for its refresh timer and its STAGE_SHORT result. -/
def Portal.Expires (x y : Portal) : Prop :=
  y = { x.expired with refreshTimer := y.refreshTimer, stageShort := y.stageShort }
    ∧ (y.refreshTimer = x.refreshTimer ∨ x.expired.mode ≠ .halted ∧ y.refreshTimer = some x.ramp.refresh)

/-- R44: a portal whose mode request has taken effect. -/
def Portal.modeTaken (x : Portal) (m : RunMode) : Portal :=
  { x with mode := m.mode, pendingMode := none, manual := if m = .manual then x.levels else x.manual }

theorem takeModeRequest_of_none {p : Fin 4} {s : State} (h : (s.portal p).pendingMode = none) :
    takeModeRequest p s = s := by
  unfold takeModeRequest
  rw [h]

theorem takeModeRequest_of_some {p : Fin 4} {s : State} {m : RunMode} (h : (s.portal p).pendingMode = some m) :
    takeModeRequest p s = handEvent (modeSettledClass p) (s.setPortal p ((s.portal p).modeTaken m)) := by
  unfold takeModeRequest
  rw [h]
  rfl

theorem portal_takeModeRequest_of_ne {p q : Fin 4} (h : q ≠ p) (s : State) :
    (takeModeRequest p s).portal q = s.portal q := by
  cases hm : (s.portal p).pendingMode with
  | none => rw [takeModeRequest_of_none hm]
  | some m =>
    rw [takeModeRequest_of_some hm]
    exact State.portal_setPortal_of_ne s p _ q h

theorem portal_stepStages (p : Fin 4) (s : State) :
    let y := { s.portal p with levels := (s.portal p).steppedLevels }
    (stepStages p s).portal p = y
      ∨ y.mode ≠ .halted ∧ (stepStages p s).portal p = { y with refreshTimer := some y.ramp.refresh } := by
  unfold stepStages
  dsimp only
  split
  next h => rw [h]; exact .inl rfl
  next =>
    have hstarted := timersStarted_requestSweep p (s.setPortal p { s.portal p with levels := (s.portal p).steppedLevels }) p
    rw [State.portal_setPortal_self] at hstarted
    exact hstarted

theorem portal_stepStages_of_ne {p q : Fin 4} (h : q ≠ p) (s : State) :
    (stepStages p s).portal q = s.portal q := by
  unfold stepStages
  dsimp only
  split
  · rfl
  · exact (sweepKept_requestSweep h _).2.1.trans (State.portal_setPortal_of_ne s p _ q h)

/-- R40: a portal with its ramp timer started again and its pending profile committed. -/
def Portal.renewed (x : Portal) : Portal :=
  { x with active := x.pendingProfile.getD x.active, pendingProfile := none, rampTimer := some x.ramp.steps }

theorem Portal.expired_of_none {x : Portal} (h : x.pendingMode = none) :
    x.expired = { x.renewed with levels := x.renewed.steppedLevels } := by
  cases x
  cases h
  rfl

theorem Portal.expired_of_some {x : Portal} {m : RunMode} (h : x.pendingMode = some m) :
    x.expired = { x.renewed.modeTaken m with levels := (x.renewed.modeTaken m).steppedLevels } := by
  cases x
  cases h
  rfl

/-- R39, R40 phase 1: a portal at the start of its phases. -/
theorem portal_renewed (p : Fin 4) (s : State) :
    ∃ b, (commitProfile p (s.setPortal p { s.portal p with rampTimer := some (s.portal p).ramp.steps })).portal p
      = { (s.portal p).renewed with stageShort := b } :=
  ⟨_, by rw [portal_commitProfile, State.portal_setPortal_self]; rfl⟩

theorem portal_rampPhases (p : Fin 4) (s : State) : (s.portal p).Expires ((rampPhases p s).portal p) := by
  obtain ⟨b, hrenewed⟩ := portal_renewed p s
  have hphases : rampPhases p s = stepStages p (takeModeRequest p (commitProfile p
    (s.setPortal p { s.portal p with rampTimer := some (s.portal p).ramp.steps }))) := rfl
  have hstep := portal_stepStages p (takeModeRequest p (commitProfile p
    (s.setPortal p { s.portal p with rampTimer := some (s.portal p).ramp.steps })))
  rw [← hphases] at hstep
  cases hm : (s.portal p).pendingMode with
  | none =>
    rw [takeModeRequest_of_none (by rw [hrenewed]; exact hm), hrenewed] at hstep
    unfold Portal.Expires
    rw [Portal.expired_of_none hm]
    obtain h | ⟨hmode, h⟩ := hstep
    · rw [h]; exact ⟨rfl, .inl rfl⟩
    · rw [h]; exact ⟨rfl, .inr ⟨hmode, rfl⟩⟩
  | some m =>
    rw [takeModeRequest_of_some (m := m) (by rw [hrenewed]; exact hm), hrenewed] at hstep
    have htaken : ∀ (t : State) (y : Portal), (handEvent (modeSettledClass p) (t.setPortal p y)).portal p = y := fun t y =>
      State.portal_setPortal_self t p y
    rw [htaken] at hstep
    unfold Portal.Expires
    rw [Portal.expired_of_some hm]
    obtain h | ⟨hmode, h⟩ := hstep
    · rw [h]; exact ⟨rfl, .inl rfl⟩
    · rw [h]; exact ⟨rfl, .inr ⟨hmode, rfl⟩⟩

theorem portal_rampPhases_of_ne {p q : Fin 4} (h : q ≠ p) (s : State) :
    (rampPhases p s).portal q = s.portal q := by
  have hportal := portal_stepStages_of_ne h (takeModeRequest p (commitProfile p
    (s.setPortal p { s.portal p with rampTimer := some (s.portal p).ramp.steps })))
  rw [portal_takeModeRequest_of_ne h, portal_commitProfile_of_ne h, State.portal_setPortal_of_ne _ _ _ _ h] at hportal
  exact hportal

theorem mem_followers {s : State} {p q : Fin 4} : q ∈ followers s p ↔ (s.portal q).leader = some p := by
  simp [followers, mem_allPortals]

theorem nodup_followers (s : State) (p : Fin 4) : (followers s p).Nodup := nodup_allPortals.filter _

theorem CouplingLaw.ne_of_leader {s : State} (h : CouplingLaw s) {p q : Fin 4} (hq : (s.portal q).leader = some p) :
    q ≠ p := by
  rintro rfl
  have := h q q hq
  rw [hq] at this
  cases this

theorem Portal.running_iff {x : Portal} : x.running = true ↔ x.mode = .auto ∨ x.mode = .manual := by
  refine ⟨Portal.mode_of_running, ?_⟩
  rintro (h | h)
  · unfold Portal.running; rw [h]
  · unfold Portal.running; rw [h]

theorem portal_followerExpiry (q : Fin 4) (t : State) :
    ((t.portal q).running = true → (t.portal q).Expires ((followerExpiry q t).portal q))
      ∧ (¬ (t.portal q).running = true → (followerExpiry q t).portal q = t.portal q) := by
  unfold followerExpiry
  split
  next h => exact ⟨fun _ => portal_rampPhases q t, fun hn => absurd h hn⟩
  next h => exact ⟨fun hr => absurd hr h, fun _ => rfl⟩

theorem portal_followerExpiry_of_ne {q k : Fin 4} (h : k ≠ q) (t : State) :
    (followerExpiry q t).portal k = t.portal k := by
  unfold followerExpiry
  split
  · exact portal_rampPhases_of_ne h t
  · rfl

/-- R39, R40, R48: the portals that a running portal's ramp expiry carries through their phases. -/
def ExpiresWith (s : State) (p q : Fin 4) : Prop :=
  q = p ∨ (s.portal q).leader = some p ∧ ((s.portal q).mode = .auto ∨ (s.portal q).mode = .manual)

theorem rampExpired_of_running {s : State} {p : Fin 4} (ht : (s.portal p).rampTimer ≠ none)
    (hr : (s.portal p).mode = .auto ∨ (s.portal p).mode = .manual) :
    rampExpired p s = forEach (followers s p) followerExpiry (rampPhases p s) :=
  if_pos ⟨Option.isSome_iff_ne_none.2 ht, Portal.running_iff.2 hr⟩

theorem portal_rampExpired {s : State} (h : CouplingLaw s) {p : Fin 4} (ht : (s.portal p).rampTimer ≠ none)
    (hr : (s.portal p).mode = .auto ∨ (s.portal p).mode = .manual) (q : Fin 4) :
    (ExpiresWith s p q → (s.portal q).Expires ((rampExpired p s).portal q))
      ∧ (¬ ExpiresWith s p q → (rampExpired p s).portal q = s.portal q) := by
  rw [rampExpired_of_running ht hr]
  by_cases hq : (s.portal q).leader = some p
  · have hne := h.ne_of_leader hq
    have each := forEach_each (P := fun t k => t.portal k = s.portal k)
      (Q := fun t k => ((s.portal k).running = true → (s.portal k).Expires (t.portal k))
        ∧ (¬ (s.portal k).running = true → t.portal k = s.portal k)) (f := followerExpiry) (followers s p)
      (nodup_followers s p) (fun k t hk => by rw [← hk]; exact portal_followerExpiry k t)
      (fun k j t hj hk => (portal_followerExpiry_of_ne hj t).trans hk)
      (fun k j t hj hk => by rwa [portal_followerExpiry_of_ne hj t])
      (fun k hk => portal_rampPhases_of_ne (h.ne_of_leader (mem_followers.1 hk)) s) q (mem_followers.2 hq)
    rw [Portal.running_iff] at each
    exact ⟨fun hw => each.1 (hw.resolve_left hne).2, fun hw => each.2 fun hm => hw (.inr ⟨hq, hm⟩)⟩
  · have kept : (forEach (followers s p) followerExpiry (rampPhases p s)).portal q = (rampPhases p s).portal q :=
      forEach_induction (P := fun t => t.portal q = (rampPhases p s).portal q) _ rfl fun k hk t hkept =>
        (portal_followerExpiry_of_ne (by rintro rfl; exact hq (mem_followers.1 hk)) t).trans hkept
    rw [kept]
    by_cases e : q = p
    · subst e
      exact ⟨fun _ => portal_rampPhases q s, fun hw => absurd (.inl rfl) hw⟩
    · refine ⟨fun hw => ?_, fun _ => portal_rampPhases_of_ne e s⟩
      exact absurd (hw.resolve_left e).1 hq

end Sys2Proof.Machine
end

section
/-! SUPPORT. Stage levels change only at ramp expiries, within the rates, and at the entry into EMERGENCY (R41, R51). -/

namespace Sys2Proof.Machine

/-! ## One step of a level (R41) -/

theorem stepLevel_le (r : RampSettings) (low target level : Nat) : stepLevel r low target level ≤ level + r.up := by
  unfold stepLevel
  split
  · omega
  · split <;> [skip; split] <;> omega

theorem le_stepLevel (r : RampSettings) (low target level : Nat) : level ≤ stepLevel r low target level + r.down := by
  unfold stepLevel
  split
  · omega
  · split <;> [skip; split] <;> omega

theorem getElem_six (f : Fin 6 → Nat) (i : Fin 6) : (six f)[i] = f i := by
  revert i
  simp [Fin.forall_fin_succ, six]

theorem getElem_steppedLevels (x : Portal) (i : Fin 6) :
    x.steppedLevels[i] = stepLevel x.ramp (x.rampTarget i).2 (x.rampTarget i).1 x.levels[i] := getElem_six _ i

theorem Portal.expired_levels_within (x : Portal) (i : Fin 6) :
    x.expired.levels[i] ≤ x.levels[i] + x.ramp.up ∧ x.levels[i] ≤ x.expired.levels[i] + x.ramp.down := by
  unfold Portal.expired
  cases x.pendingMode
  all_goals
    simp only [getElem_steppedLevels]
    exact ⟨stepLevel_le .., le_stepLevel ..⟩

/-! ## Levels that are kept, or filled at the entry into EMERGENCY -/

/-- The levels are kept, unless the portal has entered EMERGENCY, with full levels. -/
def Portal.LevelsKept (x y : Portal) : Prop :=
  y.levels = x.levels ∨ y.mode = .emergency ∧ x.mode ≠ .emergency ∧ ∀ i : Fin 6, y.levels[i] = 10000

theorem Portal.LevelsKept.of_eq {x y : Portal} (h : y.levels = x.levels) : x.LevelsKept y := .inl h

theorem levels_of_full {v : Vector Nat 6} (h : ∀ i : Fin 6, v[i] = 10000) : v = Vector.replicate 6 Config.fullDrive := by
  ext i hi
  rw [Vector.getElem_replicate]
  exact h ⟨i, hi⟩

theorem Portal.getElem_entered_levels (x : Portal) (i : Fin 6) : x.entered.levels[i] = 10000 := by
  simp [Portal.entered, Portal.inEmergency, Config.fullDrive]

/-- R51: the entry into EMERGENCY from a mode that had its levels already. -/
theorem Portal.levelsKept_entered {x y : Portal} (hx : x.mode = .emergency → ∀ i : Fin 6, x.levels[i] = 10000) :
    x.LevelsKept y.entered := by
  by_cases hm : x.mode = .emergency
  · exact .inl (levels_of_full (hx hm)).symm
  · exact .inr ⟨rfl, hm, getElem_entered_levels y⟩

theorem levelsKept_enterAll {s t : State} {p : Fin 4}
    (hx : (s.portal p).mode = .emergency → ∀ i : Fin 6, (s.portal p).levels[i] = 10000)
    (h : (t.portal p).levels = (s.portal p).levels) : (s.portal p).LevelsKept ((enterAll t).portal p) := by
  by_cases he : (t.portal p).enters
  · rw [(portal_enterAll t p).1 he]; exact Portal.levelsKept_entered hx
  · rw [(portal_enterAll t p).2 he]; exact .of_eq h

theorem levelsKept_examineEmergN {s t : State} {p : Fin 4}
    (hx : (s.portal p).mode = .emergency → ∀ i : Fin 6, (s.portal p).levels[i] = 10000)
    (h : (t.portal p).levels = (s.portal p).levels) : (s.portal p).LevelsKept ((examineEmergN t).portal p) := by
  unfold examineEmergN
  split
  · exact levelsKept_enterAll hx h
  · exact .of_eq h

theorem OnlyPhotometry.levels {s t : State} (h : OnlyPhotometry s t) (p : Fin 4) :
    (t.portal p).levels = (s.portal p).levels := by rw [h.portal]

theorem OnlySweeps.levels {s t : State} (h : OnlySweeps s t) (p : Fin 4) :
    (t.portal p).levels = (s.portal p).levels := by rw [h.portal]

theorem levels_setPortal {s : State} {p : Fin 4} {y : Portal} (h : y.levels = (s.portal p).levels) (q : Fin 4) :
    ((s.setPortal p y).portal q).levels = (s.portal q).levels :=
  s.portal_setPortal_induction (P := fun q x => x.levels = (s.portal q).levels) h (fun _ _ => rfl) q

theorem levels_commitProfile (p q : Fin 4) (s : State) :
    ((commitProfile p s).portal q).levels = (s.portal q).levels := by
  by_cases h : q = p
  · subst h; rw [portal_commitProfile]
  · rw [portal_commitProfile_of_ne h]

theorem levelsKept_enterEmergency {s : State} {p : Fin 4} (hm : (s.portal p).mode ≠ .emergency) (q : Fin 4) :
    (s.portal q).LevelsKept ((enterEmergency p s).portal q) := by
  by_cases h : q = p
  · subst h
    rw [portal_enterEmergency]
    exact Portal.levelsKept_entered (y := s.portal q) fun e => absurd e hm
  · rw [portal_enterEmergency_of_ne h]; exact .of_eq rfl

theorem TimersStarted.levelsKept {s t : State} (h : TimersStarted s t) (p : Fin 4) :
    (s.portal p).LevelsKept (t.portal p) := by
  obtain hp | ⟨-, hp⟩ := h p
  · exact .of_eq (by rw [hp])
  · exact .of_eq (by rw [hp])

theorem levels_couple (k : Fin 4) (leader : Option (Fin 4)) (s : State) (p : Fin 4) :
    ((couple k leader s).portal p).levels = (s.portal p).levels := by
  unfold couple
  split
  · rfl
  · exact ((onlyPhotometry_evalCondition ..).levels p).trans (levels_setPortal (by rfl) p)

theorem levelsKept_command {s t : State} {ts : List Table} (hlaw : ∀ k, ModeLaw (s.portal k))
    (heffect : CommandEffect s ts t) (p : Fin 4) : (s.portal p).LevelsKept (t.portal p) := by
  by_cases htouched : .portals ∈ ts
  case neg => exact .of_eq (by rw [heffect.writes.portal p htouched])
  cases heffect
  case restart =>
    refine levelsKept_examineEmergN (hlaw p).2.1 ?_
    rw [(onlyPhotometry_evaluateAll _).levels, portal_restartValues]
    rfl
  case removeMeter m => exact .of_eq ((onlyPhotometry_evalFormer ..).levels p)
  case configureMeter m address k _ _ _ =>
    exact .of_eq (((onlyPhotometry_evalFormer ..).trans (onlyPhotometry_evalCondition ..)).levels p)
  case setProfile k v _ => exact .of_eq (levels_setPortal (by rfl) p)
  case setProfileAtOnce k v _ =>
    exact .of_eq ((levels_commitProfile k p _).trans (levels_setPortal (by rfl) p))
  case start k m _ =>
    exact .of_eq (((onlySweeps_requestSweep ..).levels p).trans
      ((levels_setPortal (by rfl) p).trans (levels_commitProfile k p s)))
  case halt k _ => exact .of_eq (((onlySweeps_abandonSweep ..).levels p).trans (levels_setPortal (by rfl) p))
  case setRamp | setStageLevel | setEmergencyEnable => exact .of_eq (levels_setPortal (by rfl) p)
  case requestMode k m _ =>
    refine .of_eq (levels_setPortal ?_ p)
    unfold Portal.requested
    split
    · rfl
    · split <;> rfl
  case uncouple k => exact .of_eq (levels_couple k none s p)
  case couple k q _ => exact .of_eq (levels_couple k (some q) s p)
  case enableInEmergency k _ hm =>
    have written := levels_setPortal (s := s) (p := k) (y := { s.portal k with emergencyEnable := true }) rfl p
    have hmode := s.portal_setPortal_induction (p := k) (y := { s.portal k with emergencyEnable := true })
      (P := fun q x => x.mode = (s.portal q).mode) rfl (fun _ _ => rfl)
    have entered := levelsKept_enterEmergency (s := s.setPortal k { s.portal k with emergencyEnable := true }) (p := k)
      (by rw [hmode]; exact hm) p
    unfold Portal.LevelsKept at entered ⊢
    rwa [written, hmode] at entered
  case release k _ _ =>
    exact .of_eq (levels_setPortal (y := (s.portal k).released _) (by rfl) p)
  case removePlan | setPlan => exact .of_eq ((onlyPhotometry_evalStageShort ..).levels p)
  case admission x capability lmin _ _ => exact (timersStarted_fillSlot x capability lmin s).levelsKept p
  case amendAsking n _ _ _ _ _ _ =>
    exact ((timersStarted_requestForSlot n _).after (.of_setRecord (ts := [.roster]) s n _)).levelsKept p
  case move n k _ _ _ _ _ _ => exact (timersStarted_moveRecord n k s).levelsKept p
  case retire n q _ _ _ _ _ => exact (timersStarted_retireRecord n q s).levelsKept p
  case clearFault n _ _ _ => exact (timersStarted_clearFaultOf n s).levelsKept p
  case resweep k _ => exact (timersStarted_requestSweep k s).levelsKept p
  case setLine l limit _ _ => exact (timersStarted_applyLimit l limit s).levelsKept p
  all_goals exact absurd htouched (by decide)

theorem levelsKept_emergNAsserted {s : State} (hlaw : ∀ k, ModeLaw (s.portal k)) (p : Fin 4) :
    (s.portal p).LevelsKept ((emergNAsserted s).portal p) := by
  unfold emergNAsserted
  split
  · exact .of_eq rfl
  · exact levelsKept_enterAll (hlaw p).2.1 rfl

theorem timersStarted_exchangeCompletion (l : Line) (chars : List Byte) (s : State) :
    TimersStarted s (exchangeCompletion l chars s) := by
  unfold exchangeCompletion
  split
  · split
    · exact timersStarted_complete l _ _ _ s
    all_goals exact .refl s
  all_goals exact .refl s

theorem onlyPhotometry_holdExpired_levels (m : Fin 8) (s : State) (p : Fin 4) :
    ((holdExpired m s).portal p).levels = (s.portal p).levels := by
  unfold holdExpired
  dsimp only
  split
  · split
    · exact (onlyPhotometry_evalCondition ..).levels p
    · rfl
  · rfl

theorem levels_applyPoll (a : Nat) (result : Option (MeterStatus × Nat)) (s : State) (p : Fin 4) :
    ((applyPoll a result s).portal p).levels = (s.portal p).levels := by
  unfold applyPoll
  split
  · rfl
  · split
    · exact (onlyPhotometry_readingArrival ..).levels p
    · rfl
    · rfl

theorem levels_refreshExpired (k : Fin 4) (s : State) (p : Fin 4) :
    ((refreshExpired k s).portal p).levels = (s.portal p).levels := by
  unfold refreshExpired
  split
  · exact ((onlySweeps_requestSweep ..).levels p).trans (levels_setPortal (by rfl) p)
  · rfl

/-- Every event but a ramp expiry keeps the levels or fills them at an entry into EMERGENCY. -/
theorem levelsKept_event {s : State} (hlaw : ∀ k, ModeLaw (s.portal k)) {c : Instr} (hc : ∀ k, c ≠ .rampExpiry k)
    (p : Fin 4) : (s.portal p).LevelsKept ((eventRule c s).portal p) := by
  cases c
  case emergNAssertion => exact levelsKept_emergNAsserted hlaw p
  case rampExpiry k => exact absurd rfl (hc k)
  case refreshTimerExpiry k => exact .of_eq (levels_refreshExpired k s p)
  case holdTimerExpiry m => exact .of_eq (onlyPhotometry_holdExpired_levels m s p)
  case pollDue m => exact .of_eq (congrArg Portal.levels ((EventEffect.pollDue m).writes.portal p))
  case pollStart => exact .of_eq (congrArg Portal.levels (EventEffect.pollStart.writes.portal p))
  case quietPeriodEnd l => exact .of_eq (congrArg Portal.levels ((EventEffect.quietPeriodEnd l).writes.portal p))
  case arbiterGrant l => exact .of_eq (congrArg Portal.levels ((EventEffect.arbiterGrant l).writes.portal p))
  case frameEnd l | replyWindowClose l | replyReceived l _ | replyGapTimeout l | replyBegun l _ =>
    exact .of_eq (congrArg Portal.levels ((writes_withPhase l _ s).portal p))
  case pollCompletion c0 c1 c2 c3 c4 =>
    refine .of_eq (y := (pollCompletion c0 c1 c2 c3 c4 s).portal p) ?_
    unfold pollCompletion
    split
    · rfl
    · exact levels_applyPoll _ _ _ p
  case pollWindowClose =>
    refine .of_eq (y := (pollWindowClose s).portal p) ?_
    unfold pollWindowClose
    split
    · rfl
    · exact levels_applyPoll _ _ _ p
  case exchangeCompletion l chars => exact (timersStarted_exchangeCompletion l chars s).levelsKept p
  all_goals exact .of_eq rfl

theorem levels_within_rampExpired {s : State} (h : CouplingLaw s) (k p : Fin 4) :
    ((rampExpired k s).portal p).levels = (s.portal p).levels
      ∨ ∀ i : Fin 6, ((rampExpired k s).portal p).levels[i] ≤ (s.portal p).levels[i] + (s.portal p).ramp.up
        ∧ (s.portal p).levels[i] ≤ ((rampExpired k s).portal p).levels[i] + (s.portal p).ramp.down := by
  by_cases hruns : (s.portal k).rampTimer.isSome = true ∧ (s.portal k).running = true
  · have hp := portal_rampExpired h (Option.isSome_iff_ne_none.1 hruns.1) (Portal.running_iff.1 hruns.2) p
    by_cases hw : ExpiresWith s k p
    · have hlevels : ((rampExpired k s).portal p).levels = (s.portal p).expired.levels := by
        have h := congrArg Portal.levels (hp.1 hw).1
        exact h
      rw [hlevels]
      exact .inr (s.portal p).expired_levels_within
    · exact .inl (by rw [hp.2 hw])
  · exact .inl (by rw [rampExpired, if_neg hruns])

theorem levels_evaluateAll_of_portals {s t : State} (h : t.portals = s.portals) (p : Fin 4) :
    ((evaluateAll t).portal p).levels = (s.portal p).levels :=
  ((onlyPhotometry_evaluateAll t).levels p).trans (by rw [State.portal, State.portal, h])

theorem levelsKept_poweredUp {s : State} (hlaw : ∀ k, ModeLaw (s.portal k)) (straps : BitVec 4) (pins : PinLevels)
    (p : Fin 4) : (s.portal p).LevelsKept ((poweredUp straps pins s).portal p) := by
  unfold poweredUp
  exact levelsKept_examineEmergN (hlaw p).2.1 (levels_evaluateAll_of_portals rfl p)

theorem portal_withPort (s : State) (port : Port) (p : Fin 4) : State.portal { s with port := port } p = s.portal p := rfl

theorem portal_resetReleased (straps : BitVec 4) (pins : PinLevels) (s : State) (p : Fin 4) :
    (resetReleased straps pins s).portal p = (poweredUp straps pins s).portal p := portal_withPort ..

/-- Settles O32: row by row. Only rampExpired steps a level, each portal once under the coupling law; only entries into
EMERGENCY fill one. -/
theorem stageLevelsChangeOnlyAtRampExpiriesAndEmergencyEntry :
    Obligations.StageLevelsChangeOnlyAtRampExpiriesAndEmergencyEntry := by
  intro s t c p hlaw _ hcoupling h
  have of_kept : (s.portal p).LevelsKept (t.portal p) → (t.portal p).levels = (s.portal p).levels
      ∨ (∃ k, c = .rampExpiry k) ∧ (∀ i : Fin 6,
          (t.portal p).levels[i] ≤ (s.portal p).levels[i] + (s.portal p).ramp.up
            ∧ (s.portal p).levels[i] ≤ (t.portal p).levels[i] + (s.portal p).ramp.down)
      ∨ (t.portal p).mode = .emergency ∧ (s.portal p).mode ≠ .emergency
        ∧ (∀ i : Fin 6, (t.portal p).levels[i] = 10000)
      ∨ c = .resetNAsserted := fun hk => hk.imp id fun he => .inr (.inl he)
  cases exec_rowEffect h
  case port => exact .inl rfl
  case command ts u q _ heffect => exact of_kept (levelsKept_command hlaw heffect p)
  case event =>
    by_cases hc : ∃ k, c = .rampExpiry k
    · obtain ⟨k, rfl⟩ := hc
      exact (levels_within_rampExpired hcoupling k p).imp id fun hw => .inl ⟨⟨k, rfl⟩, hw⟩
    · exact of_kept (levelsKept_event hlaw (fun k e => hc ⟨k, e⟩) p)
  case asserted hi => exact .inr (.inr (.inr hi))
  case released straps pins _ _ =>
    refine of_kept ?_
    rw [portal_resetReleased]
    exact levelsKept_poweredUp hlaw straps pins p

end Sys2Proof.Machine
end

section
/-! SUPPORT. Each portal's mode law and the ranges of its settings, levels and timers are kept (R19, R36, R39, R42, R46, R51). -/

namespace Sys2Proof.Machine

/-- What Portal.inRange says of everything but Lf. -/
def Portal.SettingsInRange (x : Portal) : Prop :=
  x.active.inRange ∧ (∀ v, x.pendingProfile = some v → v.inRange)
    ∧ (∀ i : Fin 6, x.levels[i] ≤ 10000 ∧ x.manual[i] ≤ 10000)
    ∧ (2 ≤ x.ramp.steps ∧ x.ramp.steps ≤ 40) ∧ (1 ≤ x.ramp.up ∧ x.ramp.up ≤ 10000)
    ∧ (1 ≤ x.ramp.down ∧ x.ramp.down ≤ 10000) ∧ x.ramp.deadband ≤ 500 ∧ (10 ≤ x.ramp.refresh ∧ x.ramp.refresh ≤ 600)
    ∧ (∀ n, x.rampTimer = some n → 2 ≤ n ∧ n ≤ 40) ∧ (∀ n, x.refreshTimer = some n → 10 ≤ n ∧ n ≤ 600)

theorem Portal.inRange_iff {x : Portal} :
    x.inRange ↔ (∀ lf, x.lf = some lf → lf ≤ 12000) ∧ x.SettingsInRange := Iff.rfl

/-- The mode law of a portal, and the ranges of its settings, levels and timers: everything but its photometry. -/
def Portal.Lawful (x : Portal) : Prop := ModeLaw x ∧ x.SettingsInRange

/-! ## One portal -/

theorem getElem_inEmergency_levels (x : Portal) (i : Fin 6) : x.inEmergency.levels[i] = 10000 :=
  x.getElem_entered_levels i

theorem Portal.pendingMode_eq_none {x : Portal} (h : ModeLaw x) (ha : x.mode ≠ .auto) (hm : x.mode ≠ .manual) :
    x.pendingMode = none := by
  obtain ⟨-, -, -, hpending, -⟩ := h
  by_contra hne
  exact (hpending hne).elim ha hm

namespace Portal.Lawful

variable {x y : Portal}

theorem photometry (h : x.Lawful) (c : Condition) (lf : Option Nat) (b : Bool) :
    Portal.Lawful { x with condition := c, lf := lf, stageShort := b } := h

theorem refreshStarted (h : x.Lawful) (hm : x.mode ≠ .halted) :
    Portal.Lawful { x with refreshTimer := some x.ramp.refresh } := by
  obtain ⟨⟨hreturn, hlevels, hramp, hpending, -⟩, hactive, hprofile, hrange, hsteps, hup, hdown, hdead, hrefresh, htimer, -⟩ := h
  refine ⟨⟨hreturn, hlevels, hramp, hpending, fun e => absurd e hm⟩, hactive, hprofile, hrange, hsteps, hup, hdown, hdead,
    hrefresh, htimer, fun n e => ?_⟩
  cases e
  exact hrefresh

theorem refreshStopped (h : x.Lawful) : Portal.Lawful { x with refreshTimer := none } := by
  obtain ⟨⟨hreturn, hlevels, hramp, hpending, -⟩, hactive, hprofile, hrange, hsteps, hup, hdown, hdead, hrefresh, htimer, -⟩ := h
  exact ⟨⟨hreturn, hlevels, hramp, hpending, fun _ => rfl⟩, hactive, hprofile, hrange, hsteps, hup, hdown, hdead,
    hrefresh, htimer, nofun⟩

theorem setPending (h : x.Lawful) {v : Profile} (hv : v.inRange) : Portal.Lawful { x with pendingProfile := some v } := by
  obtain ⟨hmode, hactive, -, hrest⟩ := h
  exact ⟨hmode, hactive, fun w e => by cases e; exact hv, hrest⟩

theorem committed (h : x.Lawful) (b : Bool) :
    Portal.Lawful { x with active := x.pendingProfile.getD x.active, pendingProfile := none, stageShort := b } := by
  obtain ⟨hmode, hactive, hprofile, hrest⟩ := h
  refine ⟨hmode, ?_, nofun, hrest⟩
  show (x.pendingProfile.getD x.active).inRange
  cases hp : x.pendingProfile with
  | none => exact hactive
  | some v => exact hprofile v hp

theorem setRamp (h : x.Lawful) {r : RampSettings} (hsteps : 2 ≤ r.steps ∧ r.steps ≤ 40) (hup : 1 ≤ r.up ∧ r.up ≤ 10000)
    (hdown : 1 ≤ r.down ∧ r.down ≤ 10000) (hdead : r.deadband ≤ 500) (hrefresh : 10 ≤ r.refresh ∧ r.refresh ≤ 600) :
    Portal.Lawful { x with ramp := r } := by
  obtain ⟨hmode, hactive, hprofile, hrange, -, -, -, -, -, htimers⟩ := h
  exact ⟨hmode, hactive, hprofile, hrange, hsteps, hup, hdown, hdead, hrefresh, htimers⟩

theorem setManual (h : x.Lawful) (i : Fin 6) {level : Nat} (hl : level ≤ 10000) :
    Portal.Lawful { x with manual := x.manual.set i level } := by
  obtain ⟨hmode, hactive, hprofile, hrange, hrest⟩ := h
  refine ⟨hmode, hactive, hprofile, fun k => ⟨(hrange k).1, ?_⟩, hrest⟩
  show (x.manual.set i level)[k.val] ≤ 10000
  rw [Vector.getElem_set]
  split
  · exact hl
  · exact (hrange k).2

theorem requested (h : x.Lawful) (hm : x.mode ≠ .halted) (m : RunMode) : (x.requested m).Lawful := by
  obtain ⟨⟨hreturn, hlevels, hramp, hpending, hrefresh⟩, hrange⟩ := h
  unfold Portal.requested
  split
  next he => exact ⟨⟨iff_of_true nofun he, hlevels, hramp, hpending, hrefresh⟩, hrange⟩
  next he =>
    split
    · exact ⟨⟨hreturn, hlevels, hramp, fun e => absurd rfl e, hrefresh⟩, hrange⟩
    · refine ⟨⟨hreturn, hlevels, hramp, fun _ => ?_, hrefresh⟩, hrange⟩
      show x.mode = .auto ∨ x.mode = .manual
      cases hx : x.mode
      · exact absurd hx hm
      · exact .inl rfl
      · exact .inr rfl
      · exact absurd hx he

theorem started (h : x.Lawful) (hm : x.mode = .halted) (m : RunMode) : (x.started m).Lawful := by
  have hpending := Portal.pendingMode_eq_none h.1 (by rw [hm]; nofun) (by rw [hm]; nofun)
  obtain ⟨⟨hreturn, -, -, -, -⟩, hactive, hprofile, hrange, hsteps, hup, hdown, hdead, hrefresh, -, -⟩ := h
  have hnone : x.returnMode = none := by
    by_contra hne
    have := hreturn.1 hne
    rw [hm] at this
    cases this
  refine ⟨⟨iff_of_false (fun e => e hnone) m.mode_ne_emergency, fun e => absurd e m.mode_ne_emergency,
    iff_of_true nofun ?_, fun e => absurd hpending e, fun e => absurd e m.mode_ne_halted⟩, hactive, hprofile, fun i => ?_,
    hsteps, hup, hdown, hdead, hrefresh, fun n e => ?_, fun n e => ?_⟩
  · cases m
    · exact .inl rfl
    · exact .inr rfl
  · refine ⟨(hrange i).1, ?_⟩
    show (if m = .manual then x.levels else x.manual)[i] ≤ 10000
    split
    · exact (hrange i).1
    · exact (hrange i).2
  · cases e; exact hsteps
  · cases e; exact hrefresh

theorem halted (h : x.Lawful) (hm : x.mode = .auto ∨ x.mode = .manual) :
    Portal.Lawful { x with mode := .halted, rampTimer := none, refreshTimer := none, pendingMode := none } := by
  obtain ⟨⟨hreturn, -, -, -, -⟩, hactive, hprofile, hrange, hsteps, hup, hdown, hdead, hrefresh, -, -⟩ := h
  have hnone : ¬ x.returnMode ≠ none := fun e => by
    have := hreturn.1 e
    rw [this] at hm
    exact hm.elim nofun nofun
  exact ⟨⟨iff_of_false hnone nofun, nofun, iff_of_false (fun e => e rfl) (by rintro (e | e) <;> cases e),
    fun e => absurd rfl e, fun _ => rfl⟩, hactive, hprofile, hrange, hsteps, hup, hdown, hdead, hrefresh, nofun, nofun⟩

theorem entered (h : x.Lawful) (hm : x.mode ≠ .emergency) : x.entered.Lawful := by
  obtain ⟨-, hactive, hprofile, hrange, hsteps, hup, hdown, hdead, hrefresh, -, -⟩ := h
  refine ⟨⟨iff_of_true ?_ rfl, fun _ i => x.getElem_entered_levels i,
    iff_of_false (fun e => e rfl) (by rintro (e | e) <;> cases e), fun e => absurd rfl e, nofun⟩,
    hactive, hprofile, fun i => ⟨(x.getElem_entered_levels i).le, (hrange i).2⟩, hsteps, hup, hdown, hdead, hrefresh, nofun,
    fun n e => ?_⟩
  · show x.mode.asReturn ≠ none
    cases hx : x.mode
    case emergency => exact absurd hx hm
    all_goals nofun
  · cases e; exact hrefresh

theorem released (h : x.Lawful) (hm : x.mode = .emergency) (back : ReturnMode) : (x.released back).Lawful := by
  have hpending := Portal.pendingMode_eq_none h.1 (by rw [hm]; nofun) (by rw [hm]; nofun)
  obtain ⟨-, hactive, hprofile, hrange, hsteps, hup, hdown, hdead, hrefresh, -, htimer⟩ := h
  cases back
  case halted =>
    exact ⟨⟨iff_of_false (fun e => e rfl) nofun, nofun, iff_of_false (fun e => e rfl) (by rintro (e | e) <;> cases e),
      fun e => absurd hpending e, fun _ => rfl⟩, hactive, hprofile, hrange, hsteps, hup, hdown, hdead, hrefresh, nofun, nofun⟩
  case auto =>
    exact ⟨⟨iff_of_false (fun e => e rfl) nofun, nofun, iff_of_true nofun (.inl rfl), fun e => absurd hpending e, nofun⟩,
      hactive, hprofile, hrange, hsteps, hup, hdown, hdead, hrefresh, fun n e => by cases e; exact hsteps, htimer⟩
  case manual =>
    exact ⟨⟨iff_of_false (fun e => e rfl) nofun, nofun, iff_of_true nofun (.inr rfl), fun e => absurd hpending e, nofun⟩,
      hactive, hprofile, hrange, hsteps, hup, hdown, hdead, hrefresh, fun n e => by cases e; exact hsteps, htimer⟩

theorem restarted (h : x.Lawful) : x.restarted.Lawful := by
  obtain ⟨-, hactive, hprofile, hrange, hsteps, hup, hdown, hdead, hrefresh, -, -⟩ := h
  exact ⟨⟨iff_of_false (fun e => e rfl) nofun, nofun, iff_of_false (fun e => e rfl) (by rintro (e | e) <;> cases e),
    fun e => absurd rfl e, fun _ => rfl⟩, hactive, hprofile, hrange, hsteps, hup, hdown, hdead, hrefresh, nofun, nofun⟩

end Portal.Lawful

/-! ## Ramp phases -/

theorem Portal.target_le {x : Portal} (i : Fin 6) (hd : x.active.dmin ≤ 10000) : x.target i ≤ 10000 := by
  cases hlf : x.lf with
  | none => rw [Portal.target_of_lf_none hlf]
  | some lf => rw [Portal.target_of_lf_some hlf]; exact (le_clamp_and_clamp_le hd _).2

theorem stepLevel_le_full {r : RampSettings} {low target level : Nat} (ht : target ≤ 10000) (hl : level ≤ 10000) :
    stepLevel r low target level ≤ 10000 := by
  unfold stepLevel
  split
  · exact hl
  · split <;> [skip; split] <;> omega

theorem Portal.steppedLevels_le {x : Portal} (hd : x.active.dmin ≤ 3000)
    (hrange : ∀ i : Fin 6, x.levels[i] ≤ 10000 ∧ x.manual[i] ≤ 10000) (i : Fin 6) : x.steppedLevels[i] ≤ 10000 := by
  rw [getElem_steppedLevels]
  refine stepLevel_le_full ?_ (hrange i).1
  unfold Portal.rampTarget
  split
  · exact (hrange i).2
  · exact Portal.target_le i (by omega)

theorem Profile.inRange.dmin_le {v : Profile} (h : v.inRange) : v.dmin ≤ 3000 := by
  obtain ⟨-, -, -, -, hd, -⟩ := h
  exact hd

theorem Portal.mode_ne_of_runs {x : Portal} (h : x.mode = .auto ∨ x.mode = .manual) :
    x.mode ≠ .halted ∧ x.mode ≠ .emergency := by
  obtain h | h := h <;> rw [h] <;> exact ⟨nofun, nofun⟩

namespace Portal.Lawful

variable {x : Portal}

theorem timed (h : x.Lawful) (hm : x.mode = .auto ∨ x.mode = .manual) :
    Portal.Lawful { x with rampTimer := some x.ramp.steps } := by
  obtain ⟨⟨hreturn, hlevels, -, hpending, hhalted⟩, hactive, hprofile, hrange, hsteps, hup, hdown, hdead, hrefresh, -,
    htimer⟩ := h
  exact ⟨⟨hreturn, hlevels, iff_of_true nofun hm, hpending, hhalted⟩, hactive, hprofile, hrange, hsteps, hup, hdown, hdead,
    hrefresh, fun n e => by cases e; exact hsteps, htimer⟩

/-- R44: a pending mode request takes effect. -/
theorem modeTaken (h : x.Lawful) (hm : x.mode = .auto ∨ x.mode = .manual) (m : RunMode) :
    Portal.Lawful { x with
      mode := m.mode, pendingMode := none, manual := if m = .manual then x.levels else x.manual } := by
  obtain ⟨hhalted, hemergency⟩ := Portal.mode_ne_of_runs hm
  obtain ⟨⟨hreturn, -, hramp, -, -⟩, hactive, hprofile, hrange, hrest⟩ := h
  refine ⟨⟨iff_of_false (fun e => hemergency (hreturn.1 e)) m.mode_ne_emergency,
    fun e => absurd e m.mode_ne_emergency, iff_of_true (hramp.2 hm) ?_, fun e => absurd rfl e,
    fun e => absurd e m.mode_ne_halted⟩, hactive, hprofile, fun i => ⟨(hrange i).1, ?_⟩, hrest⟩
  · cases m
    · exact .inl rfl
    · exact .inr rfl
  · show (if m = RunMode.manual then x.levels else x.manual)[i] ≤ 10000
    split
    · exact (hrange i).1
    · exact (hrange i).2

theorem stepped (h : x.Lawful) (hm : x.mode ≠ .emergency) : Portal.Lawful { x with levels := x.steppedLevels } := by
  obtain ⟨⟨hreturn, -, hrest⟩, hactive, hprofile, hrange, hranges⟩ := h
  exact ⟨⟨hreturn, fun e => absurd e hm, hrest⟩, hactive, hprofile,
    fun i => ⟨Portal.steppedLevels_le (Profile.inRange.dmin_le hactive) hrange i, (hrange i).2⟩, hranges⟩

end Portal.Lawful

theorem Portal.expired_refresh (x : Portal) :
    x.expired.ramp = x.ramp ∧ x.expired.refreshTimer = x.refreshTimer := by
  cases h : x.pendingMode with
  | none => rw [Portal.expired_of_none h]; exact ⟨rfl, rfl⟩
  | some m => rw [Portal.expired_of_some h]; exact ⟨rfl, rfl⟩

theorem Portal.Lawful.expired {x : Portal} (h : x.Lawful) (hm : x.mode = .auto ∨ x.mode = .manual) : x.expired.Lawful := by
  have hrenewed : x.renewed.Lawful := (h.timed hm).committed x.stageShort
  cases hp : x.pendingMode with
  | none => rw [Portal.expired_of_none hp]; exact hrenewed.stepped (Portal.mode_ne_of_runs hm).2
  | some m => rw [Portal.expired_of_some hp]; exact (hrenewed.modeTaken hm m).stepped m.mode_ne_emergency

theorem Portal.Lawful.expires {x y : Portal} (h : x.Lawful) (hm : x.mode = .auto ∨ x.mode = .manual)
    (hy : x.Expires y) : y.Lawful := by
  have hexpired := h.expired hm
  obtain ⟨hramp, hkept⟩ := x.expired_refresh
  obtain ⟨hy, hrefresh | ⟨hmode, hrefresh⟩⟩ := hy
  · rw [hy, hrefresh, ← hkept]; exact hexpired
  · rw [hy, hrefresh, ← hramp]; exact hexpired.refreshStarted hmode

end Sys2Proof.Machine
end

section
/-! SUPPORT. The mode law and the ranges of every portal, through each command and event. -/

namespace Sys2Proof.Machine

/-- Each portal keeps its mode law and the ranges of its settings, levels and timers. -/
def PortalsLawful (s : State) : Prop := ∀ p, (s.portal p).Lawful

theorem reads_portalsLawful : Reads [.portals] PortalsLawful := fun s t _ _ hsame h p => by
  have hportals : t.portals = s.portals := hsame .portals (by decide)
  rw [State.portal, hportals]
  exact h p

namespace PortalsLawful

variable {s t : State}

theorem of_portals (h : PortalsLawful s) (ht : t.portals = s.portals) : PortalsLawful t := fun p => by
  rw [State.portal, ht]
  exact h p

theorem setPortal (h : PortalsLawful s) {p : Fin 4} {y : Portal} (hy : y.Lawful) : PortalsLawful (s.setPortal p y) :=
  s.portal_setPortal_induction (P := fun _ x => x.Lawful) hy fun q _ => h q

theorem setMeter (h : PortalsLawful s) (m : Fin 8) (x : Meter) : PortalsLawful (s.setMeter m x) := h.of_portals rfl

theorem photometry (h : PortalsLawful s) (ht : OnlyPhotometry s t) : PortalsLawful t := fun p => by
  rw [ht.portal p]
  exact (h p).photometry _ _ _

theorem timers (h : PortalsLawful s) (ht : TimersStarted s t) : PortalsLawful t := fun p => by
  obtain hp | ⟨hm, hp⟩ := ht p
  · rw [hp]; exact h p
  · rw [hp]; exact (h p).refreshStarted hm

theorem commitProfile (h : PortalsLawful s) (p : Fin 4) : PortalsLawful (commitProfile p s) := fun q => by
  by_cases hq : q = p
  · subst hq; rw [portal_commitProfile]; exact (h q).committed _
  · rw [portal_commitProfile_of_ne hq]; exact h q

theorem enterAll (h : PortalsLawful s) : PortalsLawful (enterAll s) := fun p => by
  by_cases he : (s.portal p).enters
  · rw [(portal_enterAll s p).1 he]; exact (h p).entered he.2
  · rw [(portal_enterAll s p).2 he]; exact h p

theorem examineEmergN (h : PortalsLawful s) : PortalsLawful (examineEmergN s) := by
  unfold Machine.examineEmergN
  split
  · exact h.enterAll
  · exact h

theorem enterEmergency (h : PortalsLawful s) {p : Fin 4} (hm : (s.portal p).mode ≠ .emergency) :
    PortalsLawful (enterEmergency p s) := fun q => by
  by_cases hq : q = p
  · subst hq; rw [portal_enterEmergency]; exact (h q).entered hm
  · rw [portal_enterEmergency_of_ne hq]; exact h q

theorem couple (h : PortalsLawful s) (p : Fin 4) (leader : Option (Fin 4)) : PortalsLawful (couple p leader s) := by
  unfold Machine.couple
  split
  · exact h
  · have written : PortalsLawful (s.setPortal p { s.portal p with leader := leader }) := h.setPortal (h p)
    exact written.photometry (onlyPhotometry_evalCondition ..)

theorem startPortal (h : PortalsLawful s) {p : Fin 4} (hm : (s.portal p).mode = .halted) (m : RunMode) :
    PortalsLawful (startPortal p m s) := by
  have hmode : ((Machine.commitProfile p s).portal p).mode = .halted := by rw [portal_commitProfile]; exact hm
  have started : PortalsLawful ((Machine.commitProfile p s).setPortal p
      (((Machine.commitProfile p s).portal p).started m)) :=
    (h.commitProfile p).setPortal ((h.commitProfile p p).started hmode m)
  exact started.timers (timersStarted_requestSweep p _)

theorem rampPhases (h : PortalsLawful s) {p : Fin 4} (hm : (s.portal p).mode = .auto ∨ (s.portal p).mode = .manual) :
    PortalsLawful (rampPhases p s) := fun q => by
  by_cases hq : q = p
  · subst hq; exact (h q).expires hm (portal_rampPhases q s)
  · rw [portal_rampPhases_of_ne hq]; exact h q

theorem rampExpired (h : PortalsLawful s) (p : Fin 4) : PortalsLawful (rampExpired p s) := by
  unfold Machine.rampExpired
  split
  next hruns =>
    refine forEach_induction (P := PortalsLawful) _ (h.rampPhases (Portal.running_iff.1 hruns.2)) fun q _ t ht => ?_
    unfold followerExpiry
    split
    next hq => exact ht.rampPhases (Portal.running_iff.1 hq)
    · exact ht
  · exact h

theorem command {ts : List Table} (h : PortalsLawful s) (heffect : CommandEffect s ts t)
    (htouched : ∃ x ∈ ts, x ∈ [Table.portals]) : PortalsLawful t := by
  cases heffect
  case restart =>
    have restarted : PortalsLawful (restartValues s) := fun p => by
      rw [portal_restartValues]; exact (h p).restarted
    exact (restarted.photometry (onlyPhotometry_evaluateAll _)).examineEmergN
  case removeMeter m =>
    exact (h.setMeter m _).photometry (onlyPhotometry_evalFormer ..)
  case configureMeter m address p _ _ _ =>
    exact (h.setMeter m _).photometry
      ((onlyPhotometry_evalFormer ..).trans (onlyPhotometry_evalCondition ..))
  case setProfile p v hv => exact h.setPortal ((h p).setPending hv)
  case setProfileAtOnce p v hv => exact (h.setPortal ((h p).setPending hv)).commitProfile p
  case start p m hm => exact h.startPortal hm m
  case halt p hm => exact (h.setPortal ((h p).halted hm)).timers (timersStarted_abandonSweep p _)
  case setRamp p r hsteps hup hdown hdead hrefresh =>
    exact h.setPortal ((h p).setRamp hsteps hup hdown hdead hrefresh)
  case requestMode p m hm => exact h.setPortal ((h p).requested hm m)
  case setStageLevel p i level hl _ => exact h.setPortal ((h p).setManual i hl)
  case uncouple p => exact h.couple p none
  case couple p q _ => exact h.couple p (some q)
  case setEmergencyEnable p on => exact h.setPortal (h p)
  case enableInEmergency p _ hm =>
    have written : PortalsLawful (s.setPortal p { s.portal p with emergencyEnable := true }) := h.setPortal (h p)
    exact written.enterEmergency (by rw [State.portal_setPortal_self]; exact hm)
  case release p hm _ =>
    have written : PortalsLawful (s.setPortal p ((s.portal p).released ((s.portal p).returnMode.getD .halted))) :=
      h.setPortal ((h p).released hm _)
    exact written.of_portals rfl
  case removePlan p _ _ =>
    exact (h.of_portals (t := s.setPlan p none) rfl).photometry (onlyPhotometry_evalStageShort ..)
  case setPlan p q _ _ _ _ =>
    exact (h.of_portals (t := s.setPlan p (some q)) rfl).photometry (onlyPhotometry_evalStageShort ..)
  case admission x capability lmin _ _ => exact h.timers (timersStarted_fillSlot x capability lmin s)
  case amendAsking n _ _ _ _ _ _ =>
    exact h.timers ((timersStarted_requestForSlot n _).after (.of_setRecord (ts := [.roster]) s n _))
  case move n k _ _ _ _ _ _ => exact h.timers (timersStarted_moveRecord n k s)
  case retire n q _ _ _ _ _ => exact h.timers (timersStarted_retireRecord n q s)
  case clearFault n _ _ _ => exact h.timers (timersStarted_clearFaultOf n s)
  case resweep p _ => exact h.timers (timersStarted_requestSweep p s)
  case setLine l limit _ _ => exact h.timers (timersStarted_applyLimit l limit s)
  all_goals exact absurd htouched (by decide)

theorem applyPoll (h : PortalsLawful s) (a : Nat) (result : Option (MeterStatus × Nat)) :
    PortalsLawful (applyPoll a result s) := by
  unfold Machine.applyPoll
  split
  · exact h
  next m _ =>
    split
    · exact (h.setMeter m _).photometry (onlyPhotometry_readingArrival ..)
    · exact h.setMeter m _
    · exact h.setMeter m _

theorem holdExpired (h : PortalsLawful s) (m : Fin 8) : PortalsLawful (holdExpired m s) := by
  unfold Machine.holdExpired
  dsimp only
  split
  next q _ _ =>
    split
    · have lost : PortalsLawful (handEvent (meterLostClass q.portal)
          (s.setMeter m { s.meter m with state := .lost, lost := true, hold := none })) := h.of_portals rfl
      exact lost.photometry (onlyPhotometry_evalCondition ..)
    · exact h
  · exact h

theorem event {ts : List Table} (h : PortalsLawful s) (heffect : EventEffect s ts t)
    (htouched : ∃ x ∈ ts, x ∈ [Table.portals]) : PortalsLawful t := by
  cases heffect
  case emergNAssertion =>
    unfold emergNAsserted
    split
    · exact h
    · exact (h.of_portals (t := { s with emergN := s.straps.getLsbD 3 }) rfl).enterAll
  case rampExpiry p => exact h.rampExpired p
  case refreshTimerExpiry p =>
    unfold refreshExpired
    split
    · exact (h.setPortal (h p).refreshStopped).timers (timersStarted_requestSweep p _)
    · exact h
  case holdTimerExpiry m => exact h.holdExpired m
  case pollCompletion c0 c1 c2 c3 c4 =>
    unfold Machine.pollCompletion
    split
    · exact h
    · exact (h.of_portals (t := { s with poll := none }) rfl).applyPoll _ _
  case pollWindowClose =>
    unfold Machine.pollWindowClose
    split
    · exact h
    · exact (h.of_portals (t := { s with poll := none }) rfl).applyPoll _ _
  case exchangeCompletion l chars => exact h.timers (timersStarted_exchangeCompletion l chars s)
  all_goals exact absurd htouched (by decide)

theorem poweredUp (h : PortalsLawful s) (straps : BitVec 4) (pins : PinLevels) :
    PortalsLawful (poweredUp straps pins s) := by
  have sampled : PortalsLawful { s with resetN := true, straps := straps, emergN := pins.emergN } := h.of_portals rfl
  exact (sampled.photometry (onlyPhotometry_evaluateAll _)).examineEmergN

end PortalsLawful

theorem portalsLawful_reset : PortalsLawful State.reset := by
  have hrange := rangeLaw_of_check (s := State.reset) (by decide +kernel)
  have hmode : ∀ p, ModeLaw (State.reset.portal p) := by unfold ModeLaw; decide +kernel
  obtain ⟨-, -, hportals, -⟩ := hrange
  exact fun p => ⟨hmode p, (hportals p).2⟩

end Sys2Proof.Machine
end

section
/-! SUPPORT. The commands and events that leave every portal's condition, Lf and leader as they are. -/

namespace Sys2Proof.Machine

/-- What an evaluation of photometry goes by in a portal: its condition, its Lf and its leader. -/
def Portal.photometry (x : Portal) : Condition × Option Nat × Option (Fin 4) := (x.condition, x.lf, x.leader)

/-- No portal's condition, Lf or leader differs. -/
def PhotometryKept (s t : State) : Prop := ∀ p, (t.portal p).photometry = (s.portal p).photometry

namespace PhotometryKept

variable {s t u : State}

theorem condition (h : PhotometryKept s t) (p : Fin 4) : (t.portal p).condition = (s.portal p).condition :=
  congrArg (·.1) (h p)

theorem lf (h : PhotometryKept s t) (p : Fin 4) : (t.portal p).lf = (s.portal p).lf := congrArg (·.2.1) (h p)

theorem leader (h : PhotometryKept s t) (p : Fin 4) : (t.portal p).leader = (s.portal p).leader :=
  congrArg (·.2.2) (h p)

theorem refl (s : State) : PhotometryKept s s := fun _ => rfl

theorem trans (h : PhotometryKept s t) (k : PhotometryKept t u) : PhotometryKept s u := fun p => (k p).trans (h p)

theorem of_portals (h : t.portals = s.portals) : PhotometryKept s t := fun p => by rw [State.portal, h]; rfl

theorem setPortal {p : Fin 4} {y : Portal} (h : y.photometry = (s.portal p).photometry) :
    PhotometryKept s (s.setPortal p y) :=
  s.portal_setPortal_induction (P := fun q x => x.photometry = (s.portal q).photometry) h fun _ _ => rfl

theorem onlySweeps (h : OnlySweeps s t) : PhotometryKept s t := fun p => by rw [h.portal]; rfl

theorem timers (h : TimersStarted s t) : PhotometryKept s t := fun p => by
  obtain hp | ⟨-, hp⟩ := h p
  · rw [hp]
  · rw [hp]; rfl

theorem evalStageShort (p : Fin 4) (s : State) : PhotometryKept s (evalStageShort p s) := fun q => by
  rw [portal_evalStageShort]; rfl

theorem commitProfile (p : Fin 4) (s : State) : PhotometryKept s (commitProfile p s) := fun q => by
  by_cases h : q = p
  · subst h; rw [portal_commitProfile]; rfl
  · rw [portal_commitProfile_of_ne h]

theorem enterEmergency (p : Fin 4) (s : State) : PhotometryKept s (enterEmergency p s) := fun q => by
  by_cases h : q = p
  · subst h; rw [portal_enterEmergency]; rfl
  · rw [portal_enterEmergency_of_ne h]

theorem forEach {α : Type} (xs : List α) {f : α → State → State} (h : ∀ x t, PhotometryKept t (f x t)) (s : State) :
    PhotometryKept s (forEach xs f s) :=
  forEach_induction (P := PhotometryKept s) xs (.refl s) fun x _ t ht => ht.trans (h x t)

theorem enterAll (s : State) : PhotometryKept s (enterAll s) :=
  .forEach _ (fun p t => by
    unfold enterIfEnabled
    split
    · exact .enterEmergency p t
    · exact .refl t) s

theorem examineEmergN (s : State) : PhotometryKept s (examineEmergN s) := by
  unfold Machine.examineEmergN
  split
  · exact .enterAll s
  · exact .refl s

theorem requested (x : Portal) (m : RunMode) : (x.requested m).photometry = x.photometry := by
  unfold Portal.requested
  split
  · rfl
  · split <;> rfl

theorem rampPhases (p : Fin 4) (s : State) : PhotometryKept s (rampPhases p s) := fun q => by
  by_cases h : q = p
  · subst h
    rw [(portal_rampPhases q s).1]
    cases hm : (s.portal q).pendingMode
    · rw [Portal.expired_of_none hm]; rfl
    · rw [Portal.expired_of_some hm]; rfl
  · rw [portal_rampPhases_of_ne h]

theorem rampExpired (p : Fin 4) (s : State) : PhotometryKept s (rampExpired p s) := by
  unfold Machine.rampExpired
  split
  · refine (rampPhases p s).trans (.forEach _ (fun q t => ?_) _)
    unfold followerExpiry
    split
    · exact .rampPhases q t
    · exact .refl t
  · exact .refl s

theorem writePlan (p : Fin 4) (q : Option Plan) (s : State) : PhotometryKept s (writePlan p q s) :=
  (of_portals (t := s.setPlan p q) rfl).trans (.evalStageShort p _)

/-- Of the commands, only those that write the meter table or the coupling change photometry. -/
theorem command {ts : List Table} (heffect : CommandEffect s ts t) (hmeters : .meters ∉ ts)
    (hcouple : ∀ p leader, (∀ q, leader = some q → badCoupling s p q = false) → t ≠ couple p leader s) :
    PhotometryKept s t := by
  by_cases htouched : .portals ∈ ts
  case neg => exact .of_portals (heffect.writes.portals htouched)
  cases heffect
  case restart | removeMeter | configureMeter => exact absurd (by decide) hmeters
  case setProfile | setRamp | setStageLevel | setEmergencyEnable => exact .setPortal (by rfl)
  case setProfileAtOnce p v _ => exact (setPortal (by rfl)).trans (.commitProfile p _)
  case start p m _ =>
    exact ((commitProfile p s).trans (.setPortal (by rfl))).trans (.onlySweeps (onlySweeps_requestSweep p _))
  case halt p _ => exact (setPortal (by rfl)).trans (.onlySweeps (onlySweeps_abandonSweep p _))
  case requestMode p m _ => exact .setPortal (requested _ m)
  case uncouple p => exact absurd rfl (hcouple p none nofun)
  case couple p q hgood => exact absurd rfl (hcouple p (some q) fun r hr => by cases hr; exact hgood)
  case enableInEmergency p _ _ => exact (setPortal (by rfl)).trans (.enterEmergency p _)
  case release p _ _ => exact setPortal (s := s) (y := (s.portal p).released _) (by rfl)
  case removePlan p _ _ => exact .writePlan p none s
  case setPlan p q _ _ _ _ => exact .writePlan p (some q) s
  case admission x capability lmin _ _ => exact .timers (timersStarted_fillSlot x capability lmin s)
  case amendAsking n _ _ _ _ _ _ =>
    exact .timers ((timersStarted_requestForSlot n _).after (.of_setRecord (ts := [.roster]) s n _))
  case move n k _ _ _ _ _ _ => exact .timers (timersStarted_moveRecord n k s)
  case retire n q _ _ _ _ _ => exact .timers (timersStarted_retireRecord n q s)
  case clearFault n _ _ _ => exact .timers (timersStarted_clearFaultOf n s)
  case resweep p _ => exact .timers (timersStarted_requestSweep p s)
  case setLine l limit _ _ => exact .timers (timersStarted_applyLimit l limit s)
  all_goals exact absurd htouched (by decide)

/-- Of the events, only those that write the meter table change photometry. -/
theorem event {ts : List Table} (heffect : EventEffect s ts t) (hmeters : .meters ∉ ts) : PhotometryKept s t := by
  by_cases htouched : .portals ∈ ts
  case neg => exact .of_portals (heffect.writes.portals htouched)
  cases heffect
  case holdTimerExpiry | pollCompletion | pollWindowClose => exact absurd (by decide) hmeters
  case emergNAssertion =>
    unfold emergNAsserted
    split
    · exact .refl s
    · exact enterAll { s with emergN := s.straps.getLsbD 3 }
  case rampExpiry p => exact .rampExpired p s
  case refreshTimerExpiry p =>
    unfold refreshExpired
    split
    · exact (setPortal (by rfl)).trans (.timers (timersStarted_requestSweep p _))
    · exact .refl s
  case exchangeCompletion l chars => exact .timers (timersStarted_exchangeCompletion l chars s)
  all_goals exact absurd htouched (by decide)

end PhotometryKept

/-! ## The range of Lf (R12) -/

theorem filterStep_le {w la : Nat} (hw : w ≤ 16) (hla : la ≤ 12000) {lf : Option Nat} (hlf : ∀ v, lf = some v → v ≤ 12000) :
    filterStep w lf la ≤ 12000 := by
  unfold filterStep
  split
  · exact hla
  next v =>
    have hv := hlf v rfl
    split
    next hle =>
      have hstep : ((la - v) * w + 8) / 16 ≤ la - v := by
        have : (la - v) * w ≤ (la - v) * 16 := Nat.mul_le_mul_left _ hw
        omega
      omega
    · omega

/-- R7, R12, R19: the stored readings, each portal's Lf and its active profile lie in their ranges. -/
structure PhotometryInRange (s : State) : Prop where
  lf : ∀ p v, (s.portal p).lf = some v → v ≤ 12000
  active : ∀ p, (s.portal p).active.inRange
  reading : ∀ m v, (s.meter m).reading = some v → v ≤ 12000

namespace PhotometryInRange

variable {s : State}

theorem photometry {t : State} (h : PhotometryInRange s) (ht : OnlyPhotometry s t)
    (hlf : ∀ p v, (t.portal p).lf = some v → v ≤ 12000) : PhotometryInRange t :=
  ⟨hlf, fun p => by rw [ht.portal]; exact h.active p, fun m => by rw [(ht.writes (ts := [.portals, .notices])).meter]; exact h.reading m⟩

theorem kept {t : State} (h : PhotometryInRange s) (ht : OnlyPhotometry s t) (hkept : PhotometryKept s t) :
    PhotometryInRange t := h.photometry ht fun p => by rw [hkept.lf]; exact h.lf p

theorem lfOnEntry (h : PhotometryInRange s) (p : Fin 4) (c : Condition) {v : Nat} (hv : lfOnEntry s p c = some v) :
    v ≤ 12000 := by
  have hlfb : (s.portal p).active.lfb ≤ 12000 := by
    obtain ⟨-, -, -, -, -, -, hlfb, -⟩ := h.active p
    exact hlfb
  unfold Machine.lfOnEntry at hv
  split at hv
  · exact h.lf p v hv
  · cases hv
  · split at hv
    next hlf => exact h.lf p v (hlf.trans hv)
    · unfold leaderLf at hv
      split at hv
      · cases hv
      next q _ => exact h.lf q v hv
  · split at hv <;> cases hv
    next lf hlf =>
      have := h.lf p lf hlf
      omega
    · exact hlfb

theorem setLf (h : PhotometryInRange s) (p : Fin 4) {y : Portal} (hactive : y.active = (s.portal p).active)
    (hlf : ∀ v, y.lf = some v → v ≤ 12000) : PhotometryInRange (s.setPortal p y) :=
  ⟨s.portal_setPortal_induction (P := fun _ x => ∀ v, x.lf = some v → v ≤ 12000) hlf fun q _ => h.lf q,
    s.portal_setPortal_induction (P := fun _ x => x.active.inRange) (hactive ▸ h.active p) fun q _ => h.active q,
    h.reading⟩

theorem evalStageShort (h : PhotometryInRange s) (p : Fin 4) : PhotometryInRange (evalStageShort p s) :=
  h.kept (onlyPhotometry_evalStageShort p s) (.evalStageShort p s)

theorem handPhotometry (h : PhotometryInRange s) (p : Fin 4) (old new : Condition) :
    PhotometryInRange (handPhotometry p old new s) := by
  have hw : Writes [.notices] s (Machine.handPhotometry p old new s) := by
    unfold Machine.handPhotometry
    split
    · exact .of_handTrue ..
    · split
      · exact .of_handFalse ..
      · exact .refl s
  exact ⟨fun q => by rw [hw.portal]; exact h.lf q, fun q => by rw [hw.portal]; exact h.active q,
    fun m => by rw [hw.meter]; exact h.reading m⟩

theorem evalOwnCondition (h : PhotometryInRange s) (p : Fin 4) : PhotometryInRange (evalOwnCondition p s) := by
  unfold Machine.evalOwnCondition
  dsimp only
  split
  · exact h
  · exact ((h.setLf p (by rfl) fun v hv => h.lfOnEntry p _ hv).handPhotometry p _ _).evalStageShort p

theorem forEach {α : Type} {f : α → State → State} (hf : ∀ x t, PhotometryInRange t → PhotometryInRange (f x t))
    (xs : List α) (h : PhotometryInRange s) : PhotometryInRange (forEach xs f s) :=
  forEach_induction xs h fun x _ t ht => hf x t ht

theorem evalFollowers (h : PhotometryInRange s) (p : Fin 4) : PhotometryInRange (evalFollowers p s) :=
  h.forEach (fun q _ ht => ht.evalOwnCondition q) _

theorem evalCondition (h : PhotometryInRange s) (p : Fin 4) : PhotometryInRange (evalCondition p s) := by
  unfold Machine.evalCondition
  dsimp only
  split
  · exact h.evalOwnCondition p
  · exact (h.evalOwnCondition p).evalFollowers p

theorem evalFormer (h : PhotometryInRange s) (former : Option MeterSite) (now : Option (Fin 4)) :
    PhotometryInRange (evalFormer former now s) := by
  unfold Machine.evalFormer
  split
  · exact h
  · split
    · exact h
    · exact h.evalCondition _

theorem evaluateAll (h : PhotometryInRange s) : PhotometryInRange (evaluateAll s) :=
  (h.forEach (fun p _ ht => ht.evalCondition p) _).forEach (fun p _ ht => ht.evalStageShort p) _

theorem revise (h : PhotometryInRange s) (p : Fin 4) {la : Option Nat} (hla : ∀ v, la = some v → v ≤ 12000) :
    PhotometryInRange (revise p la s) := by
  unfold Machine.revise
  split
  · exact h
  next v =>
    have hw : (s.portal p).active.w ≤ 16 := by
      obtain ⟨-, -, -, -, -, hw, -⟩ := h.active p
      exact hw.2
    refine (h.setLf p (by rfl) fun u hu => ?_).evalStageShort p
    cases hu
    exact filterStep_le hw (hla v rfl) (h.lf p)

theorem approach_le (h : PhotometryInRange s) (p : Fin 4) {v : Nat} (hv : approach s p = some v) : v ≤ 12000 := by
  obtain ⟨⟨m, -, -, -, -, hm⟩, -⟩ := largestReading_of_approach hv
  exact h.reading m v hm

theorem reviseFollowers (h : PhotometryInRange s) (p : Fin 4) {la : Option Nat} (hla : ∀ v, la = some v → v ≤ 12000) :
    PhotometryInRange (reviseFollowers p la s) :=
  h.forEach (fun q t ht => by
    split
    · exact ht.revise q hla
    · exact ht) _

theorem readingArrival (h : PhotometryInRange s) (p : Fin 4) : PhotometryInRange (readingArrival p s) := by
  have hown := h.evalOwnCondition p
  have hla : ∀ v, approach (Machine.evalOwnCondition p s) p = some v → v ≤ 12000 := fun v => hown.approach_le p
  have hrevised : PhotometryInRange (if ((Machine.evalOwnCondition p s).portal p).condition = .live then
      Machine.revise p (approach (Machine.evalOwnCondition p s) p) (Machine.evalOwnCondition p s)
      else Machine.evalOwnCondition p s) := by
    split
    · exact hown.revise p hla
    · exact hown
  unfold Machine.readingArrival
  dsimp only
  refine reviseFollowers ?_ p hla
  split
  · exact hrevised
  · exact hrevised.evalFollowers p

theorem setMeter (h : PhotometryInRange s) (m : Fin 8) {x : Meter} (hx : ∀ v, x.reading = some v → v ≤ 12000) :
    PhotometryInRange (s.setMeter m x) := by
  refine ⟨h.lf, h.active, fun k => ?_⟩
  by_cases hk : k = m
  · subst hk; rw [State.meter_setMeter_self]; exact hx
  · rw [State.meter_setMeter_of_ne _ _ _ _ hk]; exact h.reading k

theorem couple (h : PhotometryInRange s) (p : Fin 4) (leader : Option (Fin 4)) :
    PhotometryInRange (couple p leader s) := by
  unfold Machine.couple
  split
  · exact h
  · have written : PhotometryInRange (s.setPortal p { s.portal p with leader := leader }) :=
      h.setLf p (by rfl) (h.lf p)
    exact written.evalCondition p

theorem holdExpired (h : PhotometryInRange s) (m : Fin 8) : PhotometryInRange (holdExpired m s) := by
  unfold Machine.holdExpired
  dsimp only
  split
  · split
    · refine evalCondition ?_ _
      have lost := h.setMeter m (x := { s.meter m with state := .lost, lost := true, hold := none }) (h.reading m)
      exact ⟨lost.lf, lost.active, lost.reading⟩
    · exact h
  · exact h

theorem applyPoll (h : PhotometryInRange s) (a : Nat) (result : Option (MeterStatus × Nat)) :
    PhotometryInRange (applyPoll a result s) := by
  unfold Machine.applyPoll
  split
  · exact h
  next m _ =>
    split
    next luminance _ _ =>
      refine (h.setMeter m fun v hv => ?_).readingArrival _
      cases hv
      exact Nat.min_le_right _ _
    · exact h.setMeter m (h.reading m)
    · exact h.setMeter m (h.reading m)

end PhotometryInRange

end Sys2Proof.Machine
end

section
/-! SUPPORT. What each command and event makes of a meter table entry, and the ranges of the meter table (R1, R4, R7). -/

namespace Sys2Proof.Machine

/-! ## The entries -/

/-- What a command or an event leaves in the meter table entry of a number. -/
inductive MeterLeft (s : State) (m : Fin 8) : Meter → Prop where
  | same : MeterLeft s m (s.meter m)
  | removed : MeterLeft s m .unconfigured
  | configured (address : Nat) (p : Fin 4) (hrange : 1 ≤ address ∧ address ≤ 31)
      (hfree : meterAddressUsed s m address = false) (hlimit : meterLimitReached s m p = false) :
      MeterLeft s m (configuredMeter s address p)
  | restarted : MeterLeft s m (restartedMeter s (s.meter m))
  | told : MeterLeft s m { s.meter m with lost := false }
  | due (b : Bool) (hsite : (s.meter m).site ≠ none) : MeterLeft s m { s.meter m with due := b }
  | expired (hhold : (s.meter m).hold ≠ none) :
      MeterLeft s m { s.meter m with state := .lost, lost := true, hold := none }
  | valid (q : MeterSite) (luminance : Nat) (hsite : (s.meter m).site = some q) :
      MeterLeft s m { s.meter m with
        reading := some (min luminance Config.readingMax), status := some .valid, state := .online,
        hold := some (s.portal q.portal).active.hold }
  | status (st : Option MeterStatus) : MeterLeft s m { s.meter m with status := st }

theorem meterLeft_of_eq {s : State} {m : Fin 8} {x : Meter} (h : x = s.meter m) : MeterLeft s m x := h ▸ .same

/-- One entry is written, the others are as they were. -/
theorem meterLeft_setMeter {s : State} {m : Fin 8} {x : Meter} (h : MeterLeft s m x) (k : Fin 8) :
    MeterLeft s k ((s.setMeter m x).meter k) := by
  by_cases hk : k = m
  · subst hk; rwa [State.meter_setMeter_self]
  · exact meterLeft_of_eq (State.meter_setMeter_of_ne _ _ _ _ hk)

theorem meter_clearReported (x : Photo) (s : State) (m : Fin 8) :
    (clearReported x s).meter m = s.meter m ∨ (clearReported x s).meter m = { s.meter m with lost := false } := by
  rw [clearReported_eq, meter_forEach_clearLost]
  split
  · exact .inr rfl
  · exact .inl rfl

theorem meterLeft_clearReported {x : Photo} {s t : State} (ht : ∀ m, t.meter m = s.meter m) (m : Fin 8) :
    MeterLeft s m ((clearReported x t).meter m) := by
  obtain h | h := meter_clearReported x t m
  · exact meterLeft_of_eq (h.trans (ht m))
  · rw [h, ht]; exact .told

theorem CommandEffect.meterLeft {s t : State} {ts : List Table} (h : CommandEffect s ts t) (m : Fin 8) :
    MeterLeft s m (t.meter m) := by
  by_cases htouched : .meters ∈ ts
  case neg => exact meterLeft_of_eq (h.writes.meter m htouched)
  cases h
  case restart =>
    have after := ((onlyPhotometry_evaluateAll (restartValues s)).writes (ts := [.portals, .sweeps, .notices])).trans
      (writes_examineEmergN _)
    rw [after.meter, meter_restartValues]
    exact .restarted
  case removeMeter k =>
    rw [Machine.removeMeter, ((onlyPhotometry_evalFormer ..).writes (ts := [.portals, .notices])).meter]
    exact meterLeft_setMeter .removed m
  case configureMeter k address p hrange hfree hlimit =>
    rw [Machine.configureMeter, (((onlyPhotometry_evalFormer ..).trans (onlyPhotometry_evalCondition ..)).writes
      (ts := [.portals, .notices])).meter]
    exact meterLeft_setMeter (.configured address p hrange hfree hlimit) m
  case readPortal p => exact meterLeft_clearReported (fun _ => rfl) m
  case readSnapshot p shown =>
    exact meterLeft_clearReported (s := s) (t := s.setSnapshot p { photo := none, output := none }) (fun _ => rfl) m
  all_goals exact absurd htouched (by decide)

theorem meterLeft_applyPoll (a : Nat) (result : Option (MeterStatus × Nat)) (s : State) (m : Fin 8) :
    MeterLeft s m ((applyPoll a result s).meter m) := by
  unfold applyPoll
  split
  · exact .same
  next k _ =>
    split
    next q luminance hsite =>
      rw [applyValid, ((onlyPhotometry_readingArrival ..).writes (ts := [.portals, .notices])).meter]
      exact meterLeft_setMeter (.valid q luminance hsite) m
    next st _ _ => exact meterLeft_setMeter (.status (some st)) m
    · exact meterLeft_setMeter (.status none) m

theorem MeterLeft.of_poll {s : State} {a : Option Nat} {m : Fin 8} {x : Meter}
    (h : MeterLeft { s with poll := a } m x) : MeterLeft s m x := by
  cases h
  case same => exact .same
  case removed => exact .removed
  case configured address p hrange hfree hlimit => exact .configured (s := s) address p hrange hfree hlimit
  case restarted => exact .restarted
  case told => exact .told
  case due b hsite => exact .due b hsite
  case expired hhold => exact .expired hhold
  case valid q luminance hsite => exact .valid q luminance hsite
  case status st => exact .status st

/-- R4: the entry polled next is configured and due, and its address is polled. -/
theorem site_of_nextPoll {s : State} {m : Fin 8} {a : Nat} (h : nextPoll s = some (m, a)) :
    ∃ q, (s.meter m).site = some q ∧ a = q.address ∧ (s.meter m).due = true := by
  unfold nextPoll at h
  obtain ⟨k, -, hk⟩ := List.exists_of_findSome?_eq_some h
  split at hk
  next q hq =>
    split at hk
    next hdue => cases hk; exact ⟨q, hq, rfl, hdue⟩
    · cases hk
  · cases hk

theorem EventEffect.meterLeft {s t : State} {ts : List Table} (h : EventEffect s ts t) (m : Fin 8) :
    MeterLeft s m (t.meter m) := by
  by_cases htouched : .meters ∈ ts
  case neg => exact meterLeft_of_eq (h.writes.meter m htouched)
  cases h
  case holdTimerExpiry k =>
    unfold Machine.holdExpired
    dsimp only
    split
    next q hhold hsite =>
      split
      · rw [((onlyPhotometry_evalCondition ..).writes (ts := [.portals, .notices])).meter]
        exact meterLeft_setMeter (.expired (by rw [hhold]; nofun)) m
      · exact .same
    · exact .same
  case pollDue k =>
    unfold Machine.pollDue
    split
    next hsite => exact meterLeft_setMeter (.due true (Option.isSome_iff_ne_none.1 hsite)) m
    · exact .same
  case pollStart =>
    unfold Machine.pollStart
    split
    next k address _ hnext =>
      obtain ⟨q, hsite, -⟩ := site_of_nextPoll hnext
      exact meterLeft_setMeter (.due false (by rw [hsite]; nofun)) m
    · exact .same
  case pollCompletion c0 c1 c2 c3 c4 =>
    unfold Machine.pollCompletion
    split
    · exact .same
    · exact (meterLeft_applyPoll _ _ { s with poll := Option.none } m).of_poll
  case pollWindowClose =>
    unfold Machine.pollWindowClose
    split
    · exact .same
    · exact (meterLeft_applyPoll _ _ { s with poll := Option.none } m).of_poll
  all_goals exact absurd htouched (by decide)

/-! ## Their ranges -/

theorem Profile.inRange.hold {v : Profile} (h : v.inRange) : 2 ≤ v.hold ∧ v.hold ≤ 60 := by
  obtain ⟨-, -, -, -, -, -, -, hhold, -⟩ := h
  exact hhold

theorem MeterLeft.inRange {s : State} {m : Fin 8} {x : Meter} (h : MeterLeft s m x) (hm : (s.meter m).inRange)
    (hactive : ∀ p, (s.portal p).active.inRange) : x.inRange := by
  obtain ⟨hsite, hreading, hhold⟩ := hm
  cases h
  case same | told | due | status => exact ⟨hsite, hreading, hhold⟩
  case removed => exact ⟨nofun, nofun, nofun⟩
  case configured address p hrange _ _ =>
    refine ⟨fun q e => ?_, nofun, fun h e => ?_⟩
    · cases e; exact hrange
    · cases e; exact (hactive p).hold
  case restarted =>
    unfold restartedMeter
    split
    · exact ⟨hsite, hreading, hhold⟩
    next q _ =>
      refine ⟨hsite, nofun, fun h e => ?_⟩
      cases e
      exact (hactive q.portal).hold
  case expired => exact ⟨hsite, hreading, nofun⟩
  case valid q luminance _ =>
    refine ⟨hsite, fun v e => ?_, fun h e => ?_⟩
    · cases e; exact Nat.min_le_right _ _
    · cases e; exact (hactive q.portal).hold

/-- R1, R4: the ranges of the meter table, and of the address that is polled. -/
def MetersInRange (s : State) : Prop := (∀ m, (s.meter m).inRange) ∧ ∀ a, s.poll = some a → 1 ≤ a ∧ a ≤ 31

theorem reads_metersInRange : Reads [.meters, .polls] MetersInRange := fun s t _ _ hsame h => by
  have hmeters : t.meters = s.meters := hsame .meters (by decide)
  have hpoll : t.poll = s.poll := congrArg Prod.snd (hsame .polls (by decide))
  refine ⟨fun m => ?_, fun a => ?_⟩
  · rw [State.meter, hmeters]; exact h.1 m
  · rw [hpoll]; exact h.2 a

theorem Writes.poll {ts : List Table} {s t : State} (h : Writes ts s t) (hn : .polls ∉ ts := by decide) :
    t.poll = s.poll := congrArg Prod.snd (h.kept .polls hn)

theorem poll_restart (s : State) : (examineEmergN (evaluateAll (restartValues s))).poll = none := by
  have blocks := ((((writes_restartPortals (restartMeters (restartNotices s))).mono
    (ts := [.portals, .roster, .sweeps, .lines, .snapshots, .notices])).trans (writes_restartRoster _).mono).trans
    (writes_restartSweeps _).mono).trans (writes_restartLines _).mono
  exact (((blocks.trans (writes_restartSnapshots _).mono).trans (onlyPhotometry_evaluateAll _).writes).trans
    (writes_examineEmergN _).mono).poll

theorem poll_command {s t : State} {ts : List Table} (h : CommandEffect s ts t) : t.poll = s.poll ∨ t.poll = none := by
  by_cases htouched : .polls ∈ ts
  case neg => exact .inl (h.writes.poll htouched)
  cases h
  case restart => exact .inr (poll_restart s)
  all_goals exact absurd htouched (by decide)

/-- The address of a poll is that of the entry polled. -/
theorem poll_event {s t : State} {ts : List Table} (h : EventEffect s ts t) :
    t.poll = s.poll ∨ t.poll = none ∨ ∃ m q, (s.meter m).site = some q ∧ t.poll = some q.address := by
  by_cases htouched : .polls ∈ ts
  case neg => exact .inl (h.writes.poll htouched)
  cases h
  case pollStart =>
    unfold Machine.pollStart
    split
    next k address _ hnext =>
      obtain ⟨q, hsite, rfl, -⟩ := site_of_nextPoll hnext
      exact .inr (.inr ⟨k, q, hsite, rfl⟩)
    · exact .inl rfl
  case pollCompletion c0 c1 c2 c3 c4 =>
    unfold Machine.pollCompletion
    split
    · exact .inl rfl
    · exact .inr (.inl (writes_applyPoll _ _ { s with poll := none }).poll)
  case pollWindowClose =>
    unfold Machine.pollWindowClose
    split
    · exact .inl rfl
    · exact .inr (.inl (writes_applyPoll _ _ { s with poll := none }).poll)
  all_goals exact absurd htouched (by decide)

theorem MetersInRange.command {s t : State} {ts : List Table} (h : MetersInRange s)
    (hactive : ∀ p, (s.portal p).active.inRange) (heffect : CommandEffect s ts t) : MetersInRange t := by
  refine ⟨fun m => (heffect.meterLeft m).inRange (h.1 m) hactive, fun a ha => ?_⟩
  obtain hp | hp := poll_command heffect
  · exact h.2 a (hp ▸ ha)
  · rw [hp] at ha; cases ha

theorem MetersInRange.event {s t : State} {ts : List Table} (h : MetersInRange s)
    (hactive : ∀ p, (s.portal p).active.inRange) (heffect : EventEffect s ts t) : MetersInRange t := by
  refine ⟨fun m => (heffect.meterLeft m).inRange (h.1 m) hactive, fun a ha => ?_⟩
  obtain hp | hp | ⟨m, q, hq, hp⟩ := poll_event heffect
  · exact h.2 a (hp ▸ ha)
  · rw [hp] at ha; cases ha
  · rw [hp] at ha
    cases ha
    exact (h.1 m).1 q hq

/-! ## The notice unit (R150, R153) -/

/-- R150, R153: the priorities lie in their range. -/
def NoticesInRange (s : State) : Prop := s.notices.inRange

theorem noticesInRange_iff {s : State} : NoticesInRange s ↔ (∀ c, 1 ≤ (s.noticeClass c).priority
    ∧ (s.noticeClass c).priority ≤ 15) ∧ ∀ e, e ∈ s.notices.stack → 1 ≤ e.priority ∧ e.priority ≤ 15 := Iff.rfl

theorem reads_noticesInRange : Reads [.settings] NoticesInRange := fun s t _ _ hsame h => by
  have hsettings : t.notices.settings = s.notices.settings := hsame .settings (by decide)
  have hstack : t.notices.stack = s.notices.stack := congrArg Prod.fst hsettings
  have hpriority : ∀ c, (t.noticeClass c).priority = (s.noticeClass c).priority := fun c => by
    have hc := congrArg (fun x => x.2.2[c].1) hsettings
    simpa [Notices.settings, State.noticeClass] using hc
  rw [noticesInRange_iff] at h ⊢
  simp only [hstack, hpriority]
  exact h

namespace NoticesInRange

variable {s : State}

theorem setClass (h : NoticesInRange s) (c : Fin 32) {y : NoticeClass} (hy : 1 ≤ y.priority ∧ y.priority ≤ 15) :
    NoticesInRange (s.setNoticeClass c y) := by
  refine ⟨fun k => ?_, h.2⟩
  show 1 ≤ ((s.setNoticeClass c y).noticeClass k).priority ∧ ((s.setNoticeClass c y).noticeClass k).priority ≤ 15
  rw [State.noticeClass_setNoticeClass]
  split
  · exact hy
  · exact h.1 k

theorem setStack (h : NoticesInRange s) {stack : List StackEntry}
    (hstack : ∀ e ∈ stack, 1 ≤ e.priority ∧ e.priority ≤ 15) :
    NoticesInRange { s with notices := { s.notices with stack := stack } } := ⟨h.1, hstack⟩

theorem restartNotices (h : NoticesInRange s) : NoticesInRange (restartNotices s) := by
  unfold Machine.restartNotices
  have hcleared := forEach_induction (P := NoticesInRange) (f := fun c t => t.setNoticeClass c (t.noticeClass c).restarted)
    allClasses h fun c _ t ht => ht.setClass c (y := (t.noticeClass c).restarted) (ht.1 c)
  exact hcleared.setStack nofun

theorem command {t : State} {ts : List Table} (h : NoticesInRange s) (heffect : CommandEffect s ts t)
    (htouched : ∃ x ∈ ts, x ∈ [Table.settings]) : NoticesInRange t := by
  cases heffect
  case restart =>
    exact reads_noticesInRange.keeps (((writes_restartValues_of_notices s).mono
      (ts := [.meters, .polls, .portals, .roster, .sweeps, .lines, .snapshots, .notices])).trans
      (onlyPhotometry_evaluateAll _).writes |>.trans (writes_examineEmergN _).mono) (by decide) h.restartNotices
  case setPriority cs priority hpriority =>
    exact forEach_induction (P := NoticesInRange) cs h fun c _ t ht => ht.setClass c hpriority
  case mask cs masked => exact forEach_induction (P := NoticesInRange) cs h fun c _ t ht => ht.setClass c (ht.1 c)
  case takeNotice c hpick =>
    have hcleared := h.setClass c (y := { s.noticeClass c with pending := false }) (h.1 c)
    unfold takenNotice
    dsimp only
    split
    · exact hcleared
    · exact hcleared.setStack (stack := { cls := c, priority := (s.noticeClass c).priority } :: s.notices.stack)
        (List.forall_mem_cons.2 ⟨h.1 c, h.2⟩)
  case finishNotice e rest hstack =>
    have hpopped := h.setStack (stack := rest) fun x hx => h.2 x (hstack ▸ List.mem_cons_of_mem _ hx)
    unfold finishedNotice
    dsimp only
    split
    · exact hpopped.setClass e.cls (y := { s.noticeClass e.cls with pending := true }) (h.1 e.cls)
    · exact hpopped
  case setAutoFinish => exact h
  all_goals exact absurd htouched (by decide)

end NoticesInRange

end Sys2Proof.Machine
end

section
/-! SUPPORT. The ranges of the records (R61, R82, R122), through each command and event. -/

namespace Sys2Proof.Machine

/-! ## Levels and replies -/

theorem levelChain_le {r : Record} (hpinned : ∀ v, r.pinned = some v → v ≤ 10000) (hlmin : r.lmin ≤ 3000) (mode : Mode)
    (stage bp : Nat) (boost : Bool) : levelChain mode stage bp r boost ≤ 10000 := by
  have hcorrected : corrected stage r.m ≤ 10000 := Nat.min_le_left _ _
  have hboosted : boostedLevel bp (corrected stage r.m) ≤ 10000 := Nat.min_le_left _ _
  unfold levelChain
  split
  · exact Nat.le_refl _
  · split
    next pin hpin =>
      have := hpinned pin hpin
      split <;> omega
    · split
      · omega
      · dsimp only
        split <;> omega

theorem levelOfSlot_le {s : State} {n : Nat} (h : (s.record n).inRange) : levelOfSlot s n ≤ 10000 := by
  obtain ⟨-, -, -, hlmin, hpinned, -⟩ := h
  unfold levelOfSlot
  split
  · omega
  · exact levelChain_le hpinned hlmin ..

theorem uid_lt_of_readReply {f : LineFrame} {code : Byte} {fields : List Byte} {uid lmin : Nat} {can : Bool}
    (h : readReply f code fields = some (.ident uid can lmin)) : uid < 2 ^ 48 := by
  unfold readReply at h
  split at h
  · split at h
    · cases h
    split at h
    · cases h
    split at h
    · split at h
      · obtain ⟨_, -, e⟩ := Option.map_eq_some_iff.1 h
        cases e
      · cases h
    · cases h
  · split at h
    · split at h
      · dsimp only at h
        split at h
        · cases h
        · obtain ⟨_, -, e⟩ := Option.map_eq_some_iff.1 h
          cases e
          exact BitVec.isLt _
      · cases h
    · cases h
  · split at h
    · cases h
    split at h
    · split at h
      · obtain ⟨_, -, e⟩ := Option.map_eq_some_iff.1 h
        cases e
      · cases h
    · cases h
  · split at h <;> cases h

theorem uid_lt_of_acceptReply {f : LineFrame} {a : Nat} {received : List Byte} {uid lmin : Nat} {can : Bool}
    (h : acceptReply f a received = some (.ident uid can lmin)) : uid < 2 ^ 48 := by
  unfold acceptReply at h
  split at h
  · split at h
    · exact uid_lt_of_readReply h
    · cases h
  · cases h

/-! ## One record -/

namespace Record.inRange

variable {r x : Record}

theorem vacant (b : Bool) : (Record.vacant b).inRange :=
  ⟨nofun, Nat.two_pow_pos 48, by simp [Record.vacant], by simp [Record.vacant], nofun, nofun, nofun⟩

theorem changedBlind : ChangedBlind Record.inRange := fun _ _ h => h

theorem restarted (h : r.inRange) : r.restarted.inRange := by
  unfold Record.restarted
  split
  · exact .vacant true
  · exact h

theorem limited (h : r.inRange) (limit : Nat) : (limited limit r).inRange := by
  unfold Machine.limited
  dsimp only
  split <;> exact h

theorem faultCleared (h : r.inRange) : (faultCleared r).inRange := by
  unfold Machine.faultCleared
  split <;> exact h

theorem amended (h : r.inRange) (x : Selection) (m : Half) (override : Byte) (pinned : Half) (uid : UidField) :
    (amended x m override pinned uid r).inRange := by
  obtain ⟨hplace, huid, hm, hlmin, hpinned, hsent, hacked⟩ := h
  refine ⟨hplace, ?_, ?_, hlmin, ?_, hsent, hacked⟩
  · show (if x.uid then uid.toNat else r.uid) < 2 ^ 48
    split
    · exact uid.isLt
    · exact huid
  · show 500 ≤ (if x.m then clamp 500 1000 m.toNat else r.m) ∧ (if x.m then clamp 500 1000 m.toNat else r.m) ≤ 1000
    split
    · exact le_clamp_and_clamp_le (by decide) _
    · exact hm
  · show ∀ v, (if x.setPin then some (clamp 0 Config.fullDrive pinned.toNat) else if x.clearPin then none else r.pinned)
      = some v → v ≤ 10000
    intro v hv
    split at hv
    · cases hv
      exact (le_clamp_and_clamp_le (by decide) _).2
    · split at hv
      · cases hv
      · exact hpinned v hv

theorem replied {limit : Nat} {taken : Nat → Bool} {f : LineFrame} {reply : Option DriverReply}
    (hx : Replied limit taken f reply r x) (h : r.inRange) (hf : ∀ v, f = .level v → v ≤ 10000)
    (hreply : ∀ uid can lmin, reply = some (.ident uid can lmin) → uid < 2 ^ 48) : x.inRange := by
  obtain ⟨hplace, huid, hm, hlmin, hpinned, hsent, hacked⟩ := h
  have ackedRange : ∀ acked : Option Nat, (acked = r.lastAcked ∨ ∃ v, f = .level v ∧ acked = some v) →
      ∀ v, acked = some v → v ≤ 10000 := by
    rintro acked (rfl | ⟨w, hw, rfl⟩) v hv
    · exact hacked v hv
    · cases hv; exact hf w hw
  cases hx
  case same | missed | silenced | faulted | unanswered => exact ⟨hplace, huid, hm, hlmin, hpinned, hsent, hacked⟩
  case settled acked ha | returned acked ha => exact ⟨hplace, huid, hm, hlmin, hpinned, hsent, ackedRange acked ha⟩
  case identified uid can lmin st ft hr _ _ =>
    exact ⟨hplace, hreply uid can lmin hr, hm, Nat.min_le_right _ _, hpinned, hsent, hacked⟩
  case replaced uid can lmin hr _ =>
    exact ⟨hplace, hreply uid can lmin hr, by simp, Nat.min_le_right _ _, hpinned, hsent, hacked⟩

theorem admission {s : State} {x : Admission} {capability : Option Bool} {lmin : Nat} (hpassed : x.Passed s)
    (hsource : x.Sourced capability lmin s) (hstrays : ∀ l, ∀ e ∈ (s.line l).strays, e.inRange) :
    (admittedRecord x capability lmin).inRange := by
  have htold : x.uid < 2 ^ 48 ∧ lmin ≤ 3000 := by
    obtain ⟨-, rfl, huid⟩ | ⟨e, he, -, huid, -, rfl⟩ := hsource
    · exact ⟨huid, by decide⟩
    · obtain ⟨-, hu, hl⟩ := hstrays _ e he
      refine ⟨?_, ?_⟩
      · rw [huid]
        cases hc : e.uid with
        | none => exact Nat.two_pow_pos 48
        | some u => exact hu u hc
      · cases hc : e.lmin with
        | none => exact Nat.zero_le _
        | some v => exact hl v hc
  refine ⟨fun q e => ?_, htold.1, le_clamp_and_clamp_le (by decide) _, htold.2, nofun, nofun, nofun⟩
  cases e
  exact hpassed.address

end Record.inRange

/-! ## The roster -/

/-- R56, R61: the canonical roster, with every record's numbers in their ranges. -/
def RecordsInRange (s : State) : Prop := rosterWf s.roster = true ∧ ∀ n, (s.record n).inRange

theorem reads_recordsInRange : Reads [.roster] RecordsInRange := fun s t _ _ hsame h => by
  have hroster : t.roster = s.roster := hsame .roster (by decide)
  exact ⟨hroster ▸ h.1, fun n => by rw [record_of_roster hroster]; exact h.2 n⟩

namespace RecordsInRange

variable {s t : State}

theorem of_roster (h : RecordsInRange s) (ht : t.roster = s.roster) : RecordsInRange t :=
  ⟨ht ▸ h.1, fun n => by rw [record_of_roster ht]; exact h.2 n⟩

theorem setRecord (h : RecordsInRange s) (n : Nat) {x : Record} (hx : x.inRange) : RecordsInRange (s.setRecord n x) := by
  refine ⟨rosterWf_setRecord h.1 n x, fun k => ?_⟩
  by_cases hn : n < 512
  · rw [State.record_setRecord h.1 hn]
    split
    · exact hx
    · exact h.2 k
  · rw [State.setRecord_of_ge hn]; exact h.2 k

theorem forEach {α : Type} {f : α → State → State} (hf : ∀ x t, RecordsInRange t → RecordsInRange (f x t)) (xs : List α)
    (h : RecordsInRange s) : RecordsInRange (forEach xs f s) :=
  forEach_induction xs h fun x _ t ht => hf x t ht

theorem command {ts : List Table} (h : RecordsInRange s) (hstrays : ∀ l, ∀ e ∈ (s.line l).strays, e.inRange)
    (heffect : CommandEffect s ts t) (htouched : ∃ x ∈ ts, x ∈ [Table.roster]) : RecordsInRange t := by
  cases heffect
  case restart =>
    refine of_roster (s := restartRoster s) ?_ (roster_restart s)
    exact h.forEach (fun n t ht => ht.setRecord n (ht.2 n).restarted) _
  case admission x capability lmin hpassed hsource =>
    exact (h.setRecord x.slot (.admission hpassed hsource hstrays)).of_roster (roster_fillSlot x capability lmin s)
  case amend n x m override pinned uid _ => exact h.setRecord n ((h.2 n).amended x m override pinned uid)
  case amendAsking n x m override pinned uid _ =>
    exact (h.setRecord n ((h.2 n).amended x m override pinned uid)).of_roster (roster_requestForSlot n _)
  case move n k _ _ _ _ _ _ =>
    exact ((h.setRecord k (h.2 n)).setRecord n (.vacant false)).of_roster (roster_moveRecord n k s)
  case retire n q _ _ _ _ _ =>
    have retired := h.setRecord n (x := { s.record n with state := .retiring }) (h.2 n)
    exact retired.of_roster (roster_retireRecord n q s)
  case clearFault n _ _ _ => exact (h.setRecord n (h.2 n).faultCleared).of_roster (roster_clearFaultOf n s)
  case readRecord n _ => exact h.setRecord n (h.2 n)
  case setLine l limit _ _ =>
    have written : RecordsInRange (s.setLine l { s.line l with missLimit := limit }) := h.of_roster (by simp)
    exact (written.forEach (fun n t ht => ht.setRecord n ((ht.2 n).limited limit)) (slotsOfLine s l)).of_roster
      (roster_applyLimit l limit s)
  all_goals exact absurd htouched (by decide)

theorem event {ts : List Table} (h : RecordsInRange s)
    (hbusy : ∀ l x v, (s.line l).state = .busy x → x.frame = .level v → v ≤ 10000) (heffect : EventEffect s ts t)
    (htouched : ∃ x ∈ ts, x ∈ [Table.roster]) : RecordsInRange t := by
  cases heffect
  case arbiterGrant l =>
    have hgrant := roster_arbiterGrant l s
    generalize hroster : (Machine.arbiterGrant l s).roster = roster at hgrant
    cases hgrant
    case same => exact h.of_roster hroster
    case sent n _ =>
      refine of_roster (h.setRecord n (x := { s.record n with lastSent := some (levelOfSlot s n) }) ?_) hroster
      obtain ⟨hplace, huid, hm, hlmin, hpinned, -, hacked⟩ := h.2 n
      refine ⟨hplace, huid, hm, hlmin, hpinned, fun v e => ?_, hacked⟩
      cases e
      exact levelOfSlot_le (h.2 n)
  case exchangeCompletion l chars =>
    obtain hroster | ⟨x, received, request, hx, -, hresult⟩ := roster_exchangeCompletion l chars s
    · exact h.of_roster hroster
    generalize hroster : (Machine.exchangeCompletion l chars s).roster = roster at hresult
    cases hresult
    case same => exact h.of_roster hroster
    case vacated n _ _ _ => exact (h.setRecord n (.vacant true)).of_roster hroster
    case written n _ _ _ y hreplied =>
      have hy : y.inRange := .replied hreplied (h.2 n) (fun v => hbusy l x v hx)
        fun uid can lmin e => uid_lt_of_acceptReply e
      exact (h.setRecord n (Record.inRange.changedBlind.marked (s.record n) hy)).of_roster hroster
  all_goals exact absurd htouched (by decide)

end RecordsInRange

end Sys2Proof.Machine
end

section
/-! SUPPORT. The ranges of the line controllers (R113, R116, R138 to R144), and with them the mode laws and all the ranges that
every step keeps. -/

namespace Sys2Proof.Machine

/-! ## Whom the arbiter grants -/

theorem eligibleAt_of_waitingSlot {s : State} (hw : rosterWf s.roster = true) {p : Fin 4} {l : Line} {k n : Nat}
    (h : waitingSlot s p l k = some n) : k ≤ n ∧ EligibleAt s p l n := by
  simp only [waitingSlot, Option.map_eq_some_iff] at h
  obtain ⟨e, he, rfl⟩ := h
  have hp := List.find?_some he
  simp only [Bool.and_eq_true, decide_eq_true_eq] at hp
  obtain ⟨⟨hk, heligible⟩, hin⟩ := hp
  exact ⟨hk, by rwa [State.record_of_mem hw (List.mem_of_find?_eq_some he)], hin⟩

theorem Record.place_of_eligibleOn {r : Record} {l : Line} (h : r.eligibleOn l = true) : ∃ a, r.place = some ⟨l, a⟩ := by
  simp only [Record.eligibleOn, Record.onLine, Bool.and_eq_true] at h
  obtain ⟨hline, -⟩ := h
  split at hline
  next q hq =>
    obtain ⟨k, a⟩ := q
    obtain rfl : k = l := by simpa using hline
    exact ⟨a, hq⟩
  · cases hline

/-- A grantee that is waiting: an eligible record ahead of a WAITING cursor, the head of the admin queue, or that of the service
set. -/
inductive Grantable (s : State) (l : Line) : Grantee → Prop where
  | cursor (cls : SweepClass) (p : Fin 4) (n : Nat) (hwaits : CursorWaits s l cls p n) :
      Grantable s l (.cursor cls p n)
  | admin (e : AdminEntry) (rest : List AdminEntry) (hadmin : (s.line l).admin = e :: rest) :
      Grantable s l (.admin e rest)
  | service (a : Nat) (rest : List Nat) (hservice : (s.line l).service = a :: rest) : Grantable s l (.service a rest)

theorem grantable_of_chooseGrantee {s : State} {l : Line} {g : Grantee} (h : chooseGrantee s l = some g) :
    Grantable s l g := by
  have waits {cls : SweepClass} {pointer p : Fin 4} {n : Nat} (hf : firstWaiting s l cls pointer = some (p, n)) :
      Grantable s l (.cursor cls p n) := .cursor cls p n (firstWaiting_eq_some.1 hf).1
  have unhurried (h : chooseUnhurried (s.line l) (firstWaiting s l .normal (s.line l).normalPointer) = some g) :
      Grantable s l g := by
    unfold chooseUnhurried at h
    split at h
    next e rest hadmin => cases h; exact .admin e rest hadmin
    next a rest _ hservice => cases h; exact .service a rest hservice
    next p n _ _ hf => cases h; exact waits hf
    · cases h
  unfold chooseGrantee at h
  dsimp only at h
  split at h
  next p n hf => cases h; exact waits hf
  · split at h
    next p n hf =>
      split at h
      · cases h; exact waits hf
      · exact unhurried (hf ▸ h)
    next hf => exact unhurried (hf ▸ h)

theorem grantCursor_of_identify {s : State} {n : Nat} (h : (s.record n).sweepFrame = some .identify) (l : Line)
    (cls : SweepClass) (p : Fin 4) :
    grantCursor l cls p n s = cursorGranted p l n (s.setLine l ((s.line l).servedCursor cls p
      (begun .identify (placeAddress (s.record n).place) (.cursor p)))) := by
  unfold grantCursor
  simp only [h]

theorem grantCursor_of_level {s : State} {n : Nat} (h : (s.record n).sweepFrame = some .level) (l : Line)
    (cls : SweepClass) (p : Fin 4) :
    grantCursor l cls p n s = cursorGranted p l n
      ((s.setRecord n { s.record n with lastSent := some (levelOfSlot s n) }).setLine l ((s.line l).servedCursor cls p
        (begun (.level (levelOfSlot s n)) (placeAddress (s.record n).place) (.cursor p)))) := by
  unfold grantCursor
  simp only [h]

/-! ## One line controller -/

theorem driverAddress_of_addressOf {b : Byte} {a : Nat} (h : addressOf b = some a) : DriverAddress a := by
  unfold addressOf at h
  split at h
  · cases h
  next hn =>
    cases h
    have hlt := b.isLt
    have h0 : b.toNat ≠ 0 := fun e => hn (.inl (BitVec.eq_of_toNat_eq e))
    have h255 : b.toNat ≠ 255 := fun e => hn (.inr (BitVec.eq_of_toNat_eq e))
    exact ⟨by omega, by omega⟩

/-- R134: the address that a request carries. -/
def Request.address : Request → Nat
  | .join _ a => a
  | .news _ a => a

theorem address_of_readRequest {chars : List Byte} {q : Request} (h : readRequest chars = some q) :
    DriverAddress q.address := by
  unfold readRequest at h
  split at h
  · split at h
    · cases h
    · split at h
      · cases h
      next a ha =>
        have haddress := driverAddress_of_addressOf ha
        split at h
        · cases h; exact haddress
        split at h
        · cases h; exact haddress
        split at h
        · cases h; exact haddress
        split at h
        · cases h; exact haddress
        · cases h
  · cases h

namespace LineCtl.inRange

variable {c : LineCtl}

theorem fairness (h : c.inRange) : c.fairness ≤ 4 := by
  obtain ⟨-, hfairness, -⟩ := h
  exact hfairness

theorem busy (h : c.inRange) {x : Exchange} (hx : c.state = .busy x) :
    DriverAddress x.address ∧ ∀ v, x.frame = .level v → v ≤ 10000 := by
  obtain ⟨-, -, hbusy, -⟩ := h
  exact hbusy x hx

theorem admin (h : c.inRange) {e : AdminEntry} (he : e ∈ c.admin) : DriverAddress e.address := by
  obtain ⟨-, -, -, hadmin, -⟩ := h
  exact hadmin e he

theorem service (h : c.inRange) {a : Nat} (ha : a ∈ c.service) : DriverAddress a := by
  obtain ⟨-, -, -, -, hservice, -⟩ := h
  exact hservice a ha

theorem strays (h : c.inRange) {e : Stray} (he : e ∈ c.strays) : e.inRange := by
  obtain ⟨-, -, -, -, -, hstrays, -⟩ := h
  exact hstrays e he

theorem ignored (h : c.inRange) {a : Nat} (ha : a ∈ c.ignored) : DriverAddress a := by
  obtain ⟨-, -, -, -, -, -, hignored⟩ := h
  exact hignored a ha

theorem powerOn : LineCtl.powerOn.inRange := by
  refine ⟨by decide, by decide, nofun, ?_, ?_, ?_, ?_⟩ <;> exact fun _ h => absurd h List.not_mem_nil

theorem restarted (h : c.inRange) : c.restarted.inRange := by
  obtain ⟨-, hfairness, hbusy, hrest⟩ := powerOn
  exact ⟨h.1, hfairness, hbusy, hrest⟩

theorem setState (h : c.inRange) {st : LineState}
    (hst : ∀ x, st = .busy x → DriverAddress x.address ∧ ∀ v, x.frame = .level v → v ≤ 10000) :
    LineCtl.inRange { c with state := st } := by
  obtain ⟨hlimit, hfairness, -, hrest⟩ := h
  exact ⟨hlimit, hfairness, hst, hrest⟩

theorem setFairness (h : c.inRange) {n : Nat} (hn : n ≤ 4) (p q : Fin 4) :
    LineCtl.inRange { c with fairness := n, normalPointer := p, emergencyPointer := q } := by
  obtain ⟨hlimit, -, hrest⟩ := h
  exact ⟨hlimit, hn, hrest⟩

theorem servedCursor (h : c.inRange) (cls : SweepClass) (p : Fin 4) {st : LineState}
    (hst : ∀ x, st = .busy x → DriverAddress x.address ∧ ∀ v, x.frame = .level v → v ≤ 10000) :
    (c.servedCursor cls p st).inRange := by
  have hfairness : c.fairness ≤ 4 := h.2.1
  cases cls
  · exact (h.setState hst).setFairness (Nat.zero_le 4) p c.emergencyPointer
  · exact (h.setState hst).setFairness hfairness c.normalPointer p

theorem setLimit (h : c.inRange) {limit : Nat} (hlimit : 1 ≤ limit ∧ limit ≤ 7) :
    LineCtl.inRange { c with missLimit := limit } := ⟨hlimit, h.2⟩

theorem setService (h : c.inRange) {service : List Nat} (hs : ∀ a ∈ service, DriverAddress a) :
    LineCtl.inRange { c with service := service } := by
  obtain ⟨hlimit, hfairness, hbusy, hadmin, -, hrest⟩ := h
  exact ⟨hlimit, hfairness, hbusy, hadmin, hs, hrest⟩

theorem setAdmin (h : c.inRange) {admin : List AdminEntry} (ha : ∀ e ∈ admin, DriverAddress e.address) :
    LineCtl.inRange { c with admin := admin } := by
  obtain ⟨hlimit, hfairness, hbusy, -, hrest⟩ := h
  exact ⟨hlimit, hfairness, hbusy, ha, hrest⟩

theorem setStrays (h : c.inRange) {strays : List Stray} (hs : ∀ e ∈ strays, e.inRange) :
    LineCtl.inRange { c with strays := strays } := by
  obtain ⟨hlimit, hfairness, hbusy, hadmin, hservice, -, hignored⟩ := h
  exact ⟨hlimit, hfairness, hbusy, hadmin, hservice, hs, hignored⟩

theorem setIgnored (h : c.inRange) {ignored : List Nat} (hi : ∀ a ∈ ignored, DriverAddress a) :
    LineCtl.inRange { c with ignored := ignored } := by
  obtain ⟨hlimit, hfairness, hbusy, hadmin, hservice, hstrays, -⟩ := h
  exact ⟨hlimit, hfairness, hbusy, hadmin, hservice, hstrays, hi⟩

theorem retiredLine (h : c.inRange) {a : Nat} (ha : DriverAddress a) : (retiredLine c a).inRange := by
  refine (h.setService fun b hb => h.service (List.mem_filter.1 hb).1).setAdmin fun e he => ?_
  obtain he | he := List.mem_append.1 he
  · exact h.admin (List.mem_filter.1 he).1
  · obtain rfl := List.mem_singleton.1 he
    exact ha

theorem offered (h : c.inRange) {a : Nat} (ha : DriverAddress a) :
    LineCtl.inRange { c with service := offered c.service a } := by
  refine h.setService fun b hb => ?_
  unfold Machine.offered at hb
  split at hb
  · exact h.service hb
  · obtain hb | hb := List.mem_append.1 hb
    · exact h.service hb
    · exact List.mem_singleton.1 hb ▸ ha

theorem queuedIdentify (h : c.inRange) {a : Nat} (ha : DriverAddress a) :
    LineCtl.inRange { c with admin := queuedIdentify c.admin a } := by
  refine h.setAdmin fun e he => ?_
  unfold Machine.queuedIdentify at he
  dsimp only at he
  split at he
  · exact h.admin he
  · obtain he | he := List.mem_append.1 he
    · exact h.admin he
    · obtain rfl := List.mem_singleton.1 he
      exact ha

theorem ignoredWith (h : c.inRange) {a : Nat} (ha : DriverAddress a) {admin : List AdminEntry}
    (hadmin : ∀ e ∈ admin, e ∈ c.admin) :
    LineCtl.inRange { c with admin := admin, ignored := ignoredWith c.ignored a } := by
  refine (h.setAdmin fun e he => h.admin (hadmin e he)).setIgnored fun b hb => ?_
  unfold Machine.ignoredWith at hb
  split at hb <;> obtain hb | hb := List.mem_append.1 hb
  · exact h.ignored (List.mem_of_mem_drop hb)
  · exact List.mem_singleton.1 hb ▸ ha
  · exact h.ignored hb
  · exact List.mem_singleton.1 hb ▸ ha

end LineCtl.inRange

/-! ## The lines -/

/-- R113, R116, R138 to R144: both line controllers' numbers lie in their ranges. -/
def LinesInRange (s : State) : Prop := ∀ l, (s.line l).inRange

theorem reads_linesInRange : Reads [.lines] LinesInRange := fun s t _ _ hsame h l => by
  obtain ⟨ha, hb⟩ := Prod.mk.inj (hsame .lines (by decide))
  cases l
  · rw [State.line, ha]; exact h .a
  · rw [State.line, hb]; exact h .b

namespace LinesInRange

variable {s t : State}

theorem writes (h : LinesInRange s) {ts : List Table} (hw : Writes ts s t) (hn : .lines ∉ ts := by decide) :
    LinesInRange t := fun l => by rw [hw.line l hn]; exact h l

theorem setLine (h : LinesInRange s) {l : Line} {c : LineCtl} (hc : c.inRange) : LinesInRange (s.setLine l c) := fun k => by
  by_cases hk : k = l
  · subst hk; rw [State.line_setLine_self]; exact hc
  · rw [State.line_setLine_of_ne _ _ _ _ hk]; exact h k

theorem onlySweeps (h : LinesInRange s) (ht : OnlySweeps s t) : LinesInRange t :=
  h.writes (ts := [.portals, .sweeps, .notices]) ht.writes

theorem setRecord (h : LinesInRange s) (n : Nat) (x : Record) : LinesInRange (s.setRecord n x) :=
  h.writes (ts := [.roster]) (.of_setRecord ..)

theorem removeStray (h : LinesInRange s) (l : Line) (a : Nat) : LinesInRange (removeStray l a s) := by
  have removed : LinesInRange (s.setLine l { s.line l with
      strays := (s.line l).strays.filter fun e => e.address != a }) := by
    exact h.setLine ((h l).setStrays fun e he => (h l).strays (List.mem_filter.1 he).1)
  unfold Machine.removeStray
  dsimp only
  split
  · exact removed.writes (ts := [.notices]) (.of_handFalse ..)
  · exact removed

theorem removeIgnored (h : LinesInRange s) (l : Line) (a : Nat) : LinesInRange (removeIgnored l a s) :=
  h.setLine ((h l).setIgnored fun _ hb => (h l).ignored (List.mem_filter.1 hb).1)

theorem rejectStray (h : LinesInRange s) (l : Line) {a : Nat} (ha : DriverAddress a) : LinesInRange (rejectStray l a s) := by
  unfold Machine.rejectStray
  have removed := h.removeStray l a
  exact removed.setLine ((removed l).ignoredWith ha fun e he => (List.mem_filter.1 he).1)

theorem restart (h : LinesInRange s) : LinesInRange (examineEmergN (evaluateAll (restartValues s))) := by
  have restarted : LinesInRange (restartValues s) := fun l => by
    rw [line_restartValues]; exact (h l).restarted
  exact restarted.writes (ts := [.portals, .sweeps, .notices])
    ((onlyPhotometry_evaluateAll _).writes.trans (writes_examineEmergN _))

theorem command {ts : List Table} (h : LinesInRange s) (hrecords : RecordsInRange s) (heffect : CommandEffect s ts t)
    (htouched : ∃ x ∈ ts, x ∈ [Table.lines]) : LinesInRange t := by
  cases heffect
  case restart => exact h.restart
  case admission x capability lmin _ _ =>
    exact ((((h.setRecord x.slot _).removeStray _ _).removeIgnored _ _).onlySweeps
      (onlySweeps_requestForSlot ..)).onlySweeps (onlySweeps_settleSweeps _)
  case retire n q _ _ _ hplace _ =>
    have haddress : DriverAddress q.address := (hrecords.2 n).1 q hplace
    exact (((h.setRecord n _).setLine ((h q.line).retiredLine haddress)).onlySweeps
      (onlySweeps_requestForSlot ..)).onlySweeps (onlySweeps_settleSweeps _)
  case setLine l limit _ hlimit =>
    have written := (h.setLine (l := l) ((h l).setLimit hlimit)).writes (ts := [.roster])
      (.of_forEach (slotsOfLine s l) (fun n t => .of_setRecord t n (limited limit (t.record n))) _)
    unfold applyLimit
    refine onlySweeps ?_ (onlySweeps_settleSweeps _)
    refine onlySweeps ?_ (.forEach _ onlySweeps_requestForSlot _)
    split
    · exact written
    · exact written.writes (ts := [.notices]) (.of_handEvent ..)
  case rejectStray l a _ ha _ => exact h.rejectStray l ha
  case clearIgnore l _ => exact h.setLine ((h l).setIgnored nofun)
  all_goals exact absurd htouched (by decide)

/-! ## Grants and phases -/

theorem withPhase (h : LinesInRange s) (l : Line) (f : Phase → Phase) : LinesInRange (withPhase l f s) := by
  unfold Machine.withPhase
  split
  next x hbusy =>
    have hx := (h l).busy hbusy
    exact h.setLine ((h l).setState fun y e => by cases e; exact hx)
  · exact h
  · exact h

theorem quietEnded (h : LinesInRange s) (l : Line) : LinesInRange (quietEnded l s) := by
  unfold Machine.quietEnded
  split
  · split
    · exact h.setLine ((h l).setState nofun)
    · exact h
  · exact h
  · exact h

theorem grantTo (h : LinesInRange s) (hrecords : RecordsInRange s) {l : Line} {g : Grantee} (hg : Grantable s l g) :
    LinesInRange (grantTo l g s) := by
  have begunRange {f : LineFrame} {a : Nat} {o : Origin} (ha : DriverAddress a) (hf : ∀ v, f = .level v → v ≤ 10000) :
      ∀ x, begun f a o = .busy x → DriverAddress x.address ∧ ∀ v, x.frame = .level v → v ≤ 10000 := fun x e => by
    cases e; exact ⟨ha, hf⟩
  have hraised : raised (s.line l).fairness ≤ 4 := Nat.min_le_left _ _
  cases hg
  case cursor cls p n hwaits =>
    obtain ⟨w, k, -, -, -, -, hwait⟩ := hwaits
    obtain ⟨-, heligible, -⟩ := eligibleAt_of_waitingSlot hrecords.1 hwait
    obtain ⟨a, hplace⟩ := Record.place_of_eligibleOn heligible
    have ha : DriverAddress (placeAddress (s.record n).place) := by
      rw [hplace]; exact (hrecords.2 n).1 ⟨l, a⟩ hplace
    show LinesInRange (grantCursor l cls p n s)
    cases hframe : (s.record n).sweepFrame with
    | none => simp [Record.eligibleOn, hframe] at heligible
    | some f =>
      cases f
      · rw [grantCursor_of_identify hframe]
        exact (h.setLine ((h l).servedCursor cls p (begunRange ha fun _ e => by cases e))).writes (writes_cursorGranted ..)
      · rw [grantCursor_of_level hframe]
        have hlevel : ∀ v, LineFrame.level (levelOfSlot s n) = .level v → v ≤ 10000 := fun v e => by
          cases e; exact levelOfSlot_le (hrecords.2 n)
        exact ((h.setRecord n _).setLine ((h l).servedCursor cls p (begunRange ha hlevel))).writes
          (writes_cursorGranted ..)
  case admin e rest hqueue =>
    have hentries : ∀ x ∈ e :: rest, DriverAddress x.address := fun x hx => (h l).admin (hqueue ▸ hx)
    have hframe : ∀ v, e.kind.frame = .level v → v ≤ 10000 := fun v hv => by cases hk : e.kind <;> rw [hk] at hv <;> cases hv
    exact h.setLine ((((h l).setState (begunRange (o := .admin) (hentries e List.mem_cons_self) hframe)).setAdmin
      fun x hx => hentries x (List.mem_cons_of_mem _ hx)).setFairness hraised _ _)
  case service a rest hset =>
    have haddresses : ∀ x ∈ a :: rest, DriverAddress x := fun x hx => (h l).service (hset ▸ hx)
    exact h.setLine ((((h l).setState (begunRange (f := .query) (o := .service) (haddresses a List.mem_cons_self)
      fun _ e => by cases e)).setService fun x hx => haddresses x (List.mem_cons_of_mem _ hx)).setFairness hraised _ _)

theorem arbiterGrant (h : LinesInRange s) (hrecords : RecordsInRange s) (l : Line) : LinesInRange (arbiterGrant l s) := by
  unfold Machine.arbiterGrant
  split
  · split
    · exact h
    next g hg => exact h.grantTo hrecords (grantable_of_chooseGrantee hg)
  · exact h
  · exact h

/-! ## Completions -/

theorem commitApplied (h : LinesInRange s) (l : Line) (n : Nat) (a : Applied) : LinesInRange (commitApplied l n a s) :=
  h.writes (writes_commitApplied l n a s)

theorem strayIdent (h : LinesInRange s) (l : Line) (a : Nat) {reply : Option DriverReply}
    (hreply : ∀ uid can lmin, reply = some (.ident uid can lmin) → uid < 2 ^ 48) :
    LinesInRange (strayIdent l a reply s) := by
  unfold Machine.strayIdent
  split
  next uid can lmin =>
    refine h.setLine ((h l).setStrays fun e he => ?_)
    obtain ⟨e', he', rfl⟩ := List.mem_map.1 he
    have hrange := (h l).strays he'
    split
    · refine ⟨hrange.1, fun u hu => ?_, fun v hv => ?_⟩
      · cases hu; exact hreply _ _ _ rfl
      · cases hv; exact Nat.min_le_right _ _
    · exact hrange
  · exact h

theorem applyResult (h : LinesInRange s) {l : Line} {x : Exchange} (hx : DriverAddress x.address)
    {reply : Option DriverReply} (hreply : ∀ uid can lmin, reply = some (.ident uid can lmin) → uid < 2 ^ 48) :
    LinesInRange (applyResult l x reply s) := by
  unfold Machine.applyResult
  split
  · split
    · exact h.strayIdent l _ hreply
    · exact h
  next n _ =>
    dsimp only
    split
    · split
      · exact h.commitApplied l n _
      · exact h
    · split
      · exact h
      · have committed := h.commitApplied l n
          (applyReply (s.line l).missLimit (s.uidElsewhere n) x.frame reply (s.record n))
        split
        · exact committed.setLine ((committed l).offered hx)
        · exact committed

theorem queueIdentify (h : LinesInRange s) (l : Line) {a : Nat} (ha : DriverAddress a) :
    LinesInRange (queueIdentify l a s) := h.setLine ((h l).queuedIdentify ha)

theorem addStray (h : LinesInRange s) (l : Line) {a : Nat} (ha : DriverAddress a) : LinesInRange (addStray l a s) := by
  have added : LinesInRange (s.setLine l { s.line l with strays := (s.line l).strays ++ [.unfilled a] }) := by
    refine h.setLine ((h l).setStrays fun e he => ?_)
    obtain he | he := List.mem_append.1 he
    · exact (h l).strays he
    · obtain rfl := List.mem_singleton.1 he
      exact ⟨ha, nofun, nofun⟩
  unfold Machine.addStray
  dsimp only
  split
  · exact added.writes (ts := [.notices]) (.of_handTrue ..)
  · exact added

theorem takeRequest (h : LinesInRange s) (l : Line) {q : Option Request} (hq : ∀ r, q = some r → DriverAddress r.address) :
    LinesInRange (takeRequest l q s) := by
  unfold Machine.takeRequest
  split
  · exact h
  next a =>
    have ha : DriverAddress a := hq _ rfl
    unfold takeJoin
    split
    · split
      · exact h
      · exact h.queueIdentify l ha
    · split
      · exact h
      split
      · exact h.queueIdentify l ha
      split
      · exact (h.addStray l ha).queueIdentify l ha
      · exact h
  · exact h.removeStray l _
  next a =>
    unfold takeNews
    split
    · split
      · exact h
      · exact h.setLine ((h l).offered (hq _ rfl))
    · exact h
  · exact h.setLine ((h l).setService fun b hb => (h l).service (List.mem_filter.1 hb).1)

theorem freeLine (h : LinesInRange s) (l : Line) : LinesInRange (freeLine l s) := h.setLine ((h l).setState nofun)

theorem exchangeCompletion (h : LinesInRange s) (l : Line) (chars : List Byte) :
    LinesInRange (exchangeCompletion l chars s) := by
  unfold Machine.exchangeCompletion
  split
  next x hbusy =>
    split
    next received request _ =>
      have result := h.applyResult (l := l) ((h l).busy hbusy).1 (reply := acceptReply x.frame x.address received)
        fun uid can lmin e => uid_lt_of_acceptReply e
      have taken := result.takeRequest l (q := readRequest (request ++ chars)) fun r e => address_of_readRequest e
      exact ((taken.onlySweeps (onlySweeps_notifyOrigin ..)).freeLine l).onlySweeps (onlySweeps_settleSweeps _)
    all_goals exact h
  all_goals exact h

theorem event {ts : List Table} (h : LinesInRange s) (hrecords : RecordsInRange s) (heffect : EventEffect s ts t)
    (htouched : ∃ x ∈ ts, x ∈ [Table.lines]) : LinesInRange t := by
  cases heffect
  case quietPeriodEnd l => exact h.quietEnded l
  case arbiterGrant l => exact h.arbiterGrant hrecords l
  case phase l f => exact h.withPhase l f
  case exchangeCompletion l chars => exact h.exchangeCompletion l chars
  all_goals exact absurd htouched (by decide)

end LinesInRange

end Sys2Proof.Machine
end

section
/-! SUPPORT. The mode laws and the ranges, part by part, are kept by every step. -/

namespace Sys2Proof.Machine

/-- Each portal's Lf lies in its range (R12). -/
def LfInRange (s : State) : Prop := ∀ p v, (s.portal p).lf = some v → v ≤ 12000

/-- The mode laws, the canonical roster and the range law, table by table. -/
structure Ranged (s : State) : Prop where
  portals : PortalsLawful s
  lf : LfInRange s
  meters : MetersInRange s
  records : RecordsInRange s
  lines : LinesInRange s
  notices : NoticesInRange s

theorem ranged_iff {s : State} :
    Ranged s ↔ rosterWf s.roster = true ∧ (∀ p, ModeLaw (s.portal p)) ∧ RangeLaw s := by
  constructor
  · rintro ⟨hportals, hlf, hmeters, hrecords, hlines, hnotices⟩
    exact ⟨hrecords.1, fun p => (hportals p).1, hmeters.1, hmeters.2, fun p => ⟨hlf p, (hportals p).2⟩, hrecords.2,
      hlines .a, hlines .b, hnotices⟩
  · rintro ⟨hwf, hmode, hmeters, hpoll, hportals, hrecords, ha, hb, hnotices⟩
    refine ⟨fun p => ⟨hmode p, (hportals p).2⟩, fun p => (hportals p).1, ⟨hmeters, hpoll⟩, ⟨hwf, hrecords⟩, fun l => ?_,
      hnotices⟩
    cases l
    · exact ha
    · exact hb

theorem ranged_reset : Ranged State.reset :=
  ranged_iff.2 ⟨rfl, fun p => (portalsLawful_reset p).1, rangeLaw_of_check (by decide +kernel)⟩

namespace Ranged

variable {s t : State}

theorem active (h : Ranged s) (p : Fin 4) : (s.portal p).active.inRange := (h.portals p).2.1

theorem photometry (h : Ranged s) : PhotometryInRange s := ⟨h.lf, h.active, fun m => (h.meters.1 m).2.1⟩

theorem strays (h : Ranged s) (l : Line) (e : Stray) (he : e ∈ (s.line l).strays) : e.inRange := (h.lines l).strays he

theorem of_pending (h : Ranged s) (pending : List Instr) : Ranged { s with pending := pending } :=
  ⟨h.portals, h.lf, h.meters, h.records, h.lines, h.notices⟩

/-! ## Lf -/

theorem reads_lfInRange : Reads [.portals] LfInRange := fun s t _ _ hsame h p => by
  have hportals : t.portals = s.portals := hsame .portals (by decide)
  rw [State.portal, hportals]
  exact h p

theorem lf_of_kept (h : Ranged s) (ht : PhotometryKept s t) : LfInRange t := fun p => by
  rw [ht.lf]; exact h.lf p

theorem lf_restart (h : Ranged s) : LfInRange (examineEmergN (evaluateAll (restartValues s))) := by
  have restarted : PhotometryInRange (restartValues s) :=
    { lf := fun p v e => by
        rw [portal_restartValues] at e
        cases e
      active := fun p => by
        rw [portal_restartValues]
        exact h.active p
      reading := fun m => by
        rw [meter_restartValues]
        exact (MeterLeft.restarted.inRange (h.meters.1 m) h.active).2.1 }
  intro p
  rw [(PhotometryKept.examineEmergN _).lf]
  exact restarted.evaluateAll.lf p

theorem lf_couple (h : Ranged s) (p : Fin 4) (leader : Option (Fin 4)) : LfInRange (couple p leader s) :=
  (h.photometry.couple p leader).lf

theorem lf_command {ts : List Table} (h : Ranged s) (heffect : CommandEffect s ts t) : LfInRange t := by
  by_cases hmeters : .meters ∈ ts
  · cases heffect
    case restart => exact h.lf_restart
    case removeMeter m =>
      exact ((h.photometry.setMeter m (x := .unconfigured) nofun).evalFormer _ _).lf
    case configureMeter m address p _ _ _ =>
      exact (((h.photometry.setMeter m (x := configuredMeter s address p) nofun).evalFormer _ _).evalCondition p).lf
    case readPortal p => exact h.lf_of_kept (.of_portals (writes_clearReported ..).portals)
    case readSnapshot p shown =>
      exact h.lf_of_kept (.of_portals ((writes_clearReported shown _).portals.trans rfl))
    all_goals exact absurd hmeters (by decide)
  · by_cases hcouple : ∃ p leader, t = Machine.couple p leader s
    · obtain ⟨p, leader, rfl⟩ := hcouple
      exact h.lf_couple p leader
    · exact h.lf_of_kept (.command heffect hmeters fun p leader _ e => hcouple ⟨p, leader, e⟩)

theorem lf_event {ts : List Table} (h : Ranged s) (heffect : EventEffect s ts t) : LfInRange t := by
  have ended : PhotometryInRange { s with poll := none } :=
    ⟨h.photometry.lf, h.photometry.active, h.photometry.reading⟩
  by_cases hmeters : .meters ∈ ts
  · cases heffect
    case holdTimerExpiry m => exact (h.photometry.holdExpired m).lf
    case pollDue m => exact h.lf_of_kept (.of_portals (EventEffect.pollDue m).writes.portals)
    case pollStart => exact h.lf_of_kept (.of_portals EventEffect.pollStart.writes.portals)
    case pollCompletion c0 c1 c2 c3 c4 =>
      unfold Machine.pollCompletion
      split
      · exact h.lf
      · exact (ended.applyPoll _ _).lf
    case pollWindowClose =>
      unfold Machine.pollWindowClose
      split
      · exact h.lf
      · exact (ended.applyPoll _ _).lf
    all_goals exact absurd hmeters (by decide)
  · exact h.lf_of_kept (.event heffect hmeters)

theorem lf_poweredUp (h : Ranged s) (straps : BitVec 4) (pins : PinLevels) : LfInRange (poweredUp straps pins s) := by
  have sampled : PhotometryInRange { s with resetN := true, straps := straps, emergN := pins.emergN } :=
    ⟨h.photometry.lf, h.photometry.active, h.photometry.reading⟩
  unfold poweredUp
  intro p
  rw [(PhotometryKept.examineEmergN _).lf]
  exact sampled.evaluateAll.lf p

/-! ## Every step -/

theorem step_portals (h : Ranged s) (hstep : step s = .next t) : PortalsLawful t :=
  step_keeps (P := Ranged) reads_portalsLawful (fun _ h => h.portals) (fun _ pending h => h.of_pending pending)
    (fun _ _ _ _ h heffect htouched => h.portals.command heffect htouched)
    (fun _ _ _ _ h heffect htouched => h.portals.event heffect htouched)
    (fun s _ => reads_portalsLawful.asserted portalsLawful_reset s)
    (fun straps pins _ _ h => reads_portalsLawful.released (h.portals.poweredUp straps pins)) h hstep

theorem step_lf (h : Ranged s) (hstep : step s = .next t) : LfInRange t :=
  step_keeps (P := Ranged) reads_lfInRange (fun _ h => h.lf) (fun _ pending h => h.of_pending pending)
    (fun _ _ _ _ h heffect _ => h.lf_command heffect) (fun _ _ _ _ h heffect _ => h.lf_event heffect)
    (fun s _ => reads_lfInRange.asserted ranged_reset.lf s)
    (fun straps pins _ _ h => reads_lfInRange.released (h.lf_poweredUp straps pins)) h hstep

theorem step_meters (h : Ranged s) (hstep : step s = .next t) : MetersInRange t :=
  step_keeps (P := Ranged) reads_metersInRange (fun _ h => h.meters) (fun _ pending h => h.of_pending pending)
    (fun _ _ _ _ h heffect _ => h.meters.command h.active heffect)
    (fun _ _ _ _ h heffect _ => h.meters.event h.active heffect)
    (fun s _ => reads_metersInRange.asserted ranged_reset.meters s)
    (fun straps pins s _ h => reads_metersInRange.released
      (reads_metersInRange.keeps (writes_poweredUp straps pins s) (by decide) h.meters)) h hstep

theorem step_records (h : Ranged s) (hstep : step s = .next t) : RecordsInRange t :=
  step_keeps (P := Ranged) reads_recordsInRange (fun _ h => h.records) (fun _ pending h => h.of_pending pending)
    (fun _ _ _ _ h heffect htouched => h.records.command h.strays heffect htouched)
    (fun _ _ _ _ h heffect htouched => h.records.event (fun l _ v hx hv => ((h.lines l).busy hx).2 v hv) heffect htouched)
    (fun s _ => reads_recordsInRange.asserted ranged_reset.records s)
    (fun straps pins s _ h => reads_recordsInRange.released
      (reads_recordsInRange.keeps (writes_poweredUp straps pins s) (by decide) h.records)) h hstep

theorem step_lines (h : Ranged s) (hstep : step s = .next t) : LinesInRange t :=
  step_keeps (P := Ranged) reads_linesInRange (fun _ h => h.lines) (fun _ pending h => h.of_pending pending)
    (fun _ _ _ _ h heffect htouched => h.lines.command h.records heffect htouched)
    (fun _ _ _ _ h heffect htouched => h.lines.event h.records heffect htouched)
    (fun s _ => reads_linesInRange.asserted ranged_reset.lines s)
    (fun straps pins s _ h => reads_linesInRange.released
      (reads_linesInRange.keeps (writes_poweredUp straps pins s) (by decide) h.lines)) h hstep

theorem step_notices (h : Ranged s) (hstep : step s = .next t) : NoticesInRange t :=
  step_keeps (P := Ranged) reads_noticesInRange (fun _ h => h.notices) (fun _ pending h => h.of_pending pending)
    (fun _ _ _ _ h heffect htouched => h.notices.command heffect htouched)
    (fun _ _ _ _ _ heffect htouched => by cases heffect <;> exact absurd htouched (by decide))
    (fun s _ => reads_noticesInRange.asserted ranged_reset.notices s)
    (fun straps pins s _ h => reads_noticesInRange.released
      (reads_noticesInRange.keeps (writes_poweredUp straps pins s) (by decide) h.notices)) h hstep

end Ranged

/-- Settles O31: each table's part of the laws is kept, with the other parts at hand. -/
theorem stepKeepsModesAndRanges : Obligations.StepKeepsModesAndRanges := by
  intro s t hwf hmode hrange h
  have hs := ranged_iff.2 ⟨hwf, hmode, hrange⟩
  exact (ranged_iff.1 ⟨hs.step_portals h, hs.step_lf h, hs.step_meters h, hs.step_records h, hs.step_lines h,
    hs.step_notices h⟩).2

end Sys2Proof.Machine
end

section
/-! SUPPORT. The evaluation of photometry (R13 to R16): what one evaluation leaves, and when every portal has the condition
that its inputs call for. -/

namespace Sys2Proof.Machine

/-! ## The inputs of a condition -/

theorem anyOwn_congr {s t : State} (h : t.meters = s.meters) (p : Fin 4) (st : MeterState) :
    anyOwn t p st = anyOwn s p st := by
  simp only [anyOwn, ownMeters, State.meter, h]

theorem anyOwn_iff {s : State} {p : Fin 4} {st : MeterState} :
    anyOwn s p st = true ↔ ∃ m q, (s.meter m).site = some q ∧ q.portal = p ∧ (s.meter m).state = st := by
  unfold anyOwn
  rw [List.any_eq_true]
  constructor
  · rintro ⟨m, hm, hst⟩
    obtain ⟨q, hq, hp⟩ := mem_ownMeters.1 hm
    exact ⟨m, q, hq, hp, by simpa using hst⟩
  · rintro ⟨m, q, hq, hp, hst⟩
    exact ⟨m, mem_ownMeters.2 ⟨q, hq, hp⟩, by simpa using hst⟩

theorem leaderLive_iff {s : State} {p : Fin 4} :
    leaderLive s p = true ↔ ∃ q, (s.portal p).leader = some q ∧ (s.portal q).condition = .live := by
  unfold leaderLive
  split
  next h => simp [h]
  next q h => simp [h]

/-- Only the first row of R13 gives LIVE. -/
theorem conditionNow_eq_live {s : State} {p : Fin 4} : conditionNow s p = .live ↔ anyOwn s p .online = true := by
  unfold conditionNow
  split
  next h => exact iff_of_true rfl h
  next h =>
    refine iff_of_false ?_ h
    split
    · nofun
    · split <;> nofun

/-- Only the second row of R13 gives BORROWED. -/
theorem leaderLive_of_borrowed {s : State} {p : Fin 4} (h : conditionNow s p = .borrowed) : leaderLive s p = true := by
  unfold conditionNow at h
  split at h
  · cases h
  · split at h
    next hl => exact hl
    · split at h <;> cases h

theorem conditionNow_congr {s t : State} {p : Fin 4} (hmeters : t.meters = s.meters) (hlead : leaderLive t p = leaderLive s p) :
    conditionNow t p = conditionNow s p := by
  simp only [conditionNow, anyOwn_congr hmeters, hlead]

theorem leaderLive_congr {s t : State} {p : Fin 4} (hleader : (t.portal p).leader = (s.portal p).leader)
    (hlive : ∀ q, (s.portal p).leader = some q → ((t.portal q).condition = .live ↔ (s.portal q).condition = .live)) :
    leaderLive t p = leaderLive s p := by
  rw [Bool.eq_iff_iff, leaderLive_iff, leaderLive_iff, hleader]
  exact exists_congr fun q => and_congr_right fun hq => hlive q hq

/-! ## One evaluation -/

/-- R16: the mark of PHOTOMETRY after a change of condition. -/
def NoticeClass.photometryTold (old new : Condition) (x : NoticeClass) : NoticeClass :=
  if new = .fallback then (if x.holds then x else { x with holds := true, pending := true })
  else if old = .fallback then { x with holds := false, pending := false }
  else x

theorem evalOwnCondition_of_settled {s : State} {p : Fin 4} (h : conditionNow s p = (s.portal p).condition) :
    evalOwnCondition p s = s := if_pos h

theorem evalOwnCondition_of_changed {s : State} {p : Fin 4} (h : conditionNow s p ≠ (s.portal p).condition) :
    evalOwnCondition p s = evalStageShort p (handPhotometry p (s.portal p).condition (conditionNow s p)
      (s.setPortal p { s.portal p with condition := conditionNow s p, lf := lfOnEntry s p (conditionNow s p) })) :=
  if_neg h

theorem portal_handPhotometry (p q : Fin 4) (old new : Condition) (s : State) :
    (handPhotometry p old new s).portal q = s.portal q := by
  unfold handPhotometry
  split
  · rw [handTrue_cases]; rfl
  · split <;> rfl

theorem noticeClass_handPhotometry (p : Fin 4) (old new : Condition) (s : State) :
    (handPhotometry p old new s).noticeClass (photometryClass p)
      = (s.noticeClass (photometryClass p)).photometryTold old new := by
  unfold handPhotometry NoticeClass.photometryTold
  split
  · unfold handTrue
    split
    · rfl
    · exact State.noticeClass_setNoticeClass_self ..
  · split
    · exact State.noticeClass_setNoticeClass_self ..
    · rfl

theorem noticeClass_handPhotometry_of_ne {p : Fin 4} {c : Fin 32} (h : c ≠ photometryClass p) (old new : Condition)
    (s : State) : (handPhotometry p old new s).noticeClass c = s.noticeClass c := by
  unfold handPhotometry handTrue handFalse
  split
  · split
    · rfl
    · exact State.noticeClass_setNoticeClass_of_ne _ _ _ _ h
  · split
    · exact State.noticeClass_setNoticeClass_of_ne _ _ _ _ h
    · rfl

theorem noticeClass_evalStageShort_of_ne {p : Fin 4} {c : Fin 32} (h : c ≠ stageShortClass p) (s : State) :
    (evalStageShort p s).noticeClass c = s.noticeClass c := by
  obtain ⟨b, x, ht, -⟩ := onlyStageShort_evalStageShort p s
  rw [ht]
  exact State.noticeClass_setNoticeClass_of_ne s _ x c h

theorem portal_evalOwnCondition_of_ne {p q : Fin 4} (h : q ≠ p) (s : State) :
    (evalOwnCondition p s).portal q = s.portal q := by
  by_cases hc : conditionNow s p = (s.portal p).condition
  · rw [evalOwnCondition_of_settled hc]
  · rw [evalOwnCondition_of_changed hc, portal_evalStageShort_of_ne h, portal_handPhotometry,
      State.portal_setPortal_of_ne _ _ _ _ h]

theorem portal_evalOwnCondition_of_changed {s : State} {p : Fin 4} (h : conditionNow s p ≠ (s.portal p).condition) :
    (evalOwnCondition p s).portal p = { s.portal p with
      condition := conditionNow s p, lf := lfOnEntry s p (conditionNow s p),
      stageShort := ((evalOwnCondition p s).portal p).stageShort } := by
  rw [evalOwnCondition_of_changed h, portal_evalStageShort, portal_handPhotometry, State.portal_setPortal_self]

theorem condition_evalOwnCondition (p : Fin 4) (s : State) :
    ((evalOwnCondition p s).portal p).condition = conditionNow s p := by
  by_cases h : conditionNow s p = (s.portal p).condition
  · rw [evalOwnCondition_of_settled h, h]
  · rw [portal_evalOwnCondition_of_changed h]

theorem photometryMark_evalOwnCondition_of_changed {s : State} {p : Fin 4}
    (h : conditionNow s p ≠ (s.portal p).condition) :
    (evalOwnCondition p s).noticeClass (photometryClass p)
      = (s.noticeClass (photometryClass p)).photometryTold (s.portal p).condition (conditionNow s p) := by
  rw [evalOwnCondition_of_changed h, noticeClass_evalStageShort_of_ne (photometryClass_ne_stageShortClass p p),
    noticeClass_handPhotometry]
  rfl

theorem photometryMark_evalOwnCondition_of_ne {p q : Fin 4} (h : q ≠ p) (s : State) :
    (evalOwnCondition p s).noticeClass (photometryClass q) = s.noticeClass (photometryClass q) := by
  by_cases hc : conditionNow s p = (s.portal p).condition
  · rw [evalOwnCondition_of_settled hc]
  · rw [evalOwnCondition_of_changed hc, noticeClass_evalStageShort_of_ne (photometryClass_ne_stageShortClass q p),
      noticeClass_handPhotometry_of_ne (fun e => h (photometryClass_inj.1 e))]
    rfl

theorem leader_evalOwnCondition (p q : Fin 4) (s : State) :
    ((evalOwnCondition p s).portal q).leader = (s.portal q).leader := by
  rw [(onlyPhotometry_evalOwnCondition p s).portal]

theorem active_evalOwnCondition (p q : Fin 4) (s : State) :
    ((evalOwnCondition p s).portal q).active = (s.portal q).active := by
  rw [(onlyPhotometry_evalOwnCondition p s).portal]

theorem meters_evalOwnCondition (p : Fin 4) (s : State) : (evalOwnCondition p s).meters = s.meters :=
  ((onlyPhotometry_evalOwnCondition p s).writes (ts := [.portals, .notices])).meters

/-! ## Settled conditions -/

/-- The portal has the condition that its inputs call for (R13). -/
def Settled (s : State) (p : Fin 4) : Prop := (s.portal p).condition = conditionNow s p

/-- The portal's leader is LIVE exactly if it has an ONLINE meter, as it will be once it is evaluated. -/
def LeaderSettled (s : State) (p : Fin 4) : Prop :=
  ∀ q, (s.portal p).leader = some q → ((s.portal q).condition = .live ↔ anyOwn s q .online = true)

theorem Settled.live_iff {s : State} {p : Fin 4} (h : Settled s p) :
    (s.portal p).condition = .live ↔ anyOwn s p .online = true := by rw [h, conditionNow_eq_live]

theorem LeaderSettled.of_leader {s : State} {p q : Fin 4} (hq : (s.portal p).leader = some q) (h : Settled s q) :
    LeaderSettled s p := fun k hk => by
  obtain rfl : k = q := Option.some.inj (hk.symm.trans hq)
  exact h.live_iff

theorem LeaderSettled.evalOwnCondition {s : State} {k : Fin 4} (h : LeaderSettled s k) (p : Fin 4) :
    LeaderSettled (evalOwnCondition p s) k := fun q hq => by
  rw [leader_evalOwnCondition] at hq
  rw [anyOwn_congr (meters_evalOwnCondition p s)]
  by_cases hp : q = p
  · subst hp; rw [condition_evalOwnCondition, conditionNow_eq_live]
  · rw [portal_evalOwnCondition_of_ne hp]; exact h q hq

theorem leaderSettled_of_evaluated {s : State} {k p : Fin 4} (h : (s.portal k).leader = some p) :
    LeaderSettled (evalOwnCondition p s) k := fun q hq => by
  rw [leader_evalOwnCondition] at hq
  obtain rfl : p = q := Option.some.inj (h.symm.trans hq)
  rw [anyOwn_congr (meters_evalOwnCondition p s), condition_evalOwnCondition, conditionNow_eq_live]

/-- An evaluation does not change what a settled leader is to its follower. -/
theorem LeaderSettled.conditionNow {s : State} {k : Fin 4} (h : LeaderSettled s k) (p : Fin 4) :
    conditionNow (Machine.evalOwnCondition p s) k = conditionNow s k := by
  refine conditionNow_congr (meters_evalOwnCondition p s)
    (leaderLive_congr (leader_evalOwnCondition p k s) fun q hq => ?_)
  by_cases hp : q = p
  · subst hp; rw [condition_evalOwnCondition, conditionNow_eq_live, h q hq]
  · rw [portal_evalOwnCondition_of_ne hp]

theorem Settled.evalOwnCondition {s : State} {k : Fin 4} (h : Settled s k) (hl : LeaderSettled s k) (p : Fin 4) :
    Settled (evalOwnCondition p s) k := by
  unfold Settled
  rw [hl.conditionNow p]
  by_cases hp : k = p
  · subst hp; exact condition_evalOwnCondition k s
  · rw [portal_evalOwnCondition_of_ne hp]; exact h

theorem settled_evalOwnCondition {s : State} {p : Fin 4} (h : LeaderSettled s p) : Settled (evalOwnCondition p s) p :=
  (condition_evalOwnCondition p s).trans (h.conditionNow p).symm

/-! ## Entries (R14 to R16) -/

/-- R14 to R16: Lf after the entry into a condition, with the leader's Lf. -/
def Portal.lfEntered (x : Portal) (leaderLf : Option Nat) : Condition → Option Nat
  | .unset => none
  | .live => x.lf
  | .borrowed => if x.lf = none then leaderLf else x.lf
  | .fallback => some (max (x.lf.getD 0) x.active.lfb)

theorem lfOnEntry_eq (s : State) (p : Fin 4) (c : Condition) :
    lfOnEntry s p c = (s.portal p).lfEntered (leaderLf s p) c := by
  cases c
  case unset | live => rfl
  case borrowed | fallback =>
    unfold lfOnEntry Portal.lfEntered
    cases h : (s.portal p).lf <;> simp

/-- What PhotometryEntered says of a portal besides its condition. -/
def EntryAt (s t : State) (p : Fin 4) : Prop :=
  ((t.portal p).condition = (s.portal p).condition → (t.portal p).lf = (s.portal p).lf
      ∧ t.noticeClass (photometryClass p) = s.noticeClass (photometryClass p))
    ∧ ((t.portal p).condition ≠ (s.portal p).condition →
      (t.portal p).lf = (s.portal p).lfEntered (leaderLf t p) (t.portal p).condition
      ∧ t.noticeClass (photometryClass p) = (s.noticeClass (photometryClass p)).photometryTold (s.portal p).condition
          (t.portal p).condition)

theorem photometryEntered_iff {s t : State} :
    PhotometryEntered s t ↔ (∀ p, Settled t p) ∧ ∀ p, EntryAt s t p := by
  rw [← forall_and]
  refine forall_congr' fun p => and_congr_right fun _ => and_congr_right fun _ => imp_congr_right fun _ =>
    and_congr_left fun _ => Eq.congr_right ?_
  unfold leaderLf Portal.lfEntered
  cases (t.portal p).condition <;> cases (s.portal p).lf <;> cases (t.portal p).leader <;> rfl

theorem LeaderSettled.not_borrowed {s : State} {p : Fin 4} (h : LeaderSettled s p) (hp : (s.portal p).leader = some p) :
    Machine.conditionNow s p ≠ .borrowed := fun hb => by
  obtain ⟨q, hq, hlive⟩ := leaderLive_iff.1 (leaderLive_of_borrowed hb)
  obtain rfl : p = q := Option.some.inj (hp.symm.trans hq)
  rw [conditionNow_eq_live.2 ((h p hq).1 hlive)] at hb
  cases hb

/-- A portal's photometry is that of another state. -/
structure Untouched (s t : State) (p : Fin 4) : Prop where
  condition : (t.portal p).condition = (s.portal p).condition
  lf : (t.portal p).lf = (s.portal p).lf
  active : (t.portal p).active = (s.portal p).active
  mark : t.noticeClass (photometryClass p) = s.noticeClass (photometryClass p)

/-- A portal has been evaluated since another state, and its leader is settled. -/
structure Evaluated (s t : State) (p : Fin 4) : Prop where
  leader : LeaderSettled t p
  settled : Settled t p
  entry : EntryAt s t p

/-- Since another state, nothing but evaluations has changed the photometry of a portal. -/
def OnlyEvaluated (s t : State) (p : Fin 4) : Prop := Untouched s t p ∨ Evaluated s t p

theorem Untouched.entry {s t : State} {p : Fin 4} (h : Untouched s t p) : EntryAt s t p :=
  ⟨fun _ => ⟨h.lf, h.mark⟩, fun hne => absurd h.condition hne⟩

theorem OnlyEvaluated.entry {s t : State} {p : Fin 4} (h : OnlyEvaluated s t p) : EntryAt s t p :=
  h.elim Untouched.entry Evaluated.entry

theorem Untouched.evaluated {s t : State} {p : Fin 4} (h : Untouched s t p) (hl : LeaderSettled t p) :
    Evaluated s (evalOwnCondition p t) p := by
  refine ⟨hl.evalOwnCondition p, settled_evalOwnCondition hl, ?_⟩
  by_cases hc : conditionNow t p = (t.portal p).condition
  · rw [evalOwnCondition_of_settled hc]
    exact h.entry
  refine ⟨fun e => absurd ((condition_evalOwnCondition p t).symm.trans (e.trans h.condition.symm)) hc, fun _ => ?_⟩
  have hlf : leaderLf (evalOwnCondition p t) p = leaderLf t p ∨ conditionNow t p ≠ .borrowed := by
    unfold leaderLf
    rw [leader_evalOwnCondition]
    cases hq : (t.portal p).leader with
    | none => exact .inl rfl
    | some q =>
      by_cases hp : q = p
      · subst hp; exact .inr (hl.not_borrowed hq)
      · exact .inl (congrArg Portal.lf (portal_evalOwnCondition_of_ne hp t))
  have hlf' : ((evalOwnCondition p t).portal p).lf = lfOnEntry t p (conditionNow t p) := by
    rw [portal_evalOwnCondition_of_changed hc]
  rw [hlf', photometryMark_evalOwnCondition_of_changed hc, condition_evalOwnCondition, h.mark, h.condition, lfOnEntry_eq]
  refine ⟨?_, rfl⟩
  unfold Portal.lfEntered
  rw [h.lf, h.active]
  obtain e | hb := hlf
  · rw [e]
  · cases hnow : conditionNow t p
    case borrowed => exact absurd hnow hb
    all_goals rfl

theorem OnlyEvaluated.evaluated {s t : State} {p : Fin 4} (h : OnlyEvaluated s t p) (hl : LeaderSettled t p) :
    Evaluated s (evalOwnCondition p t) p := by
  obtain h | h := h
  · exact h.evaluated hl
  · rw [evalOwnCondition_of_settled h.settled.symm]
    exact h

theorem OnlyEvaluated.evalOwnCondition {s t : State} {k : Fin 4} (h : OnlyEvaluated s t k) {p : Fin 4}
    (hl : LeaderSettled t p) : OnlyEvaluated s (Machine.evalOwnCondition p t) k := by
  by_cases hk : k = p
  · subst hk; exact .inr (h.evaluated hl)
  obtain h | h := h
  · refine .inl ⟨?_, ?_, ?_, ?_⟩
    · rw [portal_evalOwnCondition_of_ne hk]; exact h.condition
    · rw [portal_evalOwnCondition_of_ne hk]; exact h.lf
    · rw [portal_evalOwnCondition_of_ne hk]; exact h.active
    · rw [photometryMark_evalOwnCondition_of_ne hk]; exact h.mark
  · refine .inr ⟨h.leader.evalOwnCondition p, h.settled.evalOwnCondition h.leader p, ?_⟩
    obtain ⟨hsame, hentry⟩ := h.entry
    unfold EntryAt
    rw [portal_evalOwnCondition_of_ne hk, photometryMark_evalOwnCondition_of_ne hk]
    refine ⟨hsame, fun hne => ⟨?_, (hentry hne).2⟩⟩
    rw [(hentry hne).1]
    by_cases hq : (t.portal k).leader = some p
    · cases hc : (t.portal k).condition
      case borrowed =>
        have hb : conditionNow t k = .borrowed := by rw [← h.settled, hc]
        obtain ⟨q, hq', hlive⟩ := leaderLive_iff.1 (leaderLive_of_borrowed hb)
        obtain rfl : p = q := Option.some.inj (hq.symm.trans hq')
        rw [evalOwnCondition_of_settled ((conditionNow_eq_live.2 ((h.leader p hq).1 hlive)).trans hlive.symm)]
      all_goals rfl
    · have hleader : leaderLf (Machine.evalOwnCondition p t) k = leaderLf t k := by
        unfold leaderLf
        rw [leader_evalOwnCondition]
        cases hk' : (t.portal k).leader with
        | none => rfl
        | some q =>
          exact congrArg Portal.lf (portal_evalOwnCondition_of_ne (fun e => hq (by rw [hk', e])) t)
      rw [hleader]

/-! ## Evaluations of a portal and its followers -/

theorem forEach_evalOwnCondition (xs : List (Fin 4)) {t : State} (hl : ∀ k, LeaderSettled t k) :
    (∀ k, LeaderSettled (forEach xs evalOwnCondition t) k)
      ∧ (∀ k, k ∈ xs ∨ Settled t k → Settled (forEach xs evalOwnCondition t) k)
      ∧ ∀ s k, OnlyEvaluated s t k → OnlyEvaluated s (forEach xs evalOwnCondition t) k := by
  induction xs generalizing t with
  | nil => exact ⟨hl, fun k h => h.resolve_left List.not_mem_nil, fun _ _ h => h⟩
  | cons p xs ih =>
    obtain ⟨hleader, hsettled, honly⟩ := ih fun k => (hl k).evalOwnCondition p
    rw [forEach_cons]
    refine ⟨hleader, fun k h => hsettled k ?_, fun s k h => honly s k (h.evalOwnCondition (hl p))⟩
    obtain h | h := h
    · obtain rfl | h := List.mem_cons.1 h
      · exact .inr (settled_evalOwnCondition (hl k))
      · exact .inl h
    · exact .inr (h.evalOwnCondition (hl k) p)

theorem evalCondition_of_settled {s : State} {p : Fin 4} (h : Settled s p) : evalCondition p s = s := by
  unfold evalCondition
  rw [evalOwnCondition_of_settled h.symm]
  exact if_pos rfl

theorem evalCondition_of_changed {s : State} {p : Fin 4} (h : ¬ Settled s p) :
    evalCondition p s = forEach (followers (evalOwnCondition p s) p) evalOwnCondition (evalOwnCondition p s) := by
  unfold evalCondition
  refine if_neg fun e => h ?_
  rw [condition_evalOwnCondition] at e
  exact e.symm

/-- After the evaluation of a portal whose leader is settled, and of its followers when it changed: every leader is settled, and
the portal and every portal that had its condition have theirs. -/
theorem evalCondition_settles {s : State} {p : Fin 4} (hl : ∀ k, (s.portal k).leader ≠ some p → LeaderSettled s k)
    (hself : LeaderSettled s p) :
    (∀ k, LeaderSettled (evalCondition p s) k) ∧ (∀ k, k = p ∨ Settled s k → Settled (evalCondition p s) k)
      ∧ ∀ u k, OnlyEvaluated u s k → OnlyEvaluated u (evalCondition p s) k := by
  by_cases hp : Settled s p
  · rw [evalCondition_of_settled hp]
    refine ⟨fun k => ?_, fun k hk => ?_, fun _ _ h => h⟩
    · by_cases hk : (s.portal k).leader = some p
      · exact .of_leader hk hp
      · exact hl k hk
    · obtain rfl | hk := hk
      · exact hp
      · exact hk
  · rw [evalCondition_of_changed hp]
    have hleaders : ∀ k, LeaderSettled (evalOwnCondition p s) k := fun k => by
      by_cases hk : (s.portal k).leader = some p
      · exact leaderSettled_of_evaluated hk
      · exact (hl k hk).evalOwnCondition p
    obtain ⟨hleader, hsettled, honly⟩ := forEach_evalOwnCondition (followers (evalOwnCondition p s) p) hleaders
    refine ⟨hleader, fun k hk => hsettled k ?_, fun u k h => honly u k (h.evalOwnCondition hself)⟩
    obtain rfl | hk := hk
    · exact .inr (settled_evalOwnCondition hself)
    · by_cases hfollows : (s.portal k).leader = some p
      · exact .inl (mem_followers.2 (by rw [leader_evalOwnCondition]; exact hfollows))
      · exact .inr (hk.evalOwnCondition (hl k hfollows) p)

theorem evalStageShort_settles (p : Fin 4) (s : State) :
    (∀ k, LeaderSettled s k → LeaderSettled (evalStageShort p s) k)
      ∧ (∀ k, Settled s k → Settled (evalStageShort p s) k) ∧ ∀ u k, EntryAt u s k → EntryAt u (evalStageShort p s) k := by
  have hkept := PhotometryKept.evalStageShort p s
  have hmeters : (evalStageShort p s).meters = s.meters :=
    ((onlyPhotometry_evalStageShort p s).writes (ts := [.portals, .notices])).meters
  refine ⟨fun k h q hq => ?_, fun k h => ?_, fun u k h => ?_⟩
  · rw [hkept.leader] at hq
    rw [hkept.condition, anyOwn_congr hmeters]
    exact h q hq
  · unfold Settled
    rw [hkept.condition, conditionNow_congr hmeters (leaderLive_congr (hkept.leader k) fun q _ => by rw [hkept.condition])]
    exact h
  · have hleaderLf : leaderLf (evalStageShort p s) k = leaderLf s k := by
      unfold leaderLf
      rw [hkept.leader]
      cases (s.portal k).leader with
      | none => rfl
      | some q => exact hkept.lf q
    unfold EntryAt at h ⊢
    rw [hkept.condition, hkept.lf, hleaderLf, noticeClass_evalStageShort_of_ne (photometryClass_ne_stageShortClass k p)]
    exact h

end Sys2Proof.Machine
end

section
/-! SUPPORT. The evaluations of photometry after a change of the meter table, of the coupling, and of everything at once. -/

namespace Sys2Proof.Machine

/-! ## A meter table entry is written (R2, R3, R9) -/

theorem Meter.owns_eq_false_iff {x : Meter} {p : Fin 4} : x.owns p = false ↔ ∀ q, x.site = some q → q.portal ≠ p := by
  rw [← Bool.not_eq_true, Meter.owns_iff]
  push Not
  rfl

theorem anyOwn_setMeter {s b : State} {m : Fin 8} {x : Meter} (hb : b.meters = (s.setMeter m x).meters) {p : Fin 4}
    {st : MeterState} (hold : (s.meter m).owns p = false ∨ (s.meter m).state ≠ st)
    (hnew : x.owns p = false ∨ x.state ≠ st) : anyOwn b p st = anyOwn s p st := by
  rw [anyOwn_congr hb, Bool.eq_iff_iff, anyOwn_iff, anyOwn_iff]
  refine exists_congr fun k => ?_
  by_cases hk : k = m
  · subst hk
    rw [State.meter_setMeter_self]
    refine iff_of_false ?_ ?_
    · rintro ⟨q, hq, hp, hst⟩
      exact hnew.elim (fun h => Meter.owns_eq_false_iff.1 h q hq hp) fun h => h hst
    · rintro ⟨q, hq, hp, hst⟩
      exact hold.elim (fun h => Meter.owns_eq_false_iff.1 h q hq hp) fun h => h hst
  · rw [State.meter_setMeter_of_ne _ _ _ _ hk]

/-- What differs from a settled state is one entry of the meter table, now not ONLINE, and nothing an evaluation goes by
besides. -/
structure EntryWritten (s b : State) (m : Fin 8) (x : Meter) : Prop where
  coupling : CouplingLaw s
  settled : ∀ k, Settled s k
  meters : b.meters = (s.setMeter m x).meters
  portals : b.portals = s.portals
  marks : ∀ p, b.noticeClass (photometryClass p) = s.noticeClass (photometryClass p)
  offline : x.state ≠ .online

namespace EntryWritten

variable {s b : State} {m : Fin 8} {x : Meter}

theorem portal (h : EntryWritten s b m x) (p : Fin 4) : b.portal p = s.portal p := by
  rw [State.portal, State.portal, h.portals]

theorem onlyEvaluated (h : EntryWritten s b m x) (p : Fin 4) : OnlyEvaluated s b p :=
  .inl ⟨by rw [h.portal], by rw [h.portal], by rw [h.portal], h.marks p⟩

theorem leaderSettled (h : EntryWritten s b m x) {k : Fin 4}
    (hk : ∀ q, (s.meter m).site = some q → (s.portal k).leader ≠ some q.portal) : LeaderSettled b k := fun q hq => by
  rw [h.portal] at hq ⊢
  rw [anyOwn_setMeter h.meters (.inl (Meter.owns_eq_false_iff.2 fun r hr e => hk r hr (e ▸ hq))) (.inr h.offline)]
  exact (h.settled q).live_iff

theorem settled_of_apart (h : EntryWritten s b m x) {k : Fin 4} (hold : (s.meter m).owns k = false)
    (hnew : x.owns k = false) : Settled b k := by
  have hany : ∀ st, anyOwn b k st = anyOwn s k st := fun st => anyOwn_setMeter h.meters (.inl hold) (.inl hnew)
  have hlead : leaderLive b k = leaderLive s k := leaderLive_congr (by rw [h.portal]) fun q _ => by rw [h.portal]
  unfold Settled conditionNow
  rw [h.portal, hany, hany, hlead]
  exact h.settled k

/-- R2, R3: after the evaluation of the portal that the entry leaves. -/
theorem evalFormer (h : EntryWritten s b m x) {now : Option (Fin 4)}
    (hnow : ∀ q, x.site = some q → now = some q.portal) :
    (∀ k, (∀ p, now = some p → (s.portal k).leader ≠ some p) → LeaderSettled (evalFormer (s.meter m).site now b) k)
      ∧ (∀ k, now ≠ some k → Settled (evalFormer (s.meter m).site now b) k)
      ∧ ∀ k, OnlyEvaluated s (evalFormer (s.meter m).site now b) k := by
  have hnew : ∀ k, now ≠ some k → x.owns k = false := fun k hk =>
    Meter.owns_eq_false_iff.2 fun q hq e => hk (e ▸ hnow q hq)
  unfold Machine.evalFormer
  split
  next hsite =>
    refine ⟨fun k _ => h.leaderSettled fun q hq => ?_, fun k hk => h.settled_of_apart ?_ (hnew k hk), h.onlyEvaluated⟩
    · rw [hsite] at hq; cases hq
    · exact Meter.owns_eq_false_iff.2 fun q hq => by rw [hsite] at hq; cases hq
  next f hsite =>
    have hsites : ∀ q, (s.meter m).site = some q → q = f := fun q hq => Option.some.inj (hq.symm.trans hsite)
    split
    next hstays =>
      refine ⟨fun k hk => h.leaderSettled fun q hq => ?_, fun k hk => h.settled_of_apart ?_ (hnew k hk), h.onlyEvaluated⟩
      · rw [hsites q hq]; exact hk f.portal hstays
      · exact Meter.owns_eq_false_iff.2 fun q hq e => hk (by rw [hstays, ← hsites q hq, e])
    · obtain ⟨hleader, hsettled, honly⟩ := evalCondition_settles (s := b) (p := f.portal)
        (fun k hk => h.leaderSettled fun q hq => by rw [hsites q hq, ← h.portal]; exact hk)
        (h.leaderSettled fun q hq hl => by
          rw [hsites q hq] at hl
          exact h.coupling.ne_of_leader hl rfl)
      refine ⟨fun k _ => hleader k, fun k hk => hsettled k ?_, fun k => honly s k (h.onlyEvaluated k)⟩
      by_cases e : k = f.portal
      · exact .inl e
      · refine .inr (h.settled_of_apart (Meter.owns_eq_false_iff.2 fun q hq hp => e ?_) (hnew k hk))
        rw [← hp, hsites q hq]

/-- R3: an entry that becomes UNCONFIGURED. -/
theorem removed (h : EntryWritten s b m x) (hsite : x.site = none) :
    PhotometryEntered s (Machine.evalFormer (s.meter m).site none b) := by
  obtain ⟨-, hsettled, honly⟩ := h.evalFormer (now := none) fun q hq => by rw [hsite] at hq; cases hq
  exact photometryEntered_iff.2 ⟨fun k => hsettled k nofun, fun k => (honly k).entry⟩

/-- R2, R9: an entry of a portal that is evaluated after the portal that the entry leaves. -/
theorem evaluated (h : EntryWritten s b m x) {q : MeterSite} (hsite : x.site = some q) :
    PhotometryEntered s (evalCondition q.portal (Machine.evalFormer (s.meter m).site (some q.portal) b)) := by
  obtain ⟨hleader, hsettled, honly⟩ := h.evalFormer (now := some q.portal) fun r hr => by
    rw [Option.some.inj (hr.symm.trans hsite)]
  have hleaderOf : ∀ k, ((Machine.evalFormer (s.meter m).site (some q.portal) b).portal k).leader = (s.portal k).leader :=
    fun k => by rw [(onlyPhotometry_evalFormer ..).portal]; rw [h.portal]
  obtain ⟨-, hsettled', honly'⟩ := evalCondition_settles (p := q.portal)
    (fun k hk => hleader k fun p e => by cases e; rw [← hleaderOf]; exact hk)
    (hleader q.portal fun p e hl => by cases e; exact h.coupling.ne_of_leader hl rfl)
  refine photometryEntered_iff.2 ⟨fun k => hsettled' k ?_, fun k => (honly' s k (honly k)).entry⟩
  by_cases e : k = q.portal
  · exact .inl e
  · exact .inr (hsettled k fun hk => e (Option.some.inj hk).symm)

end EntryWritten

theorem PhotometryLaw.settled {s : State} (h : PhotometryLaw s) (hr : s.resetN = true) (p : Fin 4) : Settled s p :=
  (h hr p).1

theorem photometryEntered_removeMeter {s : State} (hr : s.resetN = true) (hcoupling : CouplingLaw s)
    (hlaw : PhotometryLaw s) (m : Fin 8) : PhotometryEntered s (removeMeter m s) :=
  EntryWritten.removed ⟨hcoupling, hlaw.settled hr, rfl, rfl, fun _ => rfl, nofun⟩ rfl

theorem photometryEntered_configureMeter {s : State} (hr : s.resetN = true) (hcoupling : CouplingLaw s)
    (hlaw : PhotometryLaw s) (m : Fin 8) (address : Nat) (p : Fin 4) :
    PhotometryEntered s (configureMeter m address p s) := by
  have written : EntryWritten s (s.setMeter m (configuredMeter s address p)) m (configuredMeter s address p) :=
    ⟨hcoupling, hlaw.settled hr, rfl, rfl, fun _ => rfl, nofun⟩
  exact written.evaluated (q := ⟨address, p⟩) rfl

theorem photometryClass_ne_meterLostClass (p q : Fin 4) : photometryClass p ≠ meterLostClass q := by
  revert p q; decide

theorem evalFormer_of_same (q : MeterSite) (s : State) : evalFormer (some q) (some q.portal) s = s := if_pos rfl

/-- R9: the entry of a meter that is lost. -/
theorem photometryEntered_meterLost {s : State} (hr : s.resetN = true) (hcoupling : CouplingLaw s)
    (hlaw : PhotometryLaw s) {m : Fin 8} {q : MeterSite} (hsite : (s.meter m).site = some q) :
    PhotometryEntered s (evalCondition q.portal (handEvent (meterLostClass q.portal)
      (s.setMeter m { s.meter m with state := .lost, lost := true, hold := none }))) := by
  have written : EntryWritten s (handEvent (meterLostClass q.portal)
      (s.setMeter m { s.meter m with state := .lost, lost := true, hold := none })) m
      { s.meter m with state := .lost, lost := true, hold := none } :=
    ⟨hcoupling, hlaw.settled hr, rfl, rfl, fun p => State.noticeClass_setNoticeClass_of_ne _ _ _ _
      (photometryClass_ne_meterLostClass p q.portal), nofun⟩
  have hentered := written.evaluated (q := q) hsite
  rwa [hsite, evalFormer_of_same] at hentered

/-! ## A coupling is made or broken (R47) -/

theorem couple_of_same {s : State} {p : Fin 4} {l : Option (Fin 4)} (h : (s.portal p).leader = l) : couple p l s = s :=
  if_pos h

theorem couple_of_changed {s : State} {p : Fin 4} {l : Option (Fin 4)} (h : (s.portal p).leader ≠ l) :
    couple p l s = evalCondition p (s.setPortal p { s.portal p with leader := l }) := if_neg h

theorem photometryEntered_couple {s : State} (hr : s.resetN = true) (hlaw : PhotometryLaw s) {p : Fin 4}
    {l : Option (Fin 4)} :
    PhotometryEntered s (evalCondition p (s.setPortal p { s.portal p with leader := l })) := by
  have hportal := s.portal_setPortal_induction (p := p) (y := { s.portal p with leader := l })
    (P := fun k y => y.condition = (s.portal k).condition ∧ y.lf = (s.portal k).lf ∧ y.active = (s.portal k).active)
    ⟨rfl, rfl, rfl⟩ fun _ _ => ⟨rfl, rfl, rfl⟩
  have hleaders : ∀ k, LeaderSettled (s.setPortal p { s.portal p with leader := l }) k := fun k q _ => by
    rw [(hportal q).1]
    exact (hlaw.settled hr q).live_iff
  obtain ⟨-, hsettled, honly⟩ := evalCondition_settles (p := p) (fun k _ => hleaders k) (hleaders p)
  refine photometryEntered_iff.2 ⟨fun k => hsettled k ?_, fun k => (honly s k (.inl ?_)).entry⟩
  · by_cases hk : k = p
    · exact .inl hk
    · refine .inr ?_
      have hnow : conditionNow (s.setPortal p { s.portal p with leader := l }) k = conditionNow s k :=
        conditionNow_congr rfl (leaderLive_congr (by rw [State.portal_setPortal_of_ne _ _ _ _ hk])
          fun q _ => by rw [(hportal q).1])
      unfold Settled
      rw [hnow, (hportal k).1]
      exact hlaw.settled hr k
  · exact ⟨(hportal k).1, (hportal k).2.1, (hportal k).2.2, rfl⟩

/-! ## Everything at once (R168, R169) -/

theorem forEach_evalCondition (xs : List (Fin 4)) {t : State} (hl : ∀ k, LeaderSettled t k) :
    (∀ k, LeaderSettled (forEach xs evalCondition t) k)
      ∧ (∀ k, k ∈ xs ∨ Settled t k → Settled (forEach xs evalCondition t) k)
      ∧ ∀ s k, OnlyEvaluated s t k → OnlyEvaluated s (forEach xs evalCondition t) k := by
  induction xs generalizing t with
  | nil => exact ⟨hl, fun k h => h.resolve_left List.not_mem_nil, fun _ _ h => h⟩
  | cons p xs ih =>
    obtain ⟨hleader', hsettled', honly'⟩ := evalCondition_settles (p := p) (fun k _ => hl k) (hl p)
    obtain ⟨hleader, hsettled, honly⟩ := ih hleader'
    rw [forEach_cons]
    refine ⟨hleader, fun k h => hsettled k ?_, fun s k h => honly s k (honly' s k h)⟩
    obtain h | h := h
    · obtain rfl | h := List.mem_cons.1 h
      · exact .inr (hsettled' k (.inl rfl))
      · exact .inl h
    · exact .inr (hsettled' k (.inr h))

/-- R13: the evaluation of every portal, with every leader settled already. -/
theorem photometryEntered_evaluateAll {s : State} (h : ∀ k, LeaderSettled s k) :
    PhotometryEntered s (evaluateAll s) := by
  obtain ⟨-, hsettled, honly⟩ := forEach_evalCondition allPortals h
  have hstage := forEach_induction (P := fun t => (∀ k, Settled t k) ∧ ∀ k, EntryAt s t k) allPortals
    (f := evalStageShort) (s := forEach allPortals evalCondition s)
    ⟨fun k => hsettled k (.inl (mem_allPortals k)),
      fun k => (honly s k (.inl ⟨rfl, rfl, rfl, rfl⟩)).entry⟩
    fun p _ t ht => ⟨fun k => (evalStageShort_settles p t).2.1 k (ht.1 k),
      fun k => (evalStageShort_settles p t).2.2 s k (ht.2 k)⟩
  exact photometryEntered_iff.2 hstage

/-- Where no meter is ONLINE and no portal LIVE, every leader is settled. -/
theorem leaderSettled_of_dark {s : State} (hmeters : ∀ m, (s.meter m).state ≠ .online)
    (hportals : ∀ p, (s.portal p).condition ≠ .live) (k : Fin 4) : LeaderSettled s k := fun q _ =>
  iff_of_false (hportals q) fun h => by
    obtain ⟨m, -, -, -, hm⟩ := anyOwn_iff.1 h
    exact hmeters m hm

/-! ## Lf (R13) -/

/-- R13: Lf is set exactly while the condition is not UNSET. -/
def LfSet (s : State) (p : Fin 4) : Prop := (s.portal p).lf = none ↔ (s.portal p).condition = .unset

theorem Portal.lfEntered_borrowed (x : Portal) (leaderLf : Option Nat) :
    x.lfEntered leaderLf .borrowed = if x.lf = none then leaderLf else x.lf := rfl

/-- Lf stays set while no portal enters LIVE, which alone could leave it unset. -/
theorem PhotometryEntered.lfSet {s t : State} (h : PhotometryEntered s t) (hs : ∀ k, LfSet s k)
    (hlive : ∀ k, (t.portal k).condition = .live → (s.portal k).condition = .live) (p : Fin 4) : LfSet t p := by
  obtain ⟨hsettled, hentry⟩ := photometryEntered_iff.1 h
  obtain ⟨hsame, hchanged⟩ := hentry p
  by_cases hc : (t.portal p).condition = (s.portal p).condition
  · unfold LfSet
    rw [(hsame hc).1, hc]
    exact hs p
  have hlf := (hchanged hc).1
  unfold LfSet
  cases hnow : (t.portal p).condition <;> rw [hnow] at hlf
  case unset => exact iff_of_true hlf rfl
  case live => exact absurd ((hlive p hnow).trans hnow.symm).symm hc
  case fallback => exact iff_of_false (by rw [hlf]; nofun) nofun
  case borrowed =>
    refine iff_of_false ?_ nofun
    rw [hlf]
    rw [Portal.lfEntered_borrowed]
    split
    · obtain ⟨q, hq, hlq⟩ := leaderLive_iff.1 (leaderLive_of_borrowed ((hsettled p).symm.trans hnow))
      unfold leaderLf
      rw [hq]
      show (t.portal q).lf ≠ none
      have hsq := hlive q hlq
      rw [((hentry q).1 (hlq.trans hsq.symm)).1]
      intro hnone
      have := (hs q).1 hnone
      rw [hsq] at this
      cases this
    next hne => exact hne

end Sys2Proof.Machine
end

section
/-! SUPPORT. The operands of host commands (00_scope.md section 7), and SET_METER, SET_COUPLING and the hold timer (R2, R3, R9,
R47). -/

namespace Sys2Proof.Machine

/-! ## Operands -/

theorem portalOf_of_gt {b : Byte} (h : 3 < b.toNat) : portalOf b = none := dif_neg (by omega)

theorem portalOf_of_val {b : Byte} {p : Fin 4} (h : p.val = b.toNat) : portalOf b = some p := portalOf_eq_some.2 h

theorem exists_portal_of_le {b : Byte} (h : ¬ 3 < b.toNat) : ∃ p : Fin 4, p.val = b.toNat := ⟨⟨b.toNat, by omega⟩, rfl⟩

theorem meterOf_of_gt {b : Byte} (h : 7 < b.toNat) : meterOf b = none := dif_neg (by omega)

theorem meterOf_of_val {b : Byte} {m : Fin 8} (h : m.val = b.toNat) : meterOf b = some m := by
  have hlt : b.toNat < 8 := by omega
  rw [meterOf, dif_pos hlt]
  exact congrArg some (Fin.ext h.symm)

theorem byte_eq_zero_or_one {b : Byte} (h : ¬ 1 < b.toNat) : b = 0 ∨ b = 1 := by bv_omega

theorem ne_zero_and_ne_one_of_gt {b : Byte} (h : 1 < b.toNat) : b ≠ 0 ∧ b ≠ 1 :=
  ⟨fun e => by subst e; exact absurd h (by decide), fun e => by subst e; exact absurd h (by decide)⟩

theorem runModeOf_of_gt {b : Byte} (h : 1 < b.toNat) : runModeOf b = none := by
  obtain ⟨h0, h1⟩ := ne_zero_and_ne_one_of_gt h
  rw [runModeOf, if_neg h0, if_neg h1]

theorem switchOf_of_gt {b : Byte} (h : 1 < b.toNat) : switchOf b = none := by
  obtain ⟨h0, h1⟩ := ne_zero_and_ne_one_of_gt h
  rw [switchOf, if_neg h0, if_neg h1]

/-- A command that is carried out without a payload and clamps nothing. -/
theorem Answers.of_done {c : Instr} {s : State} {n : Nat} {work : State → Answered} (hc : exec c s = takeCommand n work s)
    (hs : s.listening) {t : State} (hw : work s = done false t) (hp : t.port = s.port) : Answers c s .ok [] t :=
  Answers.of_work hc hs hw hp

theorem answer_of_clamped (clamped : Prop) [Decidable clamped] (b : Bool) (h : b = true ↔ clamped) :
    (if b then Answer.clamped else .ok) = carried clamped := by
  unfold carried
  by_cases hc : clamped
  · rw [if_pos hc, if_pos (h.2 hc)]
  · rw [if_neg hc, if_neg (fun hb => hc (h.1 hb))]

/-- A command that is carried out without a payload, and answers CLAMPED when it clamped. -/
theorem Answers.of_done_clamped {c : Instr} {s : State} {n : Nat} {work : State → Answered}
    (hc : exec c s = takeCommand n work s) (hs : s.listening) {t : State} {b : Bool} (hw : work s = done b t)
    (hp : t.port = s.port) {clamped : Prop} [Decidable clamped] (hb : b = true ↔ clamped) :
    Answers c s (carried clamped) [] t := by
  rw [← answer_of_clamped clamped b hb]
  exact Answers.of_work hc hs hw hp

/-! ## SET_METER (R2, R3) -/

theorem nodup_ownMeters (s : State) (p : Fin 4) : (ownMeters s p).Nodup := nodup_allMeters.filter _

theorem two_le_length_iff {α : Type} [DecidableEq α] {l : List α} (h : l.Nodup) :
    2 ≤ l.length ↔ ∃ j k, j ∈ l ∧ k ∈ l ∧ j ≠ k := by
  rw [← List.toFinset_card_of_nodup h]
  refine Finset.one_lt_card.trans ?_
  simp only [List.mem_toFinset]
  constructor
  · rintro ⟨j, hj, k, hk, hne⟩
    exact ⟨j, k, hj, hk, hne⟩
  · rintro ⟨j, k, hj, hk, hne⟩
    exact ⟨j, hj, k, hk, hne⟩

theorem meterAddressUsed_iff {s : State} {m : Fin 8} {a : Nat} :
    meterAddressUsed s m a = true ↔ ∃ k q, k ≠ m ∧ (s.meter k).site = some q ∧ q.address = a := by
  unfold meterAddressUsed
  rw [List.any_eq_true]
  simp only [mem_allMeters, true_and, Bool.and_eq_true, bne_iff_ne, Option.any_eq_true, beq_iff_eq]
  exact exists_congr fun k => by rw [← exists_and_left]

theorem meterLimitReached_iff {s : State} {m : Fin 8} {p : Fin 4} :
    meterLimitReached s m p = true ↔ ∃ j k x y, j ≠ k ∧ j ≠ m ∧ k ≠ m ∧ (s.meter j).site = some x
      ∧ (s.meter k).site = some y ∧ x.portal = p ∧ y.portal = p := by
  unfold meterLimitReached
  rw [decide_eq_true_iff, two_le_length_iff ((nodup_ownMeters s p).filter _)]
  simp only [List.mem_filter, mem_ownMeters, bne_iff_ne]
  constructor
  · rintro ⟨j, k, ⟨⟨x, hx, hxp⟩, hj⟩, ⟨⟨y, hy, hyp⟩, hk⟩, hne⟩
    exact ⟨j, k, x, y, hne, hj, hk, hx, hy, hxp, hyp⟩
  · rintro ⟨j, k, x, y, hne, hj, hk, hx, hy, hxp, hyp⟩
    exact ⟨j, k, ⟨⟨x, hx, hxp⟩, hj⟩, ⟨⟨y, hy, hyp⟩, hk⟩, hne⟩

theorem setMeter_of_remove {meter : Byte} {m : Fin 8} (hm : m.val = meter.toNat) (address portal : Byte) (s : State) :
    setMeter meter 1 address portal s = done false (removeMeter m s) := by
  rw [setMeter, meterOf_of_val hm]
  rfl

theorem setMeter_of_badOperation {meter operation : Byte} {m : Fin 8} (hm : m.val = meter.toNat)
    (h : 1 < operation.toNat) (address portal : Byte) (s : State) :
    setMeter meter operation address portal s = refuse .badValue s := by
  obtain ⟨h0, h1⟩ := ne_zero_and_ne_one_of_gt h
  rw [setMeter, meterOf_of_val hm]
  exact (if_neg h1).trans (if_pos h0)

theorem setMeter_of_badAddress {meter : Byte} {m : Fin 8} (hm : m.val = meter.toNat) {address : Byte}
    (h : address = 0 ∨ 31 < address.toNat) (portal : Byte) (s : State) :
    setMeter meter 0 address portal s = refuse .badValue s := by
  have h' : address.toNat = 0 ∨ 31 < address.toNat := h.imp (fun e => by rw [e]; rfl) id
  simp only [setMeter, meterOf_of_val hm, h', ↓reduceIte]
  rfl

theorem setMeter_of_configure {meter : Byte} {m : Fin 8} (hm : m.val = meter.toNat) {address : Byte}
    (h : ¬ (address = 0 ∨ 31 < address.toNat)) (portal : Byte) (s : State) :
    (portalOf portal = none → setMeter meter 0 address portal s = refuse .badValue s)
      ∧ ∀ p, portalOf portal = some p → setMeter meter 0 address portal s
        = if meterAddressUsed s m address.toNat then refuse .addressInUse s
          else if meterLimitReached s m p then refuse .meterLimit s
          else done false (configureMeter m address.toNat p s) := by
  have h' : ¬ (address.toNat = 0 ∨ 31 < address.toNat) := fun e => h (e.imp (fun e => BitVec.eq_of_toNat_eq e) id)
  refine ⟨fun hp => ?_, fun p hp => ?_⟩
  · simp only [setMeter, meterOf_of_val hm, h', hp, ↓reduceIte]
    rfl
  · simp only [setMeter, meterOf_of_val hm, h', hp, ↓reduceIte]
    rfl

theorem removeMeter_of_unconfigured {s : State} {m : Fin 8} (h : s.meter m = .unconfigured) : removeMeter m s = s := by
  have hsite : (s.meter m).site = none := by rw [h]; rfl
  have hset : s.setMeter m .unconfigured = s := by rw [← h]; simp [State.setMeter, State.meter]
  unfold removeMeter
  dsimp only
  rw [hsite, hset]
  rfl

theorem port_removeMeter (m : Fin 8) (s : State) : (removeMeter m s).port = s.port :=
  (CommandEffect.removeMeter (s := s) m).writes.outer.port

theorem port_configureMeter (m : Fin 8) (a : Nat) (p : Fin 4) (s : State) : (configureMeter m a p s).port = s.port :=
  ((Writes.of_setMeter (ts := [.meters, .portals, .notices]) ..).trans
    ((onlyPhotometry_evalFormer ..).trans (onlyPhotometry_evalCondition ..)).writes).outer.port

/-- Settles O14: each check refuses in its turn; the evaluations after the write enter each portal's condition. -/
theorem setMeterConfiguresOrRemoves : Obligations.SetMeterConfiguresOrRemoves := by
  intro s meter operation address portal hs c
  have hc : exec c s = takeCommand 4 (setMeter meter operation address portal) s := rfl
  refine .cons (fun h => Refuses.of_work hc hs ?_) fun hmeter => .cons (fun h => ?_) fun _ => .nil fun m hm =>
    ⟨fun hop => ?remove, fun hop => ?configure⟩
  · rw [setMeter, meterOf_of_gt h]
  · exact Refuses.of_work hc hs
      (setMeter_of_badOperation (m := ⟨meter.toNat, by omega⟩) rfl h address portal s)
  case remove =>
    subst hop
    have hw := setMeter_of_remove hm address portal s
    have answered : Answers c s .ok [] (removeMeter m s) := .of_done hc hs hw (port_removeMeter m s)
    refine ⟨⟨_, answered, onlyPhotometry_evalFormer _ _ _, fun hcoupling hlaw =>
      photometryEntered_removeMeter hs.1 hcoupling hlaw m⟩, fun hun => ?_⟩
    rwa [removeMeter_of_unconfigured hun] at answered
  case configure =>
    subst hop
    refine .cons (fun h => Refuses.of_work hc hs (setMeter_of_badAddress hm h portal s)) fun haddress => ?_
    obtain ⟨hnone, hsome⟩ := setMeter_of_configure hm haddress portal s
    refine .cons (fun h => Refuses.of_work hc hs (hnone (portalOf_of_gt h))) fun hportal => ?_
    obtain ⟨p, hp⟩ := exists_portal_of_le hportal
    have hw := hsome p (portalOf_of_val hp)
    refine .cons (fun h => Refuses.of_work hc hs (hw.trans (if_pos (meterAddressUsed_iff.2 h)))) fun hfree => ?_
    have hfree : ¬ meterAddressUsed s m address.toNat = true := fun h => hfree (meterAddressUsed_iff.1 h)
    rw [if_neg hfree] at hw
    have hlimit : meterLimitReached s m p = true ↔ ∃ j k x y, j ≠ k ∧ j ≠ m ∧ k ≠ m ∧ (s.meter j).site = some x
        ∧ (s.meter k).site = some y ∧ x.portal.val = portal.toNat ∧ y.portal.val = portal.toNat := by
      simp only [meterLimitReached_iff, Fin.ext_iff, hp]
    refine .cons (fun h => Refuses.of_work hc hs (hw.trans (if_pos (hlimit.2 h)))) fun hroom => .nil fun k hk => ?_
    obtain rfl : k = p := Fin.ext (hk.trans hp.symm)
    rw [if_neg (fun h => hroom (hlimit.1 h))] at hw
    exact ⟨_, .of_done hc hs hw (port_configureMeter ..),
      (onlyPhotometry_evalFormer ..).trans (onlyPhotometry_evalCondition ..), fun hcoupling hlaw =>
        photometryEntered_configureMeter hs.1 hcoupling hlaw m address.toNat k⟩

/-! ## The hold timer (R9) -/

theorem holdExpired_of_running {s : State} {m : Fin 8} {q : MeterSite} (hsite : (s.meter m).site = some q)
    (hhold : (s.meter m).hold ≠ none) (hstate : (s.meter m).state = .awaiting ∨ (s.meter m).state = .online) :
    holdExpired m s = evalCondition q.portal (handEvent (meterLostClass q.portal)
      (s.setMeter m { s.meter m with state := .lost, lost := true, hold := none })) := by
  obtain ⟨h, hh⟩ := Option.ne_none_iff_exists'.1 hhold
  simp only [holdExpired, hsite, hh]
  exact if_pos hstate

/-- Settles O19. -/
theorem holdTimerExpiryLosesTheMeter : Obligations.HoldTimerExpiryLosesTheMeter := by
  intro s m q hr hsite hhold hstate
  refine ⟨_, event_of_high hr _, ?_⟩
  rw [holdExpired_of_running hsite hhold hstate]
  exact ⟨onlyPhotometry_evalCondition .., fun hcoupling hlaw => photometryEntered_meterLost hr hcoupling hlaw hsite⟩

/-! ## SET_COUPLING (R47) -/

theorem badCoupling_iff {s : State} {p q : Fin 4} :
    badCoupling s p q = true ↔ q = p ∨ (s.portal q).leader ≠ none ∨ ∃ k, (s.portal k).leader = some p := by
  unfold badCoupling
  rw [Bool.or_eq_true, Bool.or_eq_true, beq_iff_eq, Option.isSome_iff_ne_none, List.any_eq_true, or_assoc]
  simp only [mem_followers, and_true, eq_comm]

theorem port_couple (p : Fin 4) (l : Option (Fin 4)) (s : State) : (couple p l s).port = s.port :=
  (writes_couple p l s).outer.port

theorem setCoupling_of_leader {follower leader : Byte} {p : Fin 4} (hp : p.val = follower.toNat) (s : State) :
    (leader = 255 → setCoupling follower leader s = done false (couple p none s))
      ∧ ∀ q : Fin 4, q.val = leader.toNat → setCoupling follower leader s
        = if badCoupling s p q then refuse .badCoupling s else done false (couple p (some q) s) := by
  refine ⟨fun h => ?_, fun q hq => ?_⟩
  · subst h
    rw [setCoupling, portalOf_of_val hp]
    rfl
  · have hne : leader ≠ 255 := fun e => by
      subst e
      have := q.isLt
      simp at hq
      omega
    simp only [setCoupling, portalOf_of_val hp, hne, portalOf_of_val hq, ↓reduceIte]

theorem setCoupling_of_bad {follower leader : Byte} (h : 3 < follower.toNat ∨ 3 < leader.toNat ∧ leader.toNat ≠ 255)
    (s : State) : setCoupling follower leader s = refuse .badValue s := by
  by_cases hf : 3 < follower.toNat
  · rw [setCoupling, portalOf_of_gt hf]
  · obtain ⟨p, hp⟩ := exists_portal_of_le hf
    obtain ⟨hgt, hne⟩ := h.resolve_left hf
    have hne : leader ≠ 255 := fun e => hne (by rw [e]; rfl)
    simp only [setCoupling, portalOf_of_val hp, hne, portalOf_of_gt hgt, ↓reduceIte]

/-- What SET_COUPLING answers where the checks are passed: nothing for a leader that is there already, else the write and its
evaluation. -/
theorem couple_answers {c : Instr} {s : State} {n : Nat} {work : State → Answered} (hc : exec c s = takeCommand n work s)
    (hs : s.listening) {p : Fin 4} {l : Option (Fin 4)} (hw : work s = done false (couple p l s)) :
    ((s.portal p).leader = l → Answers c s .ok [] s)
      ∧ ((s.portal p).leader ≠ l → ∃ t, Answers c s .ok [] t
        ∧ OnlyPhotometry { s with portals := s.portals.set p { s.portal p with leader := l } } t
        ∧ (CouplingLaw s → PhotometryLaw s → PhotometryEntered s t)) := by
  have answered : Answers c s .ok [] (couple p l s) := .of_done hc hs hw (port_couple p l s)
  refine ⟨fun h => ?_, fun h => ⟨_, answered, ?_⟩⟩
  · rwa [couple_of_same h] at answered
  · rw [couple_of_changed h]
    exact ⟨onlyPhotometry_evalCondition .., fun _ hlaw => photometryEntered_couple hs.1 hlaw⟩

/-- Settles O28. -/
theorem setCouplingMakesOrBreaksACoupling : Obligations.SetCouplingMakesOrBreaksACoupling := by
  intro s follower leader hs c
  have hc : exec c s = takeCommand 2 (setCoupling follower leader) s := rfl
  refine .cons (fun h => Refuses.of_work hc hs (setCoupling_of_bad h s)) fun _ => .nil fun p hp => ?_
  obtain ⟨hnone, hsome⟩ := setCoupling_of_leader (leader := leader) hp s
  refine ⟨fun h => couple_answers hc hs (hnone h), fun q hq => ?_⟩
  refine .cons (fun h => Refuses.of_work hc hs ((hsome q hq).trans (if_pos (badCoupling_iff.2 h)))) fun hgood => .nil ?_
  exact couple_answers hc hs ((hsome q hq).trans (if_neg fun h => hgood (badCoupling_iff.1 h)))

end Sys2Proof.Machine
end

section
/-! SUPPORT. Reading arrivals (R7, R12, R15): what one leaves in the portal of the meter, in its followers and in the others. -/

namespace Sys2Proof.Machine

theorem approach_congr {s t : State} (h : t.meters = s.meters) (p : Fin 4) : approach t p = approach s p := by
  have hmeter : ∀ m, t.meter m = s.meter m := fun m => by rw [State.meter, State.meter, h]
  simp only [approach, ownMeters, hmeter]

/-! ## Conditions that are kept -/

/-- The meter table, the conditions and the leaders are as they were. -/
structure ConditionsKept (s t : State) : Prop where
  meters : t.meters = s.meters
  condition : ∀ p, (t.portal p).condition = (s.portal p).condition
  leader : ∀ p, (t.portal p).leader = (s.portal p).leader

namespace ConditionsKept

variable {s t u : State}

theorem refl (s : State) : ConditionsKept s s := ⟨rfl, fun _ => rfl, fun _ => rfl⟩

theorem trans (h : ConditionsKept s t) (k : ConditionsKept t u) : ConditionsKept s u :=
  ⟨k.meters.trans h.meters, fun p => (k.condition p).trans (h.condition p), fun p => (k.leader p).trans (h.leader p)⟩

theorem settled (h : ConditionsKept s t) {p : Fin 4} (hs : Settled s p) : Settled t p := by
  unfold Settled
  rw [h.condition, conditionNow_congr h.meters (leaderLive_congr (h.leader p) fun q _ => by rw [h.condition])]
  exact hs

theorem leaderSettled (h : ConditionsKept s t) {p : Fin 4} (hs : LeaderSettled s p) : LeaderSettled t p := fun q hq => by
  rw [h.leader] at hq
  rw [h.condition, anyOwn_congr h.meters]
  exact hs q hq

end ConditionsKept

/-! ## One filter step of a portal (R12) -/

theorem portal_revise (p : Fin 4) (la : Nat) (s : State) :
    (revise p (some la) s).portal p = { s.portal p with
      lf := some (filterStep (s.portal p).active.w (s.portal p).lf la)
      stageShort := ((revise p (some la) s).portal p).stageShort } := by
  unfold revise
  dsimp only
  rw [portal_evalStageShort, State.portal_setPortal_self]

theorem portal_revise_of_ne {p q : Fin 4} (h : q ≠ p) (la : Option Nat) (s : State) :
    (revise p la s).portal q = s.portal q := by
  unfold revise
  split
  · rfl
  · rw [portal_evalStageShort_of_ne h, State.portal_setPortal_of_ne _ _ _ _ h]

theorem conditionsKept_revise (p : Fin 4) (la : Nat) (s : State) : ConditionsKept s (revise p (some la) s) := by
  have hphotometry := onlyPhotometry_revise p (some la) s
  refine ⟨(hphotometry.writes (ts := [.portals, .notices])).meters, fun q => ?_, fun q => by rw [hphotometry.portal]⟩
  by_cases hq : q = p
  · subst hq; rw [portal_revise]
  · rw [portal_revise_of_ne hq]

/-- R15: a follower that is BORROWED filters. -/
theorem conditionsKept_reviseFollowers (p : Fin 4) (la : Nat) (s : State) :
    ConditionsKept s (reviseFollowers p (some la) s) :=
  forEach_induction (P := ConditionsKept s) _ (.refl s) fun q _ t ht => by
    split
    · exact ht.trans (conditionsKept_revise q la t)
    · exact ht

theorem portal_reviseFollowers_of_not_mem {p q : Fin 4} {s : State} (h : (s.portal q).leader ≠ some p) (la : Option Nat) :
    (reviseFollowers p la s).portal q = s.portal q :=
  forEach_induction (P := fun t => t.portal q = s.portal q) _ rfl fun k hk t ht => by
    have hne : q ≠ k := fun e => h (e ▸ mem_followers.1 hk)
    split
    · rw [portal_revise_of_ne hne, ht]
    · exact ht

/-- R15: the Lf of a follower after a reading arrival of its leader. -/
def Portal.borrowedLf (x : Portal) (la : Nat) : Option Nat :=
  if x.condition = .borrowed then some (filterStep x.active.w x.lf la) else x.lf

theorem lf_reviseFollowers {p q : Fin 4} {s : State} (h : (s.portal q).leader = some p) (la : Nat) :
    ((reviseFollowers p (some la) s).portal q).lf = (s.portal q).borrowedLf la := by
  refine forEach_each (P := fun t k => t.portal k = s.portal k)
    (Q := fun t k => (t.portal k).lf = (s.portal k).borrowedLf la) (followers s p) (nodup_followers s p)
    (fun k t hk => ?_) (fun k j t hj hk => ?_) (fun k j t hj hk => ?_) (fun _ _ => rfl) q (mem_followers.2 h)
  · unfold Portal.borrowedLf
    rw [← hk]
    split
    · rw [portal_revise]
    · rfl
  · split
    · rw [portal_revise_of_ne hj]; exact hk
    · exact hk
  · split
    · rw [portal_revise_of_ne hj]; exact hk
    · exact hk

/-! ## Followers of a portal that has become LIVE (R13, R15) -/

/-- R13 to R16: a portal that has been evaluated once, its leader's Lf being as given. -/
structure Portal.EntersWith (x : Portal) (leaderLf : Option Nat) (y : Portal) : Prop where
  same : y.condition = x.condition → y.lf = x.lf
  entered : y.condition ≠ x.condition → y.lf = x.lfEntered leaderLf y.condition
  active : y.active = x.active

theorem entersWith_evalOwnCondition (p : Fin 4) (s : State) :
    (s.portal p).EntersWith (leaderLf s p) ((evalOwnCondition p s).portal p) := by
  refine ⟨fun e => ?_, fun hne => ?_, active_evalOwnCondition p p s⟩
  · rw [condition_evalOwnCondition] at e
    rw [evalOwnCondition_of_settled e]
  · rw [condition_evalOwnCondition] at hne ⊢
    rw [portal_evalOwnCondition_of_changed hne, lfOnEntry_eq]

/-- The followers of a LIVE portal are evaluated once each; the portal itself is not changed. -/
theorem portal_evalFollowers {s : State} {p : Fin 4} (hlive : (s.portal p).condition = .live)
    (honline : anyOwn s p .online = true) :
    (evalFollowers p s).portal p = s.portal p
      ∧ (∀ q, q ≠ p → (s.portal q).leader ≠ some p → (evalFollowers p s).portal q = s.portal q)
      ∧ ∀ q, (s.portal q).leader = some p →
          (s.portal q).EntersWith (s.portal p).lf ((evalFollowers p s).portal q) := by
  have hself : ∀ k t, t.meters = s.meters → t.portal p = s.portal p → (evalOwnCondition k t).portal p = s.portal p :=
    fun k t hm ht => by
      by_cases hk : p = k
      · subst hk
        rw [evalOwnCondition_of_settled, ht]
        rw [ht, hlive, conditionNow_eq_live, anyOwn_congr hm]
        exact honline
      · rw [portal_evalOwnCondition_of_ne hk, ht]
  refine ⟨?_, fun q hq hl => ?_, fun q hq => ?_⟩
  · have kept := forEach_induction (P := fun t => t.meters = s.meters ∧ t.portal p = s.portal p) (followers s p) ⟨rfl, rfl⟩
      fun k _ t ht => ⟨(meters_evalOwnCondition k t).trans ht.1, hself k t ht.1 ht.2⟩
    exact kept.2
  · refine forEach_induction (P := fun t => t.portal q = s.portal q) (followers s p) rfl fun k hk t ht => ?_
    have hne : q ≠ k := fun e => hl (e ▸ mem_followers.1 hk)
    rw [portal_evalOwnCondition_of_ne hne, ht]
  · refine forEach_each
      (P := fun t k => (t.portal k = s.portal k ∧ (s.portal k).leader = some p) ∧ t.meters = s.meters
        ∧ t.portal p = s.portal p)
      (Q := fun t k => (s.portal k).EntersWith (s.portal p).lf (t.portal k)) (followers s p)
      (nodup_followers s p) (fun k t hk => ?_) (fun k j t hj hk => ?_) (fun k j t hj hk => ?_)
      (fun k hk => ⟨⟨rfl, mem_followers.1 hk⟩, rfl, rfl⟩) q (mem_followers.2 hq)
    · obtain ⟨⟨hportal, hleader⟩, -, hp⟩ := hk
      have hentered := entersWith_evalOwnCondition k t
      have hlf : leaderLf t k = (s.portal p).lf := by
        unfold leaderLf
        rw [hportal, hleader]
        exact congrArg Portal.lf hp
      rwa [hlf, hportal] at hentered
    · obtain ⟨⟨hportal, hleader⟩, hm, hp⟩ := hk
      exact ⟨⟨(portal_evalOwnCondition_of_ne hj t).trans hportal, hleader⟩, (meters_evalOwnCondition k t).trans hm,
        hself k t hm hp⟩
    · rwa [portal_evalOwnCondition_of_ne hj]

/-! ## The whole arrival (R7) -/

/-- R7, R12, R15: what a reading arrival that brings La leaves in the portals, with the portal of each follower as it is between
its evaluation and its filter step. -/
structure Arrived (s : State) (p : Fin 4) (la : Nat) (t : State) : Prop where
  live : (t.portal p).condition = .live
  lf : (t.portal p).lf = some (filterStep (s.portal p).active.w (s.portal p).lf la)
  others : ∀ q, q ≠ p → (s.portal q).leader ≠ some p → t.portal q = s.portal q
  followers : ∀ q, (s.portal q).leader = some p → ∃ y : Portal, (s.portal q).EntersWith (t.portal p).lf y
    ∧ ((s.portal p).condition = .live → y = s.portal q)
    ∧ (t.portal q).condition = y.condition ∧ (t.portal q).lf = y.borrowedLf la

/-- R7: an arrival at a portal with an ONLINE meter, before its followers filter. -/
def arrivalEvaluated (p : Fin 4) (la : Nat) (s : State) : State :=
  if (s.portal p).condition = .live then revise p (some la) s
  else evalFollowers p (revise p (some la) (evalOwnCondition p s))

theorem readingArrival_of_online {s : State} {p : Fin 4} (honline : anyOwn s p .online = true) {la : Nat}
    (hla : approach s p = some la) : readingArrival p s = reviseFollowers p (some la) (arrivalEvaluated p la s) := by
  have hnow := conditionNow_eq_live.2 honline
  have hla' : approach (evalOwnCondition p s) p = some la :=
    (approach_congr (meters_evalOwnCondition p s) p).trans hla
  unfold readingArrival arrivalEvaluated
  dsimp only
  rw [hla', condition_evalOwnCondition, hnow, if_pos rfl]
  by_cases hlive : (s.portal p).condition = .live
  · rw [if_pos hlive.symm, if_pos hlive, evalOwnCondition_of_settled (hnow.trans hlive.symm)]
  · rw [if_neg (Ne.symm hlive), if_neg hlive]

theorem conditionsKept_arrival_of_live {s : State} {p : Fin 4} (h : (s.portal p).condition = .live) (la : Nat) :
    ConditionsKept s (arrivalEvaluated p la s) := by
  rw [arrivalEvaluated, if_pos h]
  exact conditionsKept_revise p la s

theorem arrived_readingArrival {s : State} {p : Fin 4} (honline : anyOwn s p .online = true) {la : Nat}
    (hla : approach s p = some la) (hself : (s.portal p).leader ≠ some p) : Arrived s p la (readingArrival p s) := by
  have hnow := conditionNow_eq_live.2 honline
  rw [readingArrival_of_online honline hla]
  have hleader : ∀ q, ((arrivalEvaluated p la s).portal q).leader = (s.portal q).leader := fun q => by
    unfold arrivalEvaluated
    split
    · rw [(conditionsKept_revise p la s).leader]
    · have hphotometry : OnlyPhotometry (evalOwnCondition p s)
          (evalFollowers p (revise p (some la) (evalOwnCondition p s))) :=
        (onlyPhotometry_revise p (some la) _).trans (.forEach _ onlyPhotometry_evalOwnCondition _)
      rw [hphotometry.portal, leader_evalOwnCondition]
  have hkept := conditionsKept_reviseFollowers p la (arrivalEvaluated p la s)
  have hportal : (reviseFollowers p (some la) (arrivalEvaluated p la s)).portal p = (arrivalEvaluated p la s).portal p :=
    portal_reviseFollowers_of_not_mem (by rw [hleader]; exact hself) _
  have evaluated : ((arrivalEvaluated p la s).portal p).condition = .live
      ∧ ((arrivalEvaluated p la s).portal p).lf = some (filterStep (s.portal p).active.w (s.portal p).lf la)
      ∧ (∀ q, q ≠ p → (s.portal q).leader ≠ some p → (arrivalEvaluated p la s).portal q = s.portal q)
      ∧ ∀ q, (s.portal q).leader = some p →
        (s.portal q).EntersWith ((arrivalEvaluated p la s).portal p).lf ((arrivalEvaluated p la s).portal q)
          ∧ ((s.portal p).condition = .live → (arrivalEvaluated p la s).portal q = s.portal q) := by
    unfold arrivalEvaluated
    split
    next hlive =>
      have hq : ∀ q, q ≠ p → (revise p (some la) s).portal q = s.portal q := fun q hq => portal_revise_of_ne hq _ s
      refine ⟨by rw [(conditionsKept_revise p la s).condition]; exact hlive, by rw [portal_revise], fun q h _ => hq q h,
        fun q hl => ?_⟩
      have hne : q ≠ p := fun e => hself (e ▸ hl)
      rw [hq q hne]
      exact ⟨⟨fun _ => rfl, fun h => absurd rfl h, rfl⟩, fun _ => rfl⟩
    next hlive =>
      have hown : (evalOwnCondition p s).portal p = { s.portal p with
          condition := .live, lf := (s.portal p).lf, stageShort := ((evalOwnCondition p s).portal p).stageShort } := by
        rw [portal_evalOwnCondition_of_changed (by rw [hnow]; exact Ne.symm hlive), hnow]
        rfl
      have hlf : ((revise p (some la) (evalOwnCondition p s)).portal p).lf
          = some (filterStep (s.portal p).active.w (s.portal p).lf la) := by
        rw [portal_revise, hown]
      have hcondition : ((revise p (some la) (evalOwnCondition p s)).portal p).condition = .live := by
        rw [portal_revise, hown]
      have hother : ∀ q, q ≠ p → (revise p (some la) (evalOwnCondition p s)).portal q = s.portal q := fun q hq => by
        rw [portal_revise_of_ne hq, portal_evalOwnCondition_of_ne hq]
      have honline' : anyOwn (revise p (some la) (evalOwnCondition p s)) p .online = true := by
        rw [anyOwn_congr ((conditionsKept_revise p la _).meters.trans (meters_evalOwnCondition p s))]
        exact honline
      obtain ⟨hp, hothers, hfollowers⟩ := portal_evalFollowers hcondition honline'
      refine ⟨by rw [hp]; exact hcondition, by rw [hp]; exact hlf, fun q hq hl => ?_, fun q hl => ?_⟩
      · rw [hothers q hq (by rw [hother q hq]; exact hl), hother q hq]
      · have hne : q ≠ p := fun e => hself (e ▸ hl)
        have hentered := hfollowers q (by rw [hother q hne]; exact hl)
        rw [hother q hne] at hentered
        rw [hp]
        exact ⟨hentered, fun h => absurd h hlive⟩
  obtain ⟨hlive, hlf, hothers, hfollowers⟩ := evaluated
  refine ⟨by rw [hportal]; exact hlive, by rw [hportal]; exact hlf, fun q hq hl => ?_, fun q hl => ?_⟩
  · rw [portal_reviseFollowers_of_not_mem (by rw [hleader]; exact hl), hothers q hq hl]
  · obtain ⟨hentered, hsame⟩ := hfollowers q hl
    rw [hportal]
    exact ⟨_, hentered, hsame, hkept.condition q, lf_reviseFollowers (by rw [hleader]; exact hl) la⟩

/-! ## A VALID reply (R5 to R7) -/

/-- R7: a meter table entry after a VALID reply. -/
def validMeter (s : State) (m : Fin 8) (q : MeterSite) (luminance : Nat) : Meter :=
  { s.meter m with
    reading := some (min 12000 luminance), status := some .valid, state := .online,
    hold := some (s.portal q.portal).active.hold }

theorem meterAt_of_site {s : State} (h : MeterTableLaw s) {m : Fin 8} {q : MeterSite} (hq : (s.meter m).site = some q) :
    meterAt s q.address = some m := by
  unfold meterAt
  have hm : ((s.meter m).site.any fun r => r.address == q.address) = true := by simp [hq]
  cases hfound : allMeters.find? fun k => (s.meter k).site.any fun r => r.address == q.address with
  | none => exact absurd hm (by simpa using List.find?_eq_none.1 hfound m (mem_allMeters m))
  | some k =>
    have hk := List.find?_some (p := fun k => (s.meter k).site.any fun r => r.address == q.address) hfound
    obtain ⟨r, hr, hrq⟩ := (Option.any_eq_true _ _).1 hk
    exact congrArg some (h.2.1 k m r q hr hq (by simpa using hrq))

theorem readMeterReply_of_valid {a : Nat} {c0 c1 c2 c3 c4 : Byte} (hcheck : c4 = crc8 [c0, c1, c2, c3])
    (ha : c0.toNat = a) (hstatus : c1 = 1) (hluminance : c2.toNat * 256 + c3.toNat ≤ 16383) :
    readMeterReply a c0 c1 c2 c3 c4 = some (.valid, c2.toNat * 256 + c3.toNat) := by
  have hgood : ¬ (crc8 [c0, c1, c2, c3] ≠ c4 ∨ c0.toNat ≠ a) := by simp [hcheck, ha]
  unfold readMeterReply
  dsimp only
  rw [if_neg hgood, if_pos hstatus]
  exact if_pos hluminance

theorem pollCompletion_of_valid {s : State} (h : MeterTableLaw s) {m : Fin 8} {q : MeterSite} {c0 c1 c2 c3 c4 : Byte}
    (hsite : (s.meter m).site = some q) (hpoll : s.poll = some q.address) (hcheck : c4 = crc8 [c0, c1, c2, c3])
    (ha : c0.toNat = q.address) (hstatus : c1 = 1) (hluminance : c2.toNat * 256 + c3.toNat ≤ 16383) :
    pollCompletion c0 c1 c2 c3 c4 s = readingArrival q.portal
      (({ s with poll := none } : State).setMeter m (validMeter s m q (c2.toNat * 256 + c3.toNat))) := by
  have hat : meterAt { s with poll := none } q.address = some m := meterAt_of_site h hsite
  have hsite' : (State.meter { s with poll := none } m).site = some q := hsite
  unfold pollCompletion
  rw [hpoll]
  dsimp only
  rw [readMeterReply_of_valid hcheck ha hstatus hluminance]
  simp only [applyPoll, hat, hsite']
  unfold applyValid validMeter
  rw [Nat.min_comm]
  rfl

/-- The entry that a VALID reply writes gives its portal an ONLINE meter and a reading. -/
theorem online_of_valid {s b : State} {m : Fin 8} {q : MeterSite} {luminance : Nat}
    (hsite : (s.meter m).site = some q)
    (hb : b.meters = (s.setMeter m (validMeter s m q luminance)).meters) :
    anyOwn b q.portal .online = true ∧ ∃ la, approach b q.portal = some la := by
  have hm : b.meter m = validMeter s m q luminance := by
    rw [State.meter, hb]
    exact State.meter_setMeter_self ..
  have hsite' : (b.meter m).site = some q := by rw [hm]; exact hsite
  refine ⟨anyOwn_iff.2 ⟨m, q, hsite', rfl, by rw [hm]; rfl⟩, Option.ne_none_iff_exists'.1 fun hnone => ?_⟩
  have := no_reading_of_approach hnone hsite' rfl (by rw [hm]; rfl)
  rw [hm] at this
  cases this

end Sys2Proof.Machine
end

section
/-! SUPPORT. VALID replies, and the laws of the meter table, of coupling and of photometry through every step (R1, R7, R12 to R16,
R47). -/

namespace Sys2Proof.Machine

/-! ## VALID replies (R7, R12, R15) -/

theorem largestReading_readingArrival {b : State} {p : Fin 4} {la : Nat} (h : approach b p = some la) :
    LargestReading (readingArrival p b) p la := by
  refine largestReading_of_approach ((approach_congr ?_ p).trans h)
  exact ((onlyPhotometry_readingArrival p b).writes (ts := [.portals, .notices])).meters

/-- Settles O17: the reading arrival after the write of the entry. -/
theorem validReplyIsAReadingArrival : Obligations.ValidReplyIsAReadingArrival := by
  intro s c0 c1 c2 c3 c4 m q hr hlaw hcoupling hsite hpoll hcheck ha hstatus hluminance
  obtain ⟨honline, la, hla⟩ := online_of_valid (luminance := c2.toNat * 256 + c3.toNat)
    (b := ({ s with poll := none } : State).setMeter m (validMeter s m q (c2.toNat * 256 + c3.toNat))) hsite rfl
  have arrived := arrived_readingArrival honline hla fun e => hcoupling.ne_of_leader (p := q.portal) e rfl
  refine ⟨_, la, event_of_high hr _, ?_⟩
  rw [pollCompletion_of_valid hlaw hsite hpoll hcheck ha hstatus hluminance]
  exact ⟨onlyPhotometry_readingArrival .., arrived.live, largestReading_readingArrival hla, arrived.lf⟩

/-- R12: one filter step in whole numbers, by the sign of the distance. -/
theorem filterStep_eq (w la lf : Nat) :
    (filterStep w (some lf) la : Int)
      = lf + ((la : Int) - lf).sign * ((((la : Int) - lf).natAbs * w + 8) / 16 : Nat)
      ∨ 16 < w := by
  by_cases hw : 16 < w
  · exact .inr hw
  refine .inl ?_
  unfold filterStep
  dsimp only
  obtain h | h | h := Nat.lt_trichotomy lf la
  · have hsign : ((la : Int) - lf).sign = 1 := Int.sign_eq_one_of_pos (by omega)
    have habs : ((la : Int) - lf).natAbs = la - lf := by omega
    rw [if_pos h.le, hsign, habs]
    push_cast
    ring
  · subst h
    simp
  · have hsign : ((la : Int) - lf).sign = -1 := Int.sign_eq_neg_one_of_neg (by omega)
    have habs : ((la : Int) - lf).natAbs = lf - la := by omega
    rw [if_neg (by omega), hsign, habs]
    have hle : ((lf - la) * w + 8) / 16 ≤ lf := by
      have hmul : (lf - la) * w ≤ (lf - la) * 16 := Nat.mul_le_mul_left _ (by omega)
      omega
    rw [Int.ofNat_sub hle]
    ring

theorem filterStep_between {w : Nat} (hw : w ≤ 16) (la lf : Nat) :
    (lf ≤ la → lf ≤ filterStep w (some lf) la ∧ filterStep w (some lf) la ≤ la)
      ∧ (la ≤ lf → la ≤ filterStep w (some lf) la ∧ filterStep w (some lf) la ≤ lf) := by
  have hup : (la - lf) * w ≤ (la - lf) * 16 := Nat.mul_le_mul_left _ hw
  have hdown : (lf - la) * w ≤ (lf - la) * 16 := Nat.mul_le_mul_left _ hw
  unfold filterStep
  dsimp only
  split <;> exact ⟨fun h => by omega, fun h => by omega⟩

theorem filterStep_full (la lf : Nat) : filterStep 16 (some lf) la = la := by
  unfold filterStep
  dsimp only
  split <;> omega

theorem filterStep_stays {la lf : Nat} (h : ((la : Int) - lf).natAbs ≤ 7) : filterStep 1 (some lf) la = lf := by
  unfold filterStep
  dsimp only
  split <;> omega

/-- R15: the Lf that a follower's filter step starts from. -/
theorem Portal.EntersWith.start {x y : Portal} {l : Option Nat} (h : x.EntersWith l y) (hy : y.condition = .borrowed) :
    y.lf = if x.condition = .borrowed then x.lf else if x.lf = none then l else x.lf := by
  by_cases hx : x.condition = .borrowed
  · rw [if_pos hx, h.same (hy.trans hx.symm)]
  · rw [if_neg hx, h.entered (by rw [hy]; exact Ne.symm hx), hy]
    rfl

/-- Settles O18: the filter's formula, and the followers in a reading arrival. -/
theorem filterStepsTowardTheReadingAndFollowersBorrowIt :
    Obligations.FilterStepsTowardTheReadingAndFollowersBorrowIt := by
  refine ⟨fun w la => ⟨rfl, fun lf _ hw => ?_⟩, ?_⟩
  · obtain ⟨hup, hdown⟩ := filterStep_between hw la lf
    refine ⟨(filterStep_eq w la lf).resolve_right (by omega), fun h => ?_, fun h => ?_, fun e => ?_, fun e hd => ?_⟩
    · exact ⟨Int.ofNat_le.2 (hup h).1, Int.ofNat_le.2 (hup h).2⟩
    · exact ⟨Int.ofNat_le.2 (hdown h).1, Int.ofNat_le.2 (hdown h).2⟩
    · subst e; rw [filterStep_full]
    · subst e; rw [filterStep_stays hd]
  · intro s c0 c1 c2 c3 c4 m x hr hlaw hcoupling hsite hpoll hcheck ha hstatus hluminance
    obtain ⟨honline, la, hla⟩ := online_of_valid (luminance := c2.toNat * 256 + c3.toNat)
      (b := ({ s with poll := none } : State).setMeter m (validMeter s m x (c2.toNat * 256 + c3.toNat))) hsite rfl
    have arrived := arrived_readingArrival honline hla fun e => hcoupling.ne_of_leader (p := x.portal) e rfl
    refine ⟨_, la, event_of_high hr _, ?_⟩
    rw [pollCompletion_of_valid hlaw hsite hpoll hcheck ha hstatus hluminance]
    refine ⟨largestReading_readingArrival hla, fun q => ⟨fun hl hb => ?_, fun hl hb hc => ?_, fun hl hq =>
      arrived.others q hq hl⟩⟩
    · obtain ⟨y, hentered, -, hcondition, hlf⟩ := arrived.followers q hl
      have hy : y.condition = .borrowed := hcondition.symm.trans hb
      rw [hlf, Portal.borrowedLf, if_pos hy, hentered.start hy, hentered.active]
      refine congrArg (fun start => some (filterStep (s.portal q).active.w start la)) (if_congr Iff.rfl rfl ?_)
      show (if (s.portal q).lf = none then _ else (s.portal q).lf) = _
      cases hsq : (s.portal q).lf <;> simp
    · obtain ⟨y, hentered, -, hcondition, hlf⟩ := arrived.followers q hl
      have hy : y.condition ≠ .borrowed := fun e => hb (hcondition.trans e)
      rw [hlf, Portal.borrowedLf, if_neg hy]
      exact hentered.same (hcondition.symm.trans hc)

end Sys2Proof.Machine
end

section
/-! SUPPORT. The laws of the meter table, of coupling and of photometry are kept by every step (R1, R13 to R16, R47). -/

namespace Sys2Proof.Machine

/-! ## The meter table (R1) -/

theorem MeterLeft.law {s : State} {m : Fin 8} {x : Meter} (h : MeterLeft s m x) (hm : MeterLaw (s.meter m)) :
    MeterLaw x := by
  obtain ⟨hsite, haddress, hhold, hreading⟩ := hm
  cases h
  case same | told | due | status => exact ⟨hsite, haddress, hhold, hreading⟩
  case removed => exact ⟨by simp [Meter.unconfigured], nofun, by simp [Meter.unconfigured], nofun⟩
  case configured address p hrange _ _ =>
    refine ⟨by simp [configuredMeter], fun q e => ?_, by simp [configuredMeter], nofun⟩
    cases e
    exact hrange
  case restarted =>
    unfold restartedMeter
    split
    next hnone => exact ⟨hsite, haddress, hhold, hreading⟩
    next q hq => exact ⟨by simp [hq], haddress, by simp, nofun⟩
  case expired hrun =>
    have hstate := hhold.1 hrun
    have hne : (s.meter m).site ≠ none := fun e => by
      rw [hsite.1 e] at hstate
      exact hstate.elim nofun nofun
    exact ⟨iff_of_false hne nofun, haddress, by simp, nofun⟩
  case valid q luminance hq => exact ⟨by simp [hq], haddress, by simp, by simp⟩

/-- What a step does to the sites of the table: nothing, or one entry is removed or configured. -/
inductive SitesLeft (s t : State) : Prop where
  | same (h : ∀ m, (t.meter m).site = (s.meter m).site) : SitesLeft s t
  | removed (m : Fin 8) (h : t.meters = (s.setMeter m .unconfigured).meters) : SitesLeft s t
  | configured (m : Fin 8) (address : Nat) (p : Fin 4) (hfree : meterAddressUsed s m address = false)
      (hlimit : meterLimitReached s m p = false) (h : t.meters = (s.setMeter m (configuredMeter s address p)).meters) :
      SitesLeft s t

theorem meter_of_setMeter {s t : State} {m : Fin 8} {x : Meter} (h : t.meters = (s.setMeter m x).meters) (k : Fin 8) :
    t.meter k = if k = m then x else s.meter k := by
  rw [State.meter, h]
  by_cases hk : k = m
  · subst hk
    rw [if_pos rfl]
    exact State.meter_setMeter_self ..
  · rw [if_neg hk]
    exact State.meter_setMeter_of_ne _ _ _ _ hk

theorem ownMeters_congr {s t : State} (h : ∀ m, (t.meter m).site = (s.meter m).site) (p : Fin 4) :
    ownMeters t p = ownMeters s p := by
  simp only [ownMeters, Meter.owns, h]

/-- The own meters but for one entry, which has been written. -/
theorem ownMeters_filter {s t : State} {m : Fin 8} {x : Meter} (h : t.meters = (s.setMeter m x).meters) (p : Fin 4) :
    (ownMeters t p).filter (· != m) = (ownMeters s p).filter (· != m) := by
  unfold ownMeters
  rw [List.filter_filter, List.filter_filter]
  refine List.filter_congr fun k _ => ?_
  rw [meter_of_setMeter h]
  by_cases hk : k = m <;> simp [hk]

theorem length_ownMeters_le {t : State} (m : Fin 8) (p : Fin 4) :
    (ownMeters t p).length ≤ ((ownMeters t p).filter (· != m)).length + 1 := by
  rw [← (nodup_ownMeters t p).erase_eq_filter m]
  have := List.le_length_erase (l := ownMeters t p) (a := m)
  omega

theorem ownMeters_of_not_owned {s t : State} {m : Fin 8} {x : Meter} (h : t.meters = (s.setMeter m x).meters) {p : Fin 4}
    (hx : x.owns p = false) : (ownMeters t p).length ≤ (ownMeters s p).length := by
  have hall : (ownMeters t p).filter (· != m) = ownMeters t p := List.filter_eq_self.2 fun k hk => by
    have hk := (List.mem_filter.1 hk).2
    rw [meter_of_setMeter h] at hk
    by_cases e : k = m
    · rw [if_pos e, hx] at hk; cases hk
    · simpa using e
  rw [← hall, ownMeters_filter h]
  exact List.length_filter_le _ _

theorem SitesLeft.law {s t : State} (h : SitesLeft s t) (hs : MeterTableLaw s) :
    (∀ m k x y, (t.meter m).site = some x → (t.meter k).site = some y → x.address = y.address → m = k)
      ∧ ∀ p, (ownMeters t p).length ≤ 2 := by
  obtain ⟨-, haddress, hcount⟩ := hs
  cases h
  case same h =>
    refine ⟨fun m k x y => ?_, fun p => ?_⟩
    · rw [h, h]; exact haddress m k x y
    · rw [ownMeters_congr h]; exact hcount p
  case removed m h =>
    refine ⟨fun j k x y hj hk => ?_, fun p => (ownMeters_of_not_owned h rfl).trans (hcount p)⟩
    rw [meter_of_setMeter h] at hj hk
    split at hj
    · cases hj
    · split at hk
      · cases hk
      · exact haddress j k x y hj hk
  case configured m address q hfree hlimit h =>
    have hnotused : ∀ k x, k ≠ m → (s.meter k).site = some x → x.address ≠ address := fun k x hk hx e => by
      rw [meterAddressUsed_iff.2 ⟨k, x, hk, hx, e⟩] at hfree
      cases hfree
    refine ⟨fun j k x y hj hk hxy => ?_, fun p => ?_⟩
    · rw [meter_of_setMeter h] at hj hk
      split at hj
      next ej =>
        split at hk
        next ek => exact ej.trans ek.symm
        next ek =>
          cases hj
          exact absurd hxy.symm (hnotused k y ek hk)
      next ej =>
        split at hk
        next ek =>
          cases hk
          exact absurd hxy (hnotused j x ej hj)
        next ek => exact haddress j k x y hj hk hxy
    · by_cases hp : q = p
      · subst hp
        have hroom : ((ownMeters s q).filter (· != m)).length < 2 := by
          simpa [meterLimitReached] using hlimit
        have := length_ownMeters_le (t := t) m q
        rw [ownMeters_filter h] at this
        omega
      · refine (ownMeters_of_not_owned h ?_).trans (hcount p)
        exact Meter.owns_eq_false_iff.2 fun r hr => by cases hr; exact hp

theorem site_restartedMeter (s : State) (x : Meter) : (restartedMeter s x).site = x.site := by
  unfold restartedMeter
  split
  · rfl
  · rfl

theorem MeterLeft.site {s : State} {m : Fin 8} {x : Meter} (h : MeterLeft s m x) :
    x.site = (s.meter m).site ∨ x = .unconfigured ∨ ∃ address p, x = configuredMeter s address p := by
  cases h
  case removed => exact .inr (.inl rfl)
  case configured address p _ _ _ => exact .inr (.inr ⟨address, p, rfl⟩)
  case restarted => exact .inl (site_restartedMeter s _)
  all_goals exact .inl rfl

theorem CommandEffect.sites {s t : State} {ts : List Table} (h : CommandEffect s ts t) : SitesLeft s t := by
  by_cases htouched : .meters ∈ ts
  case neg => exact .same fun m => by rw [h.writes.meter m htouched]
  cases h
  case restart =>
    have after := ((onlyPhotometry_evaluateAll (restartValues s)).writes (ts := [.portals, .sweeps, .notices])).trans
      (writes_examineEmergN _)
    refine .same fun m => ?_
    rw [after.meter, meter_restartValues, site_restartedMeter]
  case removeMeter k =>
    exact .removed k ((onlyPhotometry_evalFormer ..).writes (ts := [.portals, .notices])).meters
  case configureMeter k address p _ hfree hlimit =>
    exact .configured k address p hfree hlimit (((onlyPhotometry_evalFormer ..).trans
      (onlyPhotometry_evalCondition ..)).writes (ts := [.portals, .notices])).meters
  case readPortal p =>
    refine .same fun m => ?_
    obtain h | h := meter_clearReported (photoOf s p) s m <;> rw [h]
  case readSnapshot p shown =>
    refine .same fun m => ?_
    obtain h | h := meter_clearReported shown (s.setSnapshot p { photo := none, output := none }) m
    · rw [h]; rfl
    · rw [h]; rfl
  all_goals exact absurd htouched (by decide)

theorem site_setMeter {s : State} (k : Fin 8) (x : Meter) (hx : x.site = (s.meter k).site) {m : Fin 8} :
    ((s.setMeter k x).meter m).site = (s.meter m).site := by
  rw [meter_of_setMeter (t := s.setMeter k x) rfl]
  split
  next h => rw [hx, h]
  · rfl

theorem site_applyPoll (a : Nat) (result : Option (MeterStatus × Nat)) (s : State) (m : Fin 8) :
    ((applyPoll a result s).meter m).site = (s.meter m).site := by
  unfold applyPoll
  split
  · rfl
  · split
    · rw [applyValid, ((onlyPhotometry_readingArrival ..).writes (ts := [.portals, .notices])).meter]
      exact site_setMeter (s := s) _ _ (by rfl)
    · exact site_setMeter (s := s) _ _ (by rfl)
    · exact site_setMeter (s := s) _ _ (by rfl)

theorem EventEffect.sites {s t : State} {ts : List Table} (h : EventEffect s ts t) (m : Fin 8) :
    (t.meter m).site = (s.meter m).site := by
  by_cases htouched : .meters ∈ ts
  case neg => rw [h.writes.meter m htouched]
  cases h
  case holdTimerExpiry k =>
    unfold Machine.holdExpired
    dsimp only
    split
    · split
      · rw [((onlyPhotometry_evalCondition ..).writes (ts := [.portals, .notices])).meter]
        exact site_setMeter _ { s.meter k with state := .lost, lost := true, hold := Option.none } rfl
      · rfl
    · rfl
  case pollDue k =>
    unfold Machine.pollDue
    split
    · exact site_setMeter (s := s) _ _ (by rfl)
    · rfl
  case pollStart =>
    unfold Machine.pollStart
    split
    next k _ _ _ => exact site_setMeter k { s.meter k with due := false } (by rfl)
    · rfl
  case pollCompletion c0 c1 c2 c3 c4 =>
    unfold Machine.pollCompletion
    split
    · rfl
    · exact site_applyPoll _ _ { s with poll := Option.none } m
  case pollWindowClose =>
    unfold Machine.pollWindowClose
    split
    · rfl
    · exact site_applyPoll _ _ { s with poll := Option.none } m
  all_goals exact absurd htouched (by decide)

theorem reads_meterTableLaw : Reads [.meters] MeterTableLaw := fun s t _ _ hsame h => by
  have hmeters : t.meters = s.meters := hsame .meters (by decide)
  have hmeter : ∀ m, t.meter m = s.meter m := fun m => by rw [State.meter, State.meter, hmeters]
  unfold MeterTableLaw ownMeters at h ⊢
  simp only [hmeter]
  exact h

theorem MeterTableLaw.command {s t : State} {ts : List Table} (h : MeterTableLaw s) (heffect : CommandEffect s ts t) :
    MeterTableLaw t :=
  ⟨fun m => (heffect.meterLeft m).law (h.1 m), heffect.sites.law h⟩

theorem MeterTableLaw.event {s t : State} {ts : List Table} (h : MeterTableLaw s) (heffect : EventEffect s ts t) :
    MeterTableLaw t :=
  ⟨fun m => (heffect.meterLeft m).law (h.1 m), (SitesLeft.same heffect.sites).law h⟩

/-! ## Coupling (R47) -/

theorem reads_couplingLaw : Reads [.portals] CouplingLaw := fun s t _ _ hsame h p q => by
  have hportals : t.portals = s.portals := hsame .portals (by decide)
  rw [State.portal, State.portal, hportals]
  exact h p q

theorem CouplingLaw.of_leaders {s t : State} (h : CouplingLaw s)
    (ht : ∀ p, (t.portal p).leader = (s.portal p).leader) : CouplingLaw t := fun p q hq => by
  rw [ht] at hq ⊢
  exact h p q hq

theorem CouplingLaw.couple {s : State} (h : CouplingLaw s) (p : Fin 4) {l : Option (Fin 4)}
    (hl : ∀ q, l = some q → badCoupling s p q = false) : CouplingLaw (couple p l s) := by
  by_cases hsame : (s.portal p).leader = l
  · rwa [couple_of_same hsame]
  rw [couple_of_changed hsame]
  have written : CouplingLaw (s.setPortal p { s.portal p with leader := l }) := by
    have hleader : ∀ k, ((s.setPortal p { s.portal p with leader := l }).portal k).leader
        = if k = p then l else (s.portal k).leader := fun k => by
      by_cases hk : k = p
      · subst hk; rw [State.portal_setPortal_self, if_pos rfl]
      · rw [State.portal_setPortal_of_ne _ _ _ _ hk, if_neg hk]
    have hgood : ∀ q, l = some q → q ≠ p ∧ (s.portal q).leader = none
        ∧ ∀ k, (s.portal k).leader ≠ some p := fun q hq => by
      have hbad := hl q hq
      have hnot : ¬ badCoupling s p q = true := by rw [hbad]; nofun
      rw [badCoupling_iff] at hnot
      push Not at hnot
      exact hnot
    intro k q hq
    rw [hleader] at hq ⊢
    split at hq
    · obtain ⟨hqp, hq0, -⟩ := hgood q hq
      rw [if_neg hqp]
      exact hq0
    next hk =>
      split
      next hqp =>
        subst hqp
        cases hl' : l with
        | none => rfl
        | some r => exact absurd hq ((hgood r hl').2.2 k)
      · exact h k q hq
  exact written.of_leaders fun k => by rw [(onlyPhotometry_evalCondition ..).portal]

theorem leader_restart (s : State) (p : Fin 4) :
    ((examineEmergN (evaluateAll (restartValues s))).portal p).leader = (s.portal p).leader := by
  rw [(PhotometryKept.examineEmergN _).leader, (onlyPhotometry_evaluateAll _).portal]
  show ((restartValues s).portal p).leader = _
  rw [portal_restartValues]
  rfl

theorem CouplingLaw.command {s t : State} {ts : List Table} (h : CouplingLaw s) (heffect : CommandEffect s ts t) :
    CouplingLaw t := by
  by_cases hmeters : .meters ∈ ts
  · cases heffect
    case restart => exact h.of_leaders (leader_restart s)
    case removeMeter m => exact h.of_leaders fun k => by rw [removeMeter, (onlyPhotometry_evalFormer ..).portal]; rfl
    case configureMeter m address p _ _ _ =>
      refine h.of_leaders fun k => ?_
      rw [configureMeter, ((onlyPhotometry_evalFormer ..).trans (onlyPhotometry_evalCondition ..)).portal]
      rfl
    case readPortal p => exact h.of_leaders fun k => by rw [(writes_clearReported ..).portal]
    case readSnapshot p shown => exact h.of_leaders fun k => by rw [(writes_clearReported ..).portal]; rfl
    all_goals exact absurd hmeters (by decide)
  · by_cases hcouple : ∃ p leader, (∀ q, leader = some q → badCoupling s p q = false) ∧ t = Machine.couple p leader s
    · obtain ⟨p, leader, hgood, rfl⟩ := hcouple
      exact h.couple p hgood
    · exact h.of_leaders (PhotometryKept.command heffect hmeters
        fun p leader hgood e => hcouple ⟨p, leader, hgood, e⟩).leader

end Sys2Proof.Machine
end

section
/-! SUPPORT. The law of photometry through every step (R13 to R16). -/

namespace Sys2Proof.Machine

/-- Each entry of the meter table has the site and the state that it had. -/
def SourcesKept (s t : State) : Prop :=
  ∀ m, (t.meter m).site = (s.meter m).site ∧ (t.meter m).state = (s.meter m).state

theorem SourcesKept.of_meters {s t : State} (h : t.meters = s.meters) : SourcesKept s t := fun m => by
  rw [State.meter, h]; exact ⟨rfl, rfl⟩

theorem SourcesKept.trans {s t u : State} (h : SourcesKept s t) (k : SourcesKept t u) : SourcesKept s u :=
  fun m => ⟨(k m).1.trans (h m).1, (k m).2.trans (h m).2⟩

theorem SourcesKept.setMeter {s : State} {m : Fin 8} {x : Meter} (hsite : x.site = (s.meter m).site)
    (hstate : x.state = (s.meter m).state) : SourcesKept s (s.setMeter m x) := fun k => by
  rw [meter_of_setMeter (t := s.setMeter m x) rfl]
  split
  next h => exact ⟨h ▸ hsite, h ▸ hstate⟩
  · exact ⟨rfl, rfl⟩

theorem sourcesKept_clearReported (x : Photo) (s : State) : SourcesKept s (clearReported x s) := fun m => by
  obtain h | h := meter_clearReported x s m
  · rw [h]; exact ⟨rfl, rfl⟩
  · rw [h]; exact ⟨rfl, rfl⟩

theorem SourcesKept.anyOwn {s t : State} (h : SourcesKept s t) (p : Fin 4) (st : MeterState) :
    anyOwn t p st = anyOwn s p st := by
  rw [Bool.eq_iff_iff, anyOwn_iff, anyOwn_iff]
  exact exists_congr fun m => exists_congr fun q => by rw [(h m).1, (h m).2]

/-! ## Photometry that is not evaluated, or cannot become LIVE -/

theorem PhotometryLaw.lfSet {s : State} (h : PhotometryLaw s) (hr : s.resetN = true) (p : Fin 4) : LfSet s p := (h hr p).2

theorem PhotometryLaw.kept {s t : State} (h : PhotometryLaw s) (hr : s.resetN = true) (hkept : PhotometryKept s t)
    (hsources : SourcesKept s t) : PhotometryLaw t := fun _ p => by
  have hnow : conditionNow t p = conditionNow s p := by
    have hlead : leaderLive t p = leaderLive s p := leaderLive_congr (hkept.leader p) fun q _ => by rw [hkept.condition]
    simp only [conditionNow, hsources.anyOwn, hlead]
  rw [hkept.condition, hkept.lf, hnow]
  exact h hr p

/-- After the entries that an evaluation makes, where no entry of the meter table has become ONLINE. -/
theorem PhotometryEntered.law {s t : State} (h : PhotometryEntered s t) (hlf : ∀ k, LfSet s k)
    (hlive : ∀ k, conditionNow t k = .live → (s.portal k).condition = .live) : PhotometryLaw t := fun _ p =>
  have hsettled := (photometryEntered_iff.1 h).1
  ⟨hsettled p, h.lfSet hlf (fun k hk => hlive k ((hsettled k).symm.trans hk)) p⟩

theorem PhotometryLaw.live_of_online {s t : State} (h : PhotometryLaw s) (hr : s.resetN = true)
    (honline : ∀ m, (t.meter m).state = .online → t.meter m = s.meter m) (k : Fin 4)
    (hlive : conditionNow t k = .live) : (s.portal k).condition = .live := by
  obtain ⟨m, q, hq, hp, hst⟩ := anyOwn_iff.1 (conditionNow_eq_live.1 hlive)
  rw [honline m hst] at hq hst
  exact (h.settled hr k).trans (conditionNow_eq_live.2 (anyOwn_iff.2 ⟨m, q, hq, hp, hst⟩))

theorem PhotometryLaw.entered {s t : State} {m : Fin 8} {x : Meter} (h : PhotometryLaw s) (hr : s.resetN = true)
    (hentered : PhotometryEntered s t) (hmeters : t.meters = (s.setMeter m x).meters) (hx : x.state ≠ .online) :
    PhotometryLaw t :=
  hentered.law (h.lfSet hr) (h.live_of_online hr fun k hk => by
    rw [meter_of_setMeter hmeters] at hk ⊢
    split at hk
    · exact absurd hk hx
    next hne => rw [if_neg hne])

theorem PhotometryLaw.couple {s : State} (h : PhotometryLaw s) (hr : s.resetN = true) (p : Fin 4) (l : Option (Fin 4)) :
    PhotometryLaw (couple p l s) := by
  by_cases hsame : (s.portal p).leader = l
  · rwa [couple_of_same hsame]
  rw [couple_of_changed hsame]
  refine (photometryEntered_couple hr h).law (h.lfSet hr) (h.live_of_online hr fun m _ => ?_)
  rw [((onlyPhotometry_evalCondition ..).writes (ts := [.portals, .notices])).meter]
  rfl

/-- After every portal is evaluated with no meter ONLINE and every portal UNSET (R18, R169). -/
theorem photometryLaw_evaluateAll {s : State} (hmeters : ∀ m, (s.meter m).state ≠ .online)
    (hportals : ∀ p, (s.portal p).condition = .unset ∧ (s.portal p).lf = none) : PhotometryLaw (evaluateAll s) := by
  refine (photometryEntered_evaluateAll (leaderSettled_of_dark hmeters fun p => ?_)).law
    (fun k => iff_of_true (hportals k).2 (hportals k).1) fun k hk => ?_
  · rw [(hportals p).1]; nofun
  · obtain ⟨m, -, -, -, hst⟩ := anyOwn_iff.1 (conditionNow_eq_live.1 hk)
    rw [((onlyPhotometry_evaluateAll s).writes (ts := [.portals, .sweeps, .notices])).meter] at hst
    exact absurd hst (hmeters m)

theorem PhotometryLaw.examineEmergN {s : State} (h : PhotometryLaw s) (hr : s.resetN = true) :
    PhotometryLaw (examineEmergN s) :=
  h.kept hr (.examineEmergN s) (.of_meters (writes_examineEmergN s).meters)

theorem dark_restartValues {s : State} (h : MeterTableLaw s) (m : Fin 8) :
    ((restartValues s).meter m).state ≠ .online := by
  rw [meter_restartValues]
  unfold restartedMeter
  split
  next hsite =>
    rw [((h.1 m).1.1 hsite)]
    nofun
  · nofun

theorem photometryLaw_restart {s : State} (h : MeterTableLaw s) (hr : s.resetN = true) :
    PhotometryLaw (examineEmergN (evaluateAll (restartValues s))) := by
  have hevaluated := photometryLaw_evaluateAll (s := restartValues s) (dark_restartValues h) fun p => by
    rw [portal_restartValues]; exact ⟨rfl, rfl⟩
  refine hevaluated.examineEmergN ?_
  rw [((onlyPhotometry_evaluateAll _).writes (ts := [.portals, .sweeps, .notices])).outer.resetN,
    (writes_restartValues s).outer.resetN]
  exact hr

theorem photometryLaw_poweredUp {s : State} (h : ResetLaw s) (hr : s.resetN = false) (straps : BitVec 4)
    (pins : PinLevels) : PhotometryLaw (poweredUp straps pins s) := by
  unfold poweredUp
  rw [h hr]
  refine PhotometryLaw.examineEmergN (photometryLaw_evaluateAll (fun m => ?_) fun p => ?_) ?_
  · show (State.reset.meter m).state ≠ .online
    revert m; decide
  · show (State.reset.portal p).condition = .unset ∧ (State.reset.portal p).lf = none
    revert p; decide
  · rw [((onlyPhotometry_evaluateAll _).writes (ts := [.portals, .sweeps, .notices])).outer.resetN]

/-! ## Reading arrivals (R7) -/

theorem settled_readingArrival {s : State} {p : Fin 4} (hcoupling : CouplingLaw s) (honline : anyOwn s p .online = true)
    {la : Nat} (hla : approach s p = some la) (hs : ∀ k, k ≠ p → Settled s k) (k : Fin 4) :
    Settled (readingArrival p s) k := by
  rw [readingArrival_of_online honline hla]
  refine (conditionsKept_reviseFollowers ..).settled ?_
  have hnow := conditionNow_eq_live.2 honline
  unfold arrivalEvaluated
  split
  next hlive =>
    refine (conditionsKept_revise ..).settled ?_
    by_cases hk : k = p
    · subst hk; exact hlive.trans hnow.symm
    · exact hs k hk
  next hlive =>
    have hself : LeaderSettled s p := fun q hq => (hs q (Ne.symm (hcoupling.ne_of_leader hq))).live_iff
    have hleader : ∀ j, LeaderSettled (evalOwnCondition p s) j := fun j => by
      by_cases hj : (s.portal j).leader = some p
      · exact leaderSettled_of_evaluated hj
      · refine LeaderSettled.evalOwnCondition (fun q hq => (hs q fun e => hj (e ▸ hq)).live_iff) p
    have hkept := conditionsKept_revise p la (evalOwnCondition p s)
    refine (forEach_evalOwnCondition _ fun j => hkept.leaderSettled (hleader j)).2.1 k ?_
    by_cases hk : k = p
    · subst hk; exact .inr (hkept.settled (settled_evalOwnCondition hself))
    by_cases hf : (s.portal k).leader = some p
    · refine .inl (mem_followers.2 ?_)
      rw [hkept.leader, leader_evalOwnCondition, hf]
    · refine .inr (hkept.settled ((hs k hk).evalOwnCondition (fun q hq => ?_) p))
      exact (hs q fun e => hf (e ▸ hq)).live_iff

/-- A follower has its Lf when its leader's is set. -/
theorem Portal.EntersWith.lfSet {x y : Portal} {v : Nat} (h : x.EntersWith (some v) y)
    (hx : x.lf = none ↔ x.condition = .unset) (hlive : y.condition = .live → x.condition = .live) (la : Nat) :
    y.borrowedLf la = none ↔ y.condition = .unset := by
  unfold Portal.borrowedLf
  split
  next hb => rw [hb]; exact iff_of_false nofun nofun
  by_cases hsame : y.condition = x.condition
  · rw [h.same hsame, hsame]; exact hx
  rw [h.entered hsame]
  cases hc : y.condition
  case unset => exact iff_of_true rfl rfl
  case live => exact absurd (hc.trans (hlive hc).symm) hsame
  case borrowed => exact absurd hc ‹_›
  case fallback => exact iff_of_false nofun nofun

theorem Arrived.lfSet {s t : State} {p : Fin 4} {la : Nat} (h : Arrived s p la t) (hs : ∀ k, LfSet s k)
    (hlive : ∀ k, k ≠ p → (t.portal k).condition = .live → (s.portal k).condition = .live) (k : Fin 4) : LfSet t k := by
  unfold LfSet
  by_cases hk : k = p
  · subst hk
    rw [h.lf, h.live]
    exact iff_of_false nofun nofun
  by_cases hf : (s.portal k).leader = some p
  · obtain ⟨y, hentered, -, hcondition, hlf⟩ := h.followers k hf
    rw [h.lf] at hentered
    rw [hlf, hcondition]
    exact hentered.lfSet (hs k) (fun e => hlive k hk (hcondition.trans e)) la
  · rw [h.others k hk hf]
    exact hs k

theorem applyValid_eq (m : Fin 8) (q : MeterSite) (luminance : Nat) (s : State) :
    applyValid m q.portal luminance s = readingArrival q.portal (s.setMeter m (validMeter s m q luminance)) := by
  unfold applyValid validMeter
  rw [Nat.min_comm]
  rfl

theorem PhotometryLaw.applyValid {s : State} (h : PhotometryLaw s) (hr : s.resetN = true) (hcoupling : CouplingLaw s)
    {m : Fin 8} {q : MeterSite} (hsite : (s.meter m).site = some q) (luminance : Nat) :
    PhotometryLaw (applyValid m q.portal luminance s) := by
  rw [applyValid_eq]
  generalize hb : s.setMeter m (validMeter s m q luminance) = b
  have hmeters : b.meters = (s.setMeter m (validMeter s m q luminance)).meters := by rw [hb]
  have hportal : ∀ p, b.portal p = s.portal p := fun p => by rw [← hb]; rfl
  obtain ⟨honline, la, hla⟩ := online_of_valid hsite hmeters
  have hcoupling' : CouplingLaw b := hcoupling.of_leaders fun p => by rw [hportal]
  have hany : ∀ k st, k ≠ q.portal → anyOwn b k st = anyOwn s k st := fun k st hk =>
    anyOwn_setMeter hmeters (.inl (Meter.owns_eq_false_iff.2 fun r hr => by
        rw [Option.some.inj (hr.symm.trans hsite)]; exact Ne.symm hk))
      (.inl (Meter.owns_eq_false_iff.2 fun r hr => by
        rw [Option.some.inj (hr.symm.trans hsite)]; exact Ne.symm hk))
  have hsettled : ∀ k, k ≠ q.portal → Settled b k := fun k hk => by
    have hlead : leaderLive b k = leaderLive s k := leaderLive_congr (by rw [hportal]) fun j _ => by rw [hportal]
    unfold Settled conditionNow
    rw [hportal, hany k _ hk, hany k _ hk, hlead]
    exact h.settled hr k
  have settled := settled_readingArrival hcoupling' honline hla hsettled
  have arrived := arrived_readingArrival honline hla fun e => hcoupling'.ne_of_leader e rfl
  refine fun _ p => ⟨settled p, arrived.lfSet (fun k => ?_) (fun k hk hlive => ?_) p⟩
  · unfold LfSet
    rw [hportal]
    exact h.lfSet hr k
  · have hnow := conditionNow_eq_live.1 ((settled k).symm.trans hlive)
    rw [anyOwn_congr (((onlyPhotometry_readingArrival q.portal b).writes (ts := [.portals, .notices])).meters), hany k _ hk]
      at hnow
    rw [hportal]
    exact (h.settled hr k).trans (conditionNow_eq_live.2 hnow)

theorem PhotometryLaw.applyPoll {s : State} (h : PhotometryLaw s) (hr : s.resetN = true) (hcoupling : CouplingLaw s)
    (a : Nat) (result : Option (MeterStatus × Nat)) : PhotometryLaw (applyPoll a result s) := by
  unfold Machine.applyPoll
  split
  · exact h
  · split
    next q luminance hsite => exact h.applyValid hr hcoupling hsite luminance
    · exact h.kept hr (.of_portals rfl) (.setMeter rfl rfl)
    · exact h.kept hr (.of_portals rfl) (.setMeter rfl rfl)

/-! ## Commands, events and steps -/

theorem PhotometryLaw.command {s t : State} {ts : List Table} (h : PhotometryLaw s) (hr : s.resetN = true)
    (hmeter : MeterTableLaw s) (hcoupling : CouplingLaw s) (heffect : CommandEffect s ts t) : PhotometryLaw t := by
  by_cases hmeters : .meters ∈ ts
  · cases heffect
    case restart => exact photometryLaw_restart hmeter hr
    case removeMeter m =>
      exact h.entered hr (photometryEntered_removeMeter hr hcoupling h m)
        ((onlyPhotometry_evalFormer ..).writes (ts := [.portals, .notices])).meters nofun
    case configureMeter m address p _ _ _ =>
      exact h.entered hr (photometryEntered_configureMeter hr hcoupling h m address p)
        (((onlyPhotometry_evalFormer ..).trans (onlyPhotometry_evalCondition ..)).writes
          (ts := [.portals, .notices])).meters nofun
    case readPortal p =>
      exact h.kept hr (.of_portals (writes_clearReported ..).portals) (sourcesKept_clearReported _ _)
    case readSnapshot p shown =>
      exact h.kept hr (.of_portals ((writes_clearReported shown _).portals.trans rfl))
        ((SourcesKept.of_meters rfl).trans (sourcesKept_clearReported _ _))
    all_goals exact absurd hmeters (by decide)
  · by_cases hcouple : ∃ p leader, t = Machine.couple p leader s
    · obtain ⟨p, leader, rfl⟩ := hcouple
      exact h.couple hr p leader
    · exact h.kept hr (.command heffect hmeters fun p leader _ e => hcouple ⟨p, leader, e⟩)
        (.of_meters (heffect.writes.meters hmeters))

theorem PhotometryLaw.event {s t : State} {ts : List Table} (h : PhotometryLaw s) (hr : s.resetN = true)
    (hcoupling : CouplingLaw s) (heffect : EventEffect s ts t) : PhotometryLaw t := by
  have ended : PhotometryLaw { s with poll := none } := h.kept hr (.of_portals rfl) (.of_meters rfl)
  have coupling : CouplingLaw { s with poll := none } := hcoupling
  by_cases hmeters : .meters ∈ ts
  · cases heffect
    case holdTimerExpiry m =>
      unfold Machine.holdExpired
      dsimp only
      split
      next hold q _ hsite =>
        split
        · exact h.entered hr (photometryEntered_meterLost hr hcoupling h hsite)
            ((onlyPhotometry_evalCondition ..).writes (ts := [.portals, .notices])).meters nofun
        · exact h
      · exact h
    case pollDue m =>
      unfold Machine.pollDue
      split
      · exact h.kept hr (.of_portals rfl) (.setMeter rfl rfl)
      · exact h
    case pollStart =>
      unfold Machine.pollStart
      split
      next m q _ _ =>
        exact h.kept hr (.of_portals rfl) ((SourcesKept.setMeter (x := { s.meter m with due := false }) rfl rfl).trans
          (.of_meters rfl))
      · exact h
    case pollCompletion c0 c1 c2 c3 c4 =>
      unfold Machine.pollCompletion
      split
      · exact h
      · exact ended.applyPoll hr coupling _ _
    case pollWindowClose =>
      unfold Machine.pollWindowClose
      split
      · exact h
      · exact ended.applyPoll hr coupling _ _
    all_goals exact absurd hmeters (by decide)
  · exact h.kept hr (.event heffect hmeters) (.of_meters (heffect.writes.meters hmeters))

theorem leaders_event {s t : State} {ts : List Table} (heffect : EventEffect s ts t) (p : Fin 4) :
    (t.portal p).leader = (s.portal p).leader := by
  have polled : ∀ a result, ((applyPoll a result { s with poll := none }).portal p).leader = (s.portal p).leader := by
    intro a result
    unfold applyPoll
    split
    · rfl
    · split
      · rw [applyValid, (onlyPhotometry_readingArrival ..).portal]; rfl
      · rfl
      · rfl
  by_cases hmeters : .meters ∈ ts
  · cases heffect
    case holdTimerExpiry m =>
      unfold Machine.holdExpired
      dsimp only
      split
      · split
        · rw [(onlyPhotometry_evalCondition ..).portal]; rfl
        · rfl
      · rfl
    case pollDue m => rw [(EventEffect.pollDue m).writes.portal]
    case pollStart => rw [EventEffect.pollStart.writes.portal]
    case pollCompletion c0 c1 c2 c3 c4 =>
      unfold Machine.pollCompletion
      split
      · rfl
      · exact polled _ _
    case pollWindowClose =>
      unfold Machine.pollWindowClose
      split
      · rfl
      · exact polled _ _
    all_goals exact absurd hmeters (by decide)
  · exact (PhotometryKept.event heffect hmeters).leader p

/-- The laws of the meter table, of coupling and of photometry, with the law of RESET_N that its release needs. -/
structure Metered (s : State) : Prop where
  reset : ResetLaw s
  meters : MeterTableLaw s
  coupling : CouplingLaw s
  photometry : PhotometryLaw s

namespace Metered

variable {s t : State}

theorem of_pending (h : Metered s) (pending : List Instr) : Metered { s with pending := pending } :=
  ⟨h.reset.of_pending pending, h.meters, h.coupling, h.photometry⟩

theorem reads_photometryLaw : Reads [.meters, .portals] PhotometryLaw := fun s t hr _ hsame h hhigh =>
  h.kept (hr ▸ hhigh) (.of_portals (hsame .portals (by decide))) (.of_meters (hsame .meters (by decide))) hhigh

theorem coupling_poweredUp (h : Metered s) (straps : BitVec 4) (pins : PinLevels) :
    CouplingLaw (poweredUp straps pins s) := by
  refine h.coupling.of_leaders fun p => ?_
  unfold poweredUp
  rw [(PhotometryKept.examineEmergN _).leader, (onlyPhotometry_evaluateAll _).portal]
  rfl

theorem step_meters (h : Metered s) (hstep : step s = .next t) : MeterTableLaw t :=
  step_keeps (P := Metered) reads_meterTableLaw (fun _ h => h.meters) (fun _ pending h => h.of_pending pending)
    (fun _ _ _ _ h heffect _ => h.meters.command heffect) (fun _ _ _ _ h heffect _ => h.meters.event heffect)
    (fun s _ => reads_meterTableLaw.asserted (meterTableLaw_of_check (by decide +kernel)) s)
    (fun straps pins s _ h => reads_meterTableLaw.released
      (reads_meterTableLaw.keeps (writes_poweredUp straps pins s) (by decide) h.meters)) h hstep

theorem step_coupling (h : Metered s) (hstep : step s = .next t) : CouplingLaw t :=
  step_keeps (P := Metered) reads_couplingLaw (fun _ h => h.coupling) (fun _ pending h => h.of_pending pending)
    (fun _ _ _ _ h heffect _ => h.coupling.command heffect)
    (fun _ _ _ _ h heffect _ => h.coupling.of_leaders (leaders_event heffect))
    (fun s _ => reads_couplingLaw.asserted (fun p q => by revert p q; decide) s)
    (fun straps pins _ _ h => reads_couplingLaw.released (h.coupling_poweredUp straps pins)) h hstep

theorem step_photometry (h : Metered s) (hstep : step s = .next t) : PhotometryLaw t :=
  step_keeps (P := Metered) reads_photometryLaw (fun _ h => h.photometry) (fun _ pending h => h.of_pending pending)
    (fun _ _ _ hr h heffect _ => h.photometry.command hr h.meters h.coupling heffect)
    (fun _ _ _ hr h heffect _ => h.photometry.event hr h.coupling heffect)
    (fun s _ => reads_photometryLaw.asserted nofun s)
    (fun straps pins _ hr h => reads_photometryLaw.released (photometryLaw_poweredUp h.reset hr straps pins)) h hstep

end Metered

/-- Settles O20: the entries' part, the sites' part, the leaders and each portal's photometry, with the other laws at hand. -/
theorem stepKeepsMeterCouplingAndPhotometryLaws : Obligations.StepKeepsMeterCouplingAndPhotometryLaws := by
  intro s t hreset hmeters hcoupling hphotometry h
  have hs : Metered s := ⟨hreset, hmeters, hcoupling, hphotometry⟩
  exact ⟨hs.step_meters h, hs.step_coupling h, hs.step_photometry h⟩

end Sys2Proof.Machine
end

section
/-! SUPPORT. What each command and event leaves of the line controllers, and the laws of miss counts and of an absent line B
(R99, R113, R119, R131). -/

namespace Sys2Proof.Machine

/-! ## The line controllers after the operations on them -/

theorem line_removeStray (l k : Line) (a : Nat) (s : State) :
    (removeStray l a s).line k = if l = k then
      { s.line l with strays := (s.line l).strays.filter fun e => e.address != a } else s.line k := by
  unfold removeStray
  dsimp only
  split
  · rw [(Writes.of_handFalse (ts := [.notices]) ..).line, State.line_setLine]
  · rw [State.line_setLine]

theorem line_fillSlot (x : Admission) (capability : Option Bool) (lmin : Nat) (k : Line) (s : State) :
    (fillSlot x capability lmin s).line k = if x.place.line = k then
      { s.line k with
        strays := (s.line k).strays.filter fun e => e.address != x.place.address
        ignored := (s.line k).ignored.filter fun a => a != x.place.address } else s.line k := by
  unfold fillSlot removeIgnored
  rw [((onlySweeps_requestForSlot ..).trans (onlySweeps_settleSweeps _)).line, State.line_setLine]
  have hrecord : ∀ l, (s.setRecord x.slot (admittedRecord x capability lmin)).line l = s.line l := fun l =>
    (Writes.of_setRecord (ts := [.roster]) ..).line l
  split
  next h =>
    subst h
    rw [line_removeStray, if_pos rfl, hrecord]
  next h => rw [line_removeStray, if_neg h, hrecord]

theorem line_retireRecord (n : Nat) (q : Place) (k : Line) (s : State) :
    (retireRecord n q s).line k = if q.line = k then retiredLine (s.line k) q.address else s.line k := by
  unfold retireRecord
  rw [((onlySweeps_requestForSlot ..).trans (onlySweeps_settleSweeps _)).line, State.line_setLine]
  split
  next h => subst h; rfl
  · exact (Writes.of_setRecord (ts := [.roster]) ..).line k

theorem line_applyLimit (l k : Line) (limit : Nat) (s : State) :
    (applyLimit l limit s).line k = if l = k then { s.line l with missLimit := limit } else s.line k := by
  have written : (forEach (slotsOfLine s l) (fun n t => t.setRecord n (limited limit (t.record n)))
      (s.setLine l { s.line l with missLimit := limit })).line k
        = if l = k then { s.line l with missLimit := limit } else s.line k := by
    rw [(Writes.of_forEach (ts := [.roster]) _ (fun n t => .of_setRecord t n _) _).line, State.line_setLine]
  unfold applyLimit
  dsimp only
  rw [(onlySweeps_settleSweeps _).line, (OnlySweeps.forEach _ onlySweeps_requestForSlot _).line]
  split
  · exact written
  · rw [(Writes.of_handEvent (ts := [.notices]) ..).line]; exact written

theorem line_rejectStray (l k : Line) (a : Nat) (s : State) :
    (rejectStray l a s).line k = if l = k then
      { s.line l with
        strays := (s.line l).strays.filter fun e => e.address != a
        admin := withoutIdentify (s.line l).admin a
        ignored := ignoredWith (s.line l).ignored a } else s.line k := by
  unfold rejectStray
  dsimp only
  rw [State.line_setLine]
  split
  · rw [line_removeStray, if_pos rfl]
  next h => rw [line_removeStray, if_neg h]

/-! ## What keeps to one line -/

/-- No other line's controller differs, and the line's own miss limit does not. -/
structure KeepsToLine (l : Line) (s t : State) : Prop where
  others : ∀ k, k ≠ l → t.line k = s.line k
  limit : (t.line l).missLimit = (s.line l).missLimit

namespace KeepsToLine

variable {l : Line} {s t u : State}

theorem of_lines (h : ∀ k, t.line k = s.line k) : KeepsToLine l s t := ⟨fun k _ => h k, by rw [h]⟩

theorem refl (s : State) : KeepsToLine l s s := of_lines fun _ => rfl

theorem trans (h : KeepsToLine l s t) (k : KeepsToLine l t u) : KeepsToLine l s u :=
  ⟨fun j hj => (k.others j hj).trans (h.others j hj), k.limit.trans h.limit⟩

theorem writes {ts : List Table} (h : Writes ts s t) (hn : .lines ∉ ts := by decide) : KeepsToLine l s t :=
  of_lines fun k => h.line k hn

theorem onlySweeps (h : OnlySweeps s t) : KeepsToLine l s t := of_lines h.line

theorem setLine {c : LineCtl} (h : c.missLimit = (s.line l).missLimit) : KeepsToLine l s (s.setLine l c) :=
  ⟨fun k hk => State.line_setLine_of_ne _ _ _ _ hk, by rw [State.line_setLine_self, h]⟩

theorem limits (h : KeepsToLine l s t) (k : Line) : (t.line k).missLimit = (s.line k).missLimit := by
  by_cases hk : k = l
  · subst hk; exact h.limit
  · rw [h.others k hk]

theorem removeStray (l : Line) (a : Nat) (s : State) : KeepsToLine l s (removeStray l a s) :=
  ⟨fun k hk => by rw [line_removeStray, if_neg (Ne.symm hk)], by rw [line_removeStray, if_pos rfl]⟩

theorem withPhase (l : Line) (f : Phase → Phase) (s : State) : KeepsToLine l s (withPhase l f s) := by
  unfold Machine.withPhase
  split
  · exact .setLine rfl
  · exact .refl s
  · exact .refl s

theorem quietEnded (l : Line) (s : State) : KeepsToLine l s (quietEnded l s) := by
  unfold Machine.quietEnded
  split
  · split
    · exact .setLine rfl
    · exact .refl s
  · exact .refl s
  · exact .refl s

theorem servedCursor (c : LineCtl) (cls : SweepClass) (p : Fin 4) (st : LineState) :
    (c.servedCursor cls p st).missLimit = c.missLimit := by
  cases cls <;> rfl

theorem grantTo (l : Line) (g : Grantee) (s : State) : KeepsToLine l s (grantTo l g s) := by
  cases g with
  | cursor cls p n =>
    show KeepsToLine l s (grantCursor l cls p n s)
    unfold grantCursor
    dsimp only
    split
    · exact (setLine (servedCursor ..)).trans (.writes (writes_cursorGranted ..))
    · have sent := Writes.of_setRecord (ts := [.roster]) s n { s.record n with lastSent := some (levelOfSlot s n) }
      refine (writes sent).trans ((setLine ?_).trans (.writes (writes_cursorGranted ..)))
      rw [servedCursor, sent.line]
    · exact .refl s
  | admin e rest => exact .setLine rfl
  | service a rest => exact .setLine rfl

theorem arbiterGrant (l : Line) (s : State) : KeepsToLine l s (arbiterGrant l s) := by
  unfold Machine.arbiterGrant
  split
  · split
    · exact .refl s
    · exact .grantTo ..
  · exact .refl s
  · exact .refl s

theorem strayIdent (l : Line) (a : Nat) (reply : Option DriverReply) (s : State) :
    KeepsToLine l s (strayIdent l a reply s) := by
  unfold Machine.strayIdent
  split
  · exact .setLine rfl
  · exact .refl s

theorem applyResult (l : Line) (x : Exchange) (reply : Option DriverReply) (s : State) :
    KeepsToLine l s (applyResult l x reply s) := by
  unfold Machine.applyResult
  split
  · split
    · exact .strayIdent ..
    · exact .refl s
  · dsimp only
    split
    · split
      · exact .writes (writes_commitApplied ..)
      · exact .refl s
    · split
      · exact .refl s
      · split
        · exact (writes (writes_commitApplied ..)).trans (.setLine rfl)
        · exact .writes (writes_commitApplied ..)

theorem queueIdentify (l : Line) (a : Nat) (s : State) : KeepsToLine l s (queueIdentify l a s) := .setLine rfl

theorem addStray (l : Line) (a : Nat) (s : State) : KeepsToLine l s (addStray l a s) := by
  unfold Machine.addStray
  dsimp only
  split
  · exact (setLine (by rfl)).trans (.writes (Writes.of_handTrue (ts := [.notices]) ..))
  · exact .setLine (by rfl)

theorem takeRequest (l : Line) (q : Option Request) (s : State) : KeepsToLine l s (takeRequest l q s) := by
  unfold Machine.takeRequest
  split
  · exact .refl s
  · unfold takeJoin
    split
    · split
      · exact .refl s
      · exact .queueIdentify ..
    · split
      · exact .refl s
      split
      · exact .queueIdentify ..
      split
      · exact (addStray ..).trans (.queueIdentify ..)
      · exact .refl s
  · exact .removeStray ..
  · unfold takeNews
    split
    · split
      · exact .refl s
      · exact .setLine rfl
    · exact .refl s
  · exact .setLine rfl

theorem freeLine (l : Line) (s : State) : KeepsToLine l s (freeLine l s) := .setLine rfl

theorem exchangeCompletion (l : Line) (chars : List Byte) (s : State) :
    KeepsToLine l s (exchangeCompletion l chars s) := by
  unfold Machine.exchangeCompletion
  split
  next x _ =>
    split
    next received request _ =>
      have result := applyResult l x (acceptReply x.frame x.address received) s
      have taken := result.trans (takeRequest l (readRequest (request ++ chars)) _)
      exact (((taken.trans (.onlySweeps (onlySweeps_notifyOrigin l x.origin _))).trans (.freeLine l _)).trans
        (.onlySweeps (onlySweeps_settleSweeps _)))
    all_goals exact .refl s
  all_goals exact .refl s

end KeepsToLine

/-- An event that writes the line controllers writes one of them, and leaves a quiet absent line as it is. -/
theorem EventEffect.keepsToLine {s t : State} {ts : List Table} (h : EventEffect s ts t) (hlines : .lines ∈ ts) :
    ∃ l, KeepsToLine l s t ∧ (s.linePresent l = false → (s.line l).state = .quiet → t = s) := by
  cases h
  case quietPeriodEnd l =>
    refine ⟨l, .quietEnded l s, fun habsent hquiet => ?_⟩
    simp [Machine.quietEnded, hquiet, habsent]
  case arbiterGrant l =>
    refine ⟨l, .arbiterGrant l s, fun _ hquiet => ?_⟩
    simp [Machine.arbiterGrant, hquiet]
  case phase l f =>
    refine ⟨l, .withPhase l f s, fun _ hquiet => ?_⟩
    simp [Machine.withPhase, hquiet]
  case exchangeCompletion l chars =>
    refine ⟨l, .exchangeCompletion l chars s, fun _ hquiet => ?_⟩
    simp [Machine.exchangeCompletion, hquiet]
  all_goals exact absurd hlines (by decide)

theorem EventEffect.missLimit {s t : State} {ts : List Table} (h : EventEffect s ts t) (k : Line) :
    (t.line k).missLimit = (s.line k).missLimit := by
  by_cases hlines : .lines ∈ ts
  · obtain ⟨l, hkeeps, -⟩ := h.keepsToLine hlines
    exact hkeeps.limits k
  · rw [h.writes.line k hlines]

theorem line_restart (s : State) (l : Line) :
    (examineEmergN (evaluateAll (restartValues s))).line l = (s.line l).restarted := by
  have after := ((onlyPhotometry_evaluateAll (restartValues s)).writes (ts := [.portals, .sweeps, .notices])).trans
    (writes_examineEmergN _)
  rw [after.line, line_restartValues]

/-! ## One record's miss count (R119, R131) -/

/-- R119, R131: MissLaw of one record, for given miss limits. -/
def Record.Counted (limit : Line → Nat) (r : Record) : Prop :=
  ∀ q, r.place = some q → r.misses ≤ limit q.line
    ∧ (r.state = .active ∨ r.state = .probation ∨ r.state = .dark → r.misses < limit q.line)

namespace Record.Counted

variable {limit : Line → Nat} {r x : Record}

theorem of_same (h : r.Counted limit) (hplace : x.place = r.place) (hmisses : x.misses = r.misses)
    (hstate : x.state = .active ∨ x.state = .probation ∨ x.state = .dark →
      r.state = .active ∨ r.state = .probation ∨ r.state = .dark) : x.Counted limit := fun q hq => by
  obtain ⟨hle, hlt⟩ := h q (hplace ▸ hq)
  rw [hmisses]
  exact ⟨hle, fun hs => hlt (hstate hs)⟩

theorem of_zero (hlimit : ∀ l, 1 ≤ limit l) (hmisses : x.misses = 0) : x.Counted limit := fun q _ => by
  rw [hmisses]
  exact ⟨Nat.zero_le _, fun _ => hlimit q.line⟩

theorem vacant (b : Bool) : (Record.vacant b).Counted limit := nofun

theorem changedBlind : ChangedBlind (Record.Counted limit) := fun _ _ h => h

theorem restarted (hlimit : ∀ l, 1 ≤ limit l) (r : Record) : r.restarted.Counted limit := by
  unfold Record.restarted
  split
  · exact .vacant true
  · exact .of_zero hlimit rfl

theorem limited {limit' : Line → Nat} {l : Line} (h : r.Counted limit) (hother : ∀ k, k ≠ l → limit' k = limit k) :
    (if r.nonVacant = true ∧ r.onLine l = true then limited (limit' l) r else r).Counted limit' ∨ r.nonVacant = false := by
  by_cases hv : r.nonVacant = true
  swap
  · exact .inr (by simpa using hv)
  refine .inl fun q hq => ?_
  by_cases honline : r.onLine l = true
  · rw [if_pos ⟨hv, honline⟩] at hq ⊢
    unfold Machine.limited at hq ⊢
    dsimp only at hq ⊢
    have hline : ∀ q, r.place = some q → q.line = l := fun q hq => by simpa [Record.onLine, hq] using honline
    split
    next hreached =>
      rw [if_pos hreached] at hq
      rw [hline q hq]
      exact ⟨Nat.min_le_right _ _, by simp⟩
    next hreached =>
      rw [if_neg hreached] at hq
      rw [hline q hq]
      refine ⟨Nat.min_le_right _ _, fun hs => lt_of_le_of_ne (Nat.min_le_right _ _) fun e => hreached ⟨hs, e⟩⟩
  · rw [if_neg fun hc => honline hc.2] at hq ⊢
    have hne : q.line ≠ l := fun e => honline (by simp [Record.onLine, hq, e])
    rw [hother _ hne]
    exact h q hq

theorem faultCleared (h : r.Counted limit) : (faultCleared r).Counted limit := by
  unfold Machine.faultCleared
  split
  next hdark => exact h.of_same rfl rfl fun _ => .inr (.inr hdark)
  · exact h.of_same rfl rfl id

theorem replied {l : Line} {a : Nat} {taken : Nat → Bool} {f : LineFrame} {reply : Option DriverReply}
    (hx : Replied (limit l) taken f reply r x) (h : r.Counted limit) (hplace : r.place = some ⟨l, a⟩)
    (hlimit : ∀ l, 1 ≤ limit l) : x.Counted limit := by
  have hline : ∀ q, x.place = some q → q.line = l := fun q hq => by
    rw [hx.place, hplace] at hq
    cases hq
    rfl
  intro q hq
  rw [hline q hq]
  cases hx
  case same =>
    have := h q hq
    rwa [hline q hq] at this
  case missed hroom hstays => exact ⟨hroom, fun hs => lt_of_le_of_ne hroom fun e => hstays e hs⟩
  case silenced => exact ⟨le_rfl, by simp⟩
  all_goals exact ⟨Nat.zero_le _, fun _ => hlimit l⟩

end Record.Counted

/-! ## The law of miss counts -/

theorem forall_record_setRecord {P : Record → Prop} {s : State} (hw : rosterWf s.roster = true) (h : ∀ k, P (s.record k))
    (n : Nat) {x : Record} (hx : P x) (k : Nat) : P ((s.setRecord n x).record k) := by
  by_cases hn : n < 512
  · rw [State.record_setRecord hw hn]
    split
    · exact hx
    · exact h k
  · rw [State.setRecord_of_ge hn]; exact h k

theorem reads_missLaw : Reads [.roster, .lines] MissLaw := fun s t _ _ hsame h n q hq => by
  obtain ⟨ha, hb⟩ := Prod.mk.inj (hsame .lines (by decide))
  rw [record_of_roster (hsame .roster (by decide))] at hq ⊢
  have hline : t.line q.line = s.line q.line := by
    cases hl : q.line
    · exact ha
    · exact hb
  rw [hline]
  exact h n q hq

/-- MissLaw of a state whose roster is another's and whose miss limits are given. -/
theorem missLaw_of_roster {s t : State} (hroster : t.roster = s.roster) {limit : Line → Nat}
    (hlimit : ∀ l, (t.line l).missLimit = limit l) (h : ∀ n, (s.record n).Counted limit) : MissLaw t := fun n q hq => by
  rw [record_of_roster hroster] at hq ⊢
  rw [hlimit]
  exact h n q hq

theorem missLaw_command {s t : State} {ts : List Table} (h : MissLaw s) (hw : rosterWf s.roster = true)
    (hvacant : ∀ n, (s.record n).nonVacant = false → (s.record n).place = none)
    (hlimit : ∀ l, 1 ≤ (s.line l).missLimit) (heffect : CommandEffect s ts t)
    (htouched : ∃ x ∈ ts, x ∈ [Table.roster, .lines]) : MissLaw t := by
  have counted : ∀ n, (s.record n).Counted fun l => (s.line l).missLimit := h
  cases heffect
  case restart =>
    refine missLaw_of_roster (roster_restart s) (fun l => by rw [line_restart]) fun n => ?_
    rw [record_restartRoster hw]
    exact .restarted hlimit _
  case admission x capability lmin _ _ =>
    refine missLaw_of_roster (roster_fillSlot x capability lmin s) (fun l => ?_)
      (forall_record_setRecord hw counted x.slot (.of_zero hlimit rfl))
    rw [line_fillSlot]
    split <;> rfl
  case amend n x m override pinned uid _ =>
    exact missLaw_of_roster rfl (fun l => by rw [(Writes.of_setRecord (ts := [.roster]) ..).line])
      (forall_record_setRecord hw counted n ((counted n).of_same rfl rfl id))
  case amendAsking n x m override pinned uid _ =>
    exact missLaw_of_roster (roster_requestForSlot n _)
      (fun l => by rw [(onlySweeps_requestForSlot ..).line, (Writes.of_setRecord (ts := [.roster]) ..).line])
      (forall_record_setRecord hw counted n ((counted n).of_same rfl rfl id))
  case move n k _ _ _ _ _ _ =>
    exact missLaw_of_roster (roster_moveRecord n k s)
      (fun l => by rw [(CommandEffect.move n k ‹_› ‹_› ‹_› ‹_› ‹_› ‹_›).writes.line])
      (forall_record_setRecord (rosterWf_setRecord hw ..) (forall_record_setRecord hw counted k (counted n)) n (.vacant false))
  case retire n q _ _ _ _ _ =>
    refine missLaw_of_roster (roster_retireRecord n q s) (fun l => ?_)
      (forall_record_setRecord hw counted n (x := { s.record n with state := .retiring })
        ((counted n).of_same rfl rfl (by simp)))
    rw [line_retireRecord]
    split <;> rfl
  case clearFault n _ _ _ =>
    exact missLaw_of_roster (roster_clearFaultOf n s)
      (fun l => by rw [(CommandEffect.clearFault n ‹_› ‹_› ‹_›).writes.line])
      (forall_record_setRecord hw counted n (counted n).faultCleared)
  case readRecord n _ =>
    exact missLaw_of_roster rfl (fun l => by rw [(Writes.of_setRecord (ts := [.roster]) ..).line])
      (forall_record_setRecord hw counted n (x := { s.record n with changed := false }) (counted n))
  case setLine l limit _ hrange =>
    intro n q hq
    have hlimits : ∀ k, k ≠ l → ((applyLimit l limit s).line k).missLimit = (s.line k).missLimit := fun k hk => by
      rw [line_applyLimit, if_neg (Ne.symm hk)]
    rw [record_applyLimit hw] at hq ⊢
    obtain hcounted | hv := (counted n).limited (l := l)
      (limit' := fun k => ((applyLimit l limit s).line k).missLimit) hlimits
    · rw [line_applyLimit, if_pos rfl] at hcounted
      exact hcounted q hq
    · rw [if_neg fun hc => by rw [hv] at hc; exact absurd hc.1 (by decide), hvacant n hv] at hq
      cases hq
  case rejectStray l a _ _ _ =>
    refine missLaw_of_roster (CommandEffect.rejectStray l a ‹_› ‹_› ‹_›).writes.roster (fun k => ?_) counted
    rw [line_rejectStray]
    split
    next hk => subst hk; rfl
    · rfl
  case clearIgnore l _ =>
    refine missLaw_of_roster (CommandEffect.clearIgnore l ‹_›).writes.roster (fun k => ?_) counted
    exact (KeepsToLine.setLine (by rfl)).limits k
  all_goals exact absurd htouched (by decide)

theorem missLaw_event {s t : State} {ts : List Table} (h : MissLaw s) (hw : rosterWf s.roster = true)
    (hlimit : ∀ l, 1 ≤ (s.line l).missLimit) (heffect : EventEffect s ts t) : MissLaw t := by
  have counted : ∀ n, (s.record n).Counted fun l => (s.line l).missLimit := h
  by_cases htouched : .roster ∈ ts
  case neg => exact missLaw_of_roster (heffect.writes.roster htouched) heffect.missLimit counted
  have limits := heffect.missLimit
  cases heffect
  case arbiterGrant l =>
    have hgrant := roster_arbiterGrant l s
    generalize hroster : (Machine.arbiterGrant l s).roster = roster at hgrant
    cases hgrant
    case same => exact missLaw_of_roster hroster limits counted
    case sent n _ =>
      exact missLaw_of_roster hroster limits (forall_record_setRecord hw counted n
        (x := { s.record n with lastSent := some (levelOfSlot s n) }) (counted n))
  case exchangeCompletion l chars =>
    obtain hroster | ⟨x, received, request, -, -, hresult⟩ := roster_exchangeCompletion l chars s
    · exact missLaw_of_roster hroster limits counted
    generalize hroster : (Machine.exchangeCompletion l chars s).roster = roster at hresult
    cases hresult
    case same => exact missLaw_of_roster hroster limits counted
    case vacated n _ _ _ =>
      exact missLaw_of_roster hroster limits (forall_record_setRecord hw counted n (.vacant true))
    case written n hlookup _ _ y hreplied =>
      have hplace := (Record.at_iff.1 (State.at_of_lookup hw hlookup)).2
      exact missLaw_of_roster hroster limits (forall_record_setRecord hw counted n
        (Record.Counted.changedBlind.marked (s.record n)
          (.replied (limit := fun l => (s.line l).missLimit) hreplied (counted n) hplace hlimit)))
  all_goals exact absurd htouched (by decide)

/-! ## The law of an absent line B (R99, R113) -/

/-- R99: no record stands on line B. -/
def NothingOnLineB (s : State) : Prop := ∀ n q, (s.record n).place = some q → q.line = .a

theorem NothingOnLineB.of_roster {s t : State} (h : NothingOnLineB s) (ht : t.roster = s.roster) : NothingOnLineB t :=
  fun n q hq => h n q (record_of_roster ht n ▸ hq)

theorem NothingOnLineB.written {s t : State} (h : NothingOnLineB s) (hw : rosterWf s.roster = true) (n : Nat) {x : Record}
    (hroster : t.roster = (s.setRecord n x).roster) (hx : ∀ q, x.place = some q → q.line = .a) : NothingOnLineB t :=
  of_roster (s := s.setRecord n x)
    (forall_record_setRecord (P := fun r => ∀ q, r.place = some q → q.line = .a) hw h n hx) hroster

/-- The place of a record that a command writes is another's, or that of an admission to a present line. -/
theorem nothingOnLineB_command {s t : State} {ts : List Table} (h : NothingOnLineB s) (hw : rosterWf s.roster = true)
    (habsent : s.linePresent .b = false) (heffect : CommandEffect s ts t) : NothingOnLineB t := by
  by_cases htouched : .roster ∈ ts
  case neg => exact h.of_roster (heffect.writes.roster htouched)
  cases heffect
  case restart =>
    intro n q hq
    rw [record_of_roster (roster_restart s), record_restartRoster hw] at hq
    unfold Record.restarted at hq
    split at hq
    · cases hq
    · exact h n q hq
  case admission x capability lmin hpassed _ =>
    refine h.written hw x.slot (roster_fillSlot x capability lmin s) fun q hq => ?_
    cases hq
    cases hl : x.place.line
    · rfl
    · have := hpassed.present
      rw [hl, habsent] at this
      cases this
  case amend n x m override pinned uid _ => exact h.written hw n rfl (h n)
  case amendAsking n x m override pinned uid _ => exact h.written hw n (roster_requestForSlot n _) (h n)
  case move n k _ _ _ _ _ _ =>
    intro j q hq
    rw [record_of_roster (roster_moveRecord n k s)] at hq
    have hmoved := forall_record_setRecord (P := fun r => ∀ q, r.place = some q → q.line = .a) hw h k (h n)
    exact forall_record_setRecord (P := fun r => ∀ q, r.place = some q → q.line = .a) (rosterWf_setRecord hw ..) hmoved n
      (x := .vacant false) nofun j q hq
  case retire n q _ _ _ _ _ => exact h.written hw n (roster_retireRecord n q s) (h n)
  case clearFault n _ _ _ =>
    refine h.written hw n (roster_clearFaultOf n s) fun q hq => h n q ?_
    unfold faultCleared at hq
    split at hq <;> exact hq
  case readRecord n _ => exact h.written hw n (x := { s.record n with changed := false }) rfl (h n)
  case setLine l limit _ _ =>
    intro n q hq
    rw [record_applyLimit hw] at hq
    refine h n q ?_
    unfold limited at hq
    dsimp only at hq
    split at hq
    · split at hq <;> exact hq
    · exact hq
  all_goals exact absurd htouched (by decide)

theorem nothingOnLineB_event {s t : State} {ts : List Table} (h : NothingOnLineB s) (hw : rosterWf s.roster = true)
    (heffect : EventEffect s ts t) : NothingOnLineB t := by
  by_cases htouched : .roster ∈ ts
  case neg => exact h.of_roster (heffect.writes.roster htouched)
  cases heffect
  case arbiterGrant l =>
    have hgrant := roster_arbiterGrant l s
    generalize hroster : (Machine.arbiterGrant l s).roster = roster at hgrant
    cases hgrant
    case same => exact h.of_roster hroster
    case sent n _ => exact h.written hw n hroster (h n)
  case exchangeCompletion l chars =>
    obtain hroster | ⟨x, received, request, -, -, hresult⟩ := roster_exchangeCompletion l chars s
    · exact h.of_roster hroster
    generalize hroster : (Machine.exchangeCompletion l chars s).roster = roster at hresult
    cases hresult
    case same => exact h.of_roster hroster
    case vacated n _ _ _ => exact h.written hw n hroster nofun
    case written n _ _ _ y hreplied =>
      refine h.written hw n hroster fun q hq => h n q ?_
      rw [← hreplied.place]
      unfold marked at hq
      split at hq <;> exact hq
  all_goals exact absurd htouched (by decide)

theorem reads_lineBLaw : Reads [.roster, .lines] LineBLaw := fun s t _ hstraps hsame h habsent => by
  obtain ⟨-, hb⟩ := Prod.mk.inj (hsame .lines (by decide))
  have hbefore : s.linePresent .b = false := by rw [← habsent, State.linePresent, State.linePresent, hstraps]
  obtain ⟨hline, hplaces⟩ := h hbefore
  refine ⟨hb.trans hline, fun n => ?_⟩
  rw [record_of_roster (hsame .roster (by decide))]
  exact hplaces n

theorem linePresent_writes {s t : State} {ts : List Table} (h : Writes ts s t) (l : Line) :
    t.linePresent l = s.linePresent l := by
  cases l
  · rfl
  · rw [State.linePresent, State.linePresent, h.outer.straps]

theorem LineBLaw.command {s t : State} {ts : List Table} (h : LineBLaw s) (hw : rosterWf s.roster = true)
    (heffect : CommandEffect s ts t) : LineBLaw t := by
  intro habsent
  rw [linePresent_writes heffect.writes] at habsent
  obtain ⟨hline, hplaces⟩ := h habsent
  refine ⟨?_, nothingOnLineB_command hplaces hw habsent heffect⟩
  have onA : ∀ l, s.linePresent l = true → l ≠ .b := fun l hl e => by rw [e, habsent] at hl; cases hl
  show t.line .b = .powerOn
  by_cases htouched : .lines ∈ ts
  case neg => exact (heffect.writes.line .b htouched).trans hline
  have hb : s.line .b = .powerOn := hline
  cases heffect
  case restart => rw [line_restart, hb]; rfl
  case admission x capability lmin hpassed _ => rw [line_fillSlot, if_neg (onA _ hpassed.present), hb]
  case retire n q _ _ _ hplace _ =>
    rw [line_retireRecord, if_neg (fun e => by rw [hplaces n q hplace] at e; cases e), hb]
  case setLine l limit hpresent _ => rw [line_applyLimit, if_neg (onA l hpresent), hb]
  case rejectStray l a hpresent _ _ => rw [line_rejectStray, if_neg (onA l hpresent), hb]
  case clearIgnore l hpresent => rw [State.line_setLine, if_neg (onA l hpresent), hb]
  all_goals exact absurd htouched (by decide)

theorem LineBLaw.event {s t : State} {ts : List Table} (h : LineBLaw s) (hw : rosterWf s.roster = true)
    (heffect : EventEffect s ts t) : LineBLaw t := by
  intro habsent
  rw [linePresent_writes heffect.writes] at habsent
  obtain ⟨hline, hplaces⟩ := h habsent
  have hb : s.line .b = .powerOn := hline
  refine ⟨?_, nothingOnLineB_event hplaces hw heffect⟩
  show t.line .b = .powerOn
  by_cases htouched : .lines ∈ ts
  case neg => exact (heffect.writes.line .b htouched).trans hline
  obtain ⟨l, hkeeps, hquiet⟩ := heffect.keepsToLine htouched
  by_cases hl : l = .b
  · subst hl
    rw [hquiet habsent (by rw [hb]; rfl), hb]
  · rw [hkeeps.others .b (Ne.symm hl), hb]

end Sys2Proof.Machine
end

section
/-! SUPPORT. The law of the lines' collections (R138, R140, R141, R144) is kept by every step. -/

namespace Sys2Proof.Machine

/-! ## What an address stands for -/

/-- A record that is not RETIRING holds the address. -/
def StandsAt (s : State) (l : Line) (a : Nat) : Prop := ∃ n, (s.record n).at l a = true ∧ (s.record n).state ≠ .retiring

/-- A RETIRING record holds the address. -/
def RetiresAt (s : State) (l : Line) (a : Nat) : Prop := ∃ n, (s.record n).at l a = true ∧ (s.record n).state = .retiring

/-- No record holds the address. -/
def FreeAt (s : State) (l : Line) (a : Nat) : Prop := ∀ n, (s.record n).at l a = false

/-- Every address of a line stands for what it stood for. -/
structure StandingKept (l : Line) (s t : State) : Prop where
  stands : ∀ a, StandsAt s l a → StandsAt t l a
  retires : ∀ a, RetiresAt s l a → RetiresAt t l a
  free : ∀ a, FreeAt s l a → FreeAt t l a

/-- A record holds its address as another does. -/
structure Record.SameStanding (r x : Record) : Prop where
  place : x.place = r.place
  nonVacant : x.nonVacant = r.nonVacant
  retiring : x.state = .retiring ↔ r.state = .retiring

namespace Record.SameStanding

variable {r x : Record}

theorem refl (r : Record) : r.SameStanding r := ⟨rfl, rfl, Iff.rfl⟩

theorem of_state (hplace : x.place = r.place) (hstate : x.state = r.state) : r.SameStanding x :=
  ⟨hplace, by simp [Record.nonVacant, hstate], by rw [hstate]⟩

theorem of_standing (hplace : x.place = r.place) (hr : r.state ≠ .vacant ∧ r.state ≠ .retiring)
    (hx : x.state ≠ .vacant ∧ x.state ≠ .retiring) : r.SameStanding x :=
  ⟨hplace, by rw [Record.nonVacant_iff.2 hx.1, Record.nonVacant_iff.2 hr.1], iff_of_false hx.2 hr.2⟩

theorem at_eq (h : r.SameStanding x) (l : Line) (a : Nat) : x.at l a = r.at l a := by
  simp only [Record.at, h.place, h.nonVacant]

theorem changedBlind (r : Record) : ChangedBlind r.SameStanding := fun _ _ h => ⟨h.place, h.nonVacant, h.retiring⟩

theorem limited (limit : Nat) (r : Record) : r.SameStanding (limited limit r) := by
  unfold Machine.limited
  dsimp only
  split
  next h => exact .of_standing rfl (by obtain ⟨h | h | h, -⟩ := h <;> simp [h]) (by simp)
  · exact .of_state rfl rfl

theorem faultCleared (r : Record) : r.SameStanding (faultCleared r) := by
  unfold Machine.faultCleared
  split
  next h => exact .of_standing rfl (by simp [h]) (by dsimp only; split <;> simp)
  · exact .of_state rfl rfl

end Record.SameStanding

namespace StandingKept

variable {l : Line} {s t u : State}

theorem of_records (h : ∀ n, (s.record n).SameStanding (t.record n)) : StandingKept l s t where
  stands := fun _ ⟨n, hat, hst⟩ => ⟨n, by rw [(h n).at_eq, hat], fun e => hst ((h n).retiring.1 e)⟩
  retires := fun _ ⟨n, hat, hst⟩ => ⟨n, by rw [(h n).at_eq, hat], (h n).retiring.2 hst⟩
  free := fun _ hfree n => by rw [(h n).at_eq, hfree n]

theorem of_roster (h : t.roster = s.roster) : StandingKept l s t :=
  of_records fun n => by rw [record_of_roster h]; exact .refl _

theorem refl (s : State) : StandingKept l s s := of_roster rfl

theorem trans (h : StandingKept l s t) (k : StandingKept l t u) : StandingKept l s u :=
  ⟨fun a ha => k.stands a (h.stands a ha), fun a ha => k.retires a (h.retires a ha), fun a ha => k.free a (h.free a ha)⟩

theorem rewrite (hw : rosterWf s.roster = true) {n : Nat} {x : Record} (hx : (s.record n).SameStanding x)
    (ht : t.roster = (s.setRecord n x).roster) : StandingKept l s t := of_records fun k => by
  rw [record_of_roster ht]
  by_cases hk : k = n
  · subst hk
    by_cases hn : k < 512
    · rw [State.record_setRecord_self hw hn]; exact hx
    · rw [State.setRecord_of_ge hn]; exact .refl _
  · rw [State.record_setRecord_of_ne hw n x hk]; exact .refl _

/-- R71: a record that is moved holds its address in its new slot. -/
theorem move (hw : rosterWf s.roster = true) {n k : Nat} (hn : n < 512) (hk : k < 512)
    (hfull : (s.record n).state ≠ .vacant) (hvacant : (s.record k).nonVacant = false)
    (ht : t.roster = ((s.setRecord k (s.record n)).setRecord n (.vacant false)).roster) : StandingKept l s t := by
  have hne : k ≠ n := fun e => by
    rw [e, Record.nonVacant_iff.2 hfull] at hvacant
    cases hvacant
  have hw' := rosterWf_setRecord hw k (s.record n)
  have hrecord : ∀ j, t.record j = if j = n then .vacant false else if j = k then s.record n else s.record j := fun j => by
    rw [record_of_roster ht, State.record_setRecord hw' hn, State.record_setRecord hw hk]
    simp only [eq_comm]
  have found : ∀ a j, (s.record j).at l a = true → ∃ i, t.record i = s.record j := fun a j hat => by
    by_cases hj : j = n
    · exact ⟨k, by rw [hrecord, if_neg hne, if_pos rfl, hj]⟩
    · refine ⟨j, ?_⟩
      have hjk : j ≠ k := fun e => by
        have := (Record.at_iff.1 hat).1
        rw [e, hvacant] at this
        cases this
      rw [hrecord, if_neg hj, if_neg hjk]
  refine ⟨fun a ⟨j, hat, hst⟩ => ?_, fun a ⟨j, hat, hst⟩ => ?_, fun a hfree j => ?_⟩
  · obtain ⟨i, hi⟩ := found a j hat
    exact ⟨i, by rw [hi, hat], by rw [hi]; exact hst⟩
  · obtain ⟨i, hi⟩ := found a j hat
    exact ⟨i, by rw [hi, hat], by rw [hi, hst]⟩
  · rw [hrecord]
    split
    · rfl
    · split
      · exact hfree n
      · exact hfree j

end StandingKept

/-! ## The law of one line's collections -/

/-- R126: the address that a FORGET is on the line for. -/
def LineState.forgetting (st : LineState) : List Nat := { LineCtl.powerOn with state := st }.forgets

/-- R140: the addresses that an admin queue has a FORGET for. -/
def forgetsIn (admin : List AdminEntry) : List Nat := (admin.filter fun e => e.kind == .forget).map (·.address)

/-- R138, R140, R141, R144: CollectionsLaw of one line controller, for given standing of the addresses and the addresses that a
FORGET is on the line for. -/
structure Collected (stands retires free : Nat → Prop) (flight : List Nat) (c : LineCtl) : Prop where
  service : c.service.length ≤ 32 ∧ c.service.Nodup
  serves : ∀ a ∈ c.service, stands a
  admin : c.admin.length ≤ 16 ∧ c.admin.Nodup
  forgets : (flight ++ forgetsIn c.admin).Nodup
  forgotten : ∀ a ∈ flight ++ forgetsIn c.admin, retires a
  strays : c.strays.length ≤ 8 ∧ (c.strays.map (·.address)).Nodup
  strange : ∀ e ∈ c.strays, e.address ∉ c.ignored ∧ free e.address
  ignored : c.ignored.length ≤ 8 ∧ c.ignored.Nodup

/-- The collections of a line, while a FORGET for the given addresses is on it. -/
def CollectedOn (s : State) (l : Line) (flight : List Nat) (c : LineCtl) : Prop :=
  Collected (StandsAt s l) (RetiresAt s l) (FreeAt s l) flight c

theorem LineCtl.forgets_eq (c : LineCtl) :
    c.forgets = c.state.forgetting ++ forgetsIn c.admin := by
  unfold LineState.forgetting LineCtl.forgets forgetsIn
  simp [LineCtl.powerOn]

theorem collectionsLaw_iff {s : State} {l : Line} :
    CollectionsLaw s l ↔ CollectedOn s l (s.line l).state.forgetting (s.line l) := by
  unfold CollectionsLaw
  dsimp only
  rw [LineCtl.forgets_eq]
  constructor
  · rintro ⟨⟨h1, h2, h3⟩, h4, ⟨h5, h6⟩, ⟨h7, h8, h9⟩, h10⟩
    exact ⟨⟨h1, h2⟩, h3, h4, h5, h6, ⟨h7, h8⟩, h9, h10⟩
  · rintro ⟨⟨h1, h2⟩, h3, h4, h5, h6, ⟨h7, h8⟩, h9, h10⟩
    exact ⟨⟨h1, h2, h3⟩, h4, ⟨h5, h6⟩, ⟨h7, h8, h9⟩, h10⟩

theorem forgetting_of_not_forget {x : Exchange} (h : x.frame ≠ .forget) : (LineState.busy x).forgetting = [] := by
  simp [LineState.forgetting, LineCtl.forgets, LineCtl.powerOn, h]

theorem forgetting_of_forget {x : Exchange} (h : x.frame = .forget) : (LineState.busy x).forgetting = [x.address] := by
  simp [LineState.forgetting, LineCtl.forgets, LineCtl.powerOn, h]

theorem mem_forgetsIn {admin : List AdminEntry} {a : Nat} :
    a ∈ forgetsIn admin ↔ { kind := .forget, address := a } ∈ admin := by
  simp only [forgetsIn, List.mem_map, List.mem_filter, beq_iff_eq]
  constructor
  · rintro ⟨⟨k, b⟩, ⟨he, hk⟩, rfl⟩
    obtain rfl : k = .forget := hk
    exact he
  · exact fun h => ⟨_, ⟨h, rfl⟩, rfl⟩

theorem forgetsIn_sublist {xs ys : List AdminEntry} (h : xs.Sublist ys) : (forgetsIn xs).Sublist (forgetsIn ys) :=
  (h.filter _).map _

theorem forgetsIn_identify (xs : List AdminEntry) (a : Nat) :
    forgetsIn (xs ++ [{ kind := .identify, address := a }]) = forgetsIn xs := by
  simp [forgetsIn, List.filter_append]

theorem forgetsIn_forget (xs : List AdminEntry) (a : Nat) :
    forgetsIn (xs ++ [{ kind := .forget, address := a }]) = forgetsIn xs ++ [a] := by
  simp [forgetsIn, List.filter_append]

theorem nodup_append_singleton {α : Type} {xs : List α} {a : α} (h : xs.Nodup) (ha : a ∉ xs) : (xs ++ [a]).Nodup :=
  List.nodup_append.2 ⟨h, List.nodup_singleton a, fun x hx y hy e => ha (by rwa [← List.mem_singleton.1 hy, ← e])⟩

namespace Collected

variable {stands retires free stands' retires' free' : Nat → Prop} {flight : List Nat} {c : LineCtl}

theorem mono (h : Collected stands retires free flight c) (hs : ∀ a ∈ c.service, stands a → stands' a)
    (hr : ∀ a, retires a → retires' a) (hf : ∀ e ∈ c.strays, free e.address → free' e.address) :
    Collected stands' retires' free' flight c :=
  { h with
    serves := fun a ha => hs a ha (h.serves a ha)
    forgotten := fun a ha => hr a (h.forgotten a ha)
    strange := fun e he => ⟨(h.strange e he).1, hf e he (h.strange e he).2⟩ }

/-- The other fields of a controller have no part in the law. -/
theorem congr {d : LineCtl} (h : Collected stands retires free flight c) (hs : d.service = c.service) (ha : d.admin = c.admin)
    (ht : d.strays = c.strays) (hi : d.ignored = c.ignored) : Collected stands retires free flight d := by
  obtain ⟨h1, h2, h3, h4, h5, h6, h7, h8⟩ := h
  exact ⟨hs ▸ h1, hs ▸ h2, ha ▸ h3, ha ▸ h4, ha ▸ h5, ht ▸ h6, hi ▸ ht ▸ h7, hi ▸ h8⟩

theorem empty (stands retires free : Nat → Prop) {c : LineCtl} (hs : c.service = []) (ha : c.admin = []) (ht : c.strays = [])
    (hi : c.ignored = []) : Collected stands retires free [] c := by
  refine ⟨?_, ?_, ?_, ?_, ?_, ?_, ?_, ?_⟩ <;> simp [hs, ha, ht, hi, forgetsIn]

theorem setService (h : Collected stands retires free flight c) {xs : List Nat} (hxs : xs.length ≤ 32 ∧ xs.Nodup)
    (hstands : ∀ a ∈ xs, stands a) : Collected stands retires free flight { c with service := xs } :=
  { h with service := hxs, serves := hstands }

theorem filterService (h : Collected stands retires free flight c) (f : Nat → Bool) :
    Collected stands retires free flight { c with service := c.service.filter f } :=
  h.setService ⟨(List.length_filter_le ..).trans h.service.1, h.service.2.filter f⟩
    fun a ha => h.serves a (List.mem_filter.1 ha).1

theorem offered (h : Collected stands retires free flight c) {a : Nat} (ha : stands a) :
    Collected stands retires free flight { c with service := offered c.service a } := by
  refine h.setService ?_ fun b hb => ?_
  · unfold Machine.offered
    split
    · exact h.service
    next hnew =>
      simp only [List.contains_eq_mem, decide_eq_true_eq, not_or, not_le] at hnew
      obtain ⟨hnew, hroom⟩ := hnew
      refine ⟨?_, nodup_append_singleton h.service.2 hnew⟩
      rw [List.length_append]
      exact hroom
  · unfold Machine.offered at hb
    split at hb
    · exact h.serves b hb
    · obtain hb | hb := List.mem_append.1 hb
      · exact h.serves b hb
      · exact List.mem_singleton.1 hb ▸ ha

theorem setAdmin (h : Collected stands retires free flight c) {xs : List AdminEntry} (hxs : xs.length ≤ 16 ∧ xs.Nodup)
    (hforgets : (forgetsIn xs).Sublist (forgetsIn c.admin)) :
    Collected stands retires free flight { c with admin := xs } :=
  { h with
    admin := hxs
    forgets := h.forgets.sublist ((List.Sublist.refl flight).append hforgets)
    forgotten := fun a ha => h.forgotten a (((List.Sublist.refl flight).append hforgets).mem ha) }

theorem filterAdmin (h : Collected stands retires free flight c) (f : AdminEntry → Bool) :
    Collected stands retires free flight { c with admin := c.admin.filter f } :=
  h.setAdmin ⟨(List.length_filter_le ..).trans h.admin.1, h.admin.2.filter f⟩ (forgetsIn_sublist List.filter_sublist)

theorem queuedIdentify (h : Collected stands retires free flight c) (a : Nat) :
    Collected stands retires free flight { c with admin := queuedIdentify c.admin a } := by
  unfold Machine.queuedIdentify
  dsimp only
  split
  · exact h
  next hnew =>
    simp only [List.contains_eq_mem, decide_eq_true_eq, not_or, not_le] at hnew
    obtain ⟨hnew, hroom⟩ := hnew
    refine h.setAdmin ⟨?_, nodup_append_singleton h.admin.2 hnew⟩ (by rw [forgetsIn_identify])
    rw [List.length_append]
    exact hroom

/-- R73: the standing address of the line becomes RETIRING. -/
theorem retiredLine {a : Nat} (h : Collected stands retires free flight c) (hroom : c.admin.length < 16)
    (hs : ∀ b, b ≠ a → stands b → stands' b) (hr : ∀ b, retires b → retires' b) (ha : retires' a) (hnot : ¬ retires a)
    (hf : ∀ b, free b → free' b) : Collected stands' retires' free' flight (retiredLine c a) := by
  have hnew : a ∉ flight ++ forgetsIn c.admin := fun hin => hnot (h.forgotten a hin)
  have served := (h.filterService fun b => b != a).mono (stands' := stands') (free' := free')
    (fun b hb => hs b (by simpa using (List.mem_filter.1 hb).2)) hr fun e _ => hf e.address
  have hsub : (withoutIdentify c.admin a).Sublist c.admin := List.filter_sublist
  have hforgets := (List.Sublist.refl flight).append (forgetsIn_sublist hsub)
  refine
    { served with
      admin := ⟨?_, nodup_append_singleton (h.admin.2.sublist hsub) fun hin => ?_⟩
      forgets := ?_
      forgotten := fun b hb => ?_ }
  · show (withoutIdentify c.admin a ++ [_]).length ≤ 16
    rw [List.length_append]
    exact Nat.succ_le_of_lt (lt_of_le_of_lt hsub.length_le hroom)
  · exact hnew (List.mem_append_right _ (mem_forgetsIn.2 (hsub.mem hin)))
  · show (flight ++ forgetsIn (withoutIdentify c.admin a ++ [_])).Nodup
    rw [forgetsIn_forget, ← List.append_assoc]
    exact nodup_append_singleton (h.forgets.sublist hforgets) fun hin => hnew (hforgets.mem hin)
  · have hb : b ∈ flight ++ forgetsIn (withoutIdentify c.admin a ++ [_]) := hb
    rw [forgetsIn_forget, ← List.append_assoc] at hb
    obtain hb | hb := List.mem_append.1 hb
    · exact hr b (h.forgotten b (hforgets.mem hb))
    · exact List.mem_singleton.1 hb ▸ ha

theorem filterStrays (h : Collected stands retires free flight c) (f : Stray → Bool) :
    Collected stands retires free flight { c with strays := c.strays.filter f } :=
  { h with
    strays := ⟨(List.length_filter_le ..).trans h.strays.1, h.strays.2.sublist (List.filter_sublist.map _)⟩
    strange := fun e he => h.strange e (List.mem_filter.1 he).1 }

theorem filterIgnored (h : Collected stands retires free flight c) (f : Nat → Bool) :
    Collected stands retires free flight { c with ignored := c.ignored.filter f } :=
  { h with
    strange := fun e he => ⟨fun hin => (h.strange e he).1 (List.mem_filter.1 hin).1, (h.strange e he).2⟩
    ignored := ⟨(List.length_filter_le ..).trans h.ignored.1, h.ignored.2.filter f⟩ }

theorem mapStrays (h : Collected stands retires free flight c) {f : Stray → Stray} (hf : ∀ e, (f e).address = e.address) :
    Collected stands retires free flight { c with strays := c.strays.map f } :=
  { h with
    strays := ⟨by rw [List.length_map]; exact h.strays.1, by
      rw [List.map_map, show (fun e : Stray => e.address) ∘ f = fun e => e.address from funext hf]
      exact h.strays.2⟩
    strange := fun e he => by
      obtain ⟨e', he', rfl⟩ := List.mem_map.1 he
      rw [hf]
      exact h.strange e' he' }

theorem addStray (h : Collected stands retires free flight c) {a : Nat} (hroom : c.strays.length < 8)
    (hnew : c.hasStray a = false) (hignored : a ∉ c.ignored) (hfree : free a) :
    Collected stands retires free flight { c with strays := c.strays ++ [.unfilled a] } := by
  refine { h with strays := ⟨by simpa using hroom, ?_⟩, strange := fun e he => ?_ }
  · rw [List.map_append]
    refine nodup_append_singleton h.strays.2 fun hin => ?_
    obtain ⟨e, he, hea⟩ := List.mem_map.1 hin
    have hany : c.hasStray a = true := List.any_eq_true.2 ⟨e, he, beq_iff_eq.2 hea⟩
    rw [hnew] at hany
    cases hany
  · obtain he | he := List.mem_append.1 he
    · exact h.strange e he
    · rw [List.mem_singleton.1 he]
      exact ⟨hignored, hfree⟩

/-- R147: an address leaves the strays for the ignore set. -/
theorem rejected (h : Collected stands retires free flight c) {a : Nat} (hstray : c.hasStray a = true) :
    Collected stands retires free flight
      { c with
        strays := c.strays.filter fun e => e.address != a
        admin := withoutIdentify c.admin a
        ignored := ignoredWith c.ignored a } := by
  have hnew : a ∉ c.ignored := by
    obtain ⟨e, he, hea⟩ := List.any_eq_true.1 hstray
    obtain rfl : e.address = a := by simpa using hea
    exact (h.strange e he).1
  have kept := (h.filterStrays fun e => e.address != a).filterAdmin fun e => e != { kind := .identify, address := a }
  have hmem : ∀ b ∈ ignoredWith c.ignored a, b ∈ c.ignored ∨ b = a := fun b hb => by
    unfold ignoredWith at hb
    split at hb <;> obtain hb | hb := List.mem_append.1 hb
    · exact .inl (List.mem_of_mem_drop hb)
    · exact .inr (List.mem_singleton.1 hb)
    · exact .inl hb
    · exact .inr (List.mem_singleton.1 hb)
  have appended : ∀ xs : List Nat, xs.Sublist c.ignored → (xs ++ [a]).Nodup := fun xs hxs =>
    nodup_append_singleton (h.ignored.2.sublist hxs) fun hin => hnew (hxs.mem hin)
  refine { kept with strange := fun e he => ⟨fun hin => ?_, (kept.strange e he).2⟩, ignored := ?_ }
  · obtain hin | hin := hmem _ hin
    · exact (kept.strange e he).1 hin
    · have := (List.mem_filter.1 he).2
      simp [hin] at this
  · show (ignoredWith c.ignored a).length ≤ 8 ∧ (ignoredWith c.ignored a).Nodup
    have hle := h.ignored.1
    unfold ignoredWith
    split
    next hfull =>
      refine ⟨?_, appended _ (List.drop_sublist ..)⟩
      rw [List.length_append, List.length_drop]
      have : (8 : Nat) ≤ c.ignored.length := hfull
      simp only [List.length_singleton]
      omega
    next hroom =>
      refine ⟨?_, appended _ (List.Sublist.refl _)⟩
      have : ¬ (8 : Nat) ≤ c.ignored.length := hroom
      rw [List.length_append]
      simp only [List.length_singleton]
      omega

/-- R128: the head of the admin queue goes on the line. -/
theorem grantAdmin (h : Collected stands retires free [] c) {e : AdminEntry} {rest : List AdminEntry}
    (hqueue : c.admin = e :: rest) (st : LineState) (count : Nat) :
    Collected stands retires free (begun e.kind.frame e.address .admin).forgetting
      { c with state := st, admin := rest, fairness := count } := by
  obtain ⟨hlen, hnodup⟩ := h.admin
  have hforgets := h.forgets
  have hforgotten := h.forgotten
  rw [hqueue] at hlen hnodup hforgets hforgotten
  have heq : (begun e.kind.frame e.address .admin).forgetting ++ forgetsIn rest = [] ++ forgetsIn (e :: rest) := by
    unfold begun forgetsIn
    cases hk : e.kind
    · rw [forgetting_of_not_forget (by simp [AdminKind.frame])]
      simp [hk]
    · rw [forgetting_of_forget (by simp [AdminKind.frame])]
      simp [hk]
  exact
    { h with
      admin := ⟨by simp only [List.length_cons] at hlen; exact (Nat.le_succ _).trans hlen, (List.nodup_cons.1 hnodup).2⟩
      forgets := by rw [heq]; exact hforgets
      forgotten := by rw [heq]; exact hforgotten }

end Collected

end Sys2Proof.Machine
end

section
/-! SUPPORT. The laws of the lines through every command and event (R99, R113, R119, R138 to R144). -/

namespace Sys2Proof.Machine

variable {s t : State}

/-! ## The collections of a line from one state to the next -/

theorem CollectedOn.kept {l : Line} {flight : List Nat} {c : LineCtl} (h : CollectedOn s l flight c)
    (ht : StandingKept l s t) : CollectedOn t l flight c :=
  h.mono (fun a _ => ht.stands a) ht.retires fun e _ => ht.free e.address

/-- A FORGET is off the line. -/
theorem Collected.landed {stands retires free : Nat → Prop} {flight : List Nat} {c : LineCtl}
    (h : Collected stands retires free flight c) : Collected stands retires free [] c :=
  { h with
    forgets := (List.nodup_append.1 h.forgets).2.1
    forgotten := fun a ha => h.forgotten a (List.mem_append_right _ ha) }

theorem collectionsLaw_of_kept {k : Line} (h : CollectionsLaw s k) (hline : t.line k = s.line k)
    (hstanding : StandingKept k s t) : CollectionsLaw t k := by
  rw [collectionsLaw_iff] at h ⊢
  rw [hline]
  exact h.kept hstanding

theorem reads_collectionsLaw (l : Line) : Reads [.roster, .lines] (CollectionsLaw · l) := fun s t _ _ hsame h => by
  obtain ⟨ha, hb⟩ := Prod.mk.inj (hsame .lines (by decide))
  refine collectionsLaw_of_kept h ?_ (.of_roster (hsame .roster (by decide)))
  cases l
  · exact ha
  · exact hb

/-! ## Commands -/

/-- R66: a slot that is filled takes its address from the free ones, and leaves what the others stand for. -/
theorem standing_fillSlot (hw : rosterWf s.roster = true) {x : Admission} (capability : Option Bool) (lmin : Nat)
    (hpassed : x.Passed s) (l : Line) :
    (∀ a, StandsAt s l a → StandsAt (fillSlot x capability lmin s) l a)
      ∧ (∀ a, RetiresAt s l a → RetiresAt (fillSlot x capability lmin s) l a)
      ∧ ∀ a, x.place ≠ ⟨l, a⟩ → FreeAt s l a → FreeAt (fillSlot x capability lmin s) l a := by
  have hrecord : ∀ n, (fillSlot x capability lmin s).record n
      = if x.slot = n then admittedRecord x capability lmin else s.record n := fun n => by
    rw [record_of_roster (roster_fillSlot x capability lmin s), State.record_setRecord hw hpassed.slot_lt]
  have hkept : ∀ n a, (s.record n).at l a = true → (fillSlot x capability lmin s).record n = s.record n := fun n a hat => by
    rw [hrecord, if_neg]
    rintro rfl
    have hv := hpassed.vacant
    rw [(Record.at_iff.1 hat).1] at hv
    cases hv
  refine ⟨fun a ⟨n, hat, hst⟩ => ⟨n, ?_⟩, fun a ⟨n, hat, hst⟩ => ⟨n, ?_⟩, fun a hne hfree n => ?_⟩
  · rw [hkept n a hat]; exact ⟨hat, hst⟩
  · rw [hkept n a hat]; exact ⟨hat, hst⟩
  · rw [hrecord]
    split
    · rw [Bool.eq_false_iff]
      intro hat
      exact hne (Option.some.inj (Record.at_iff.1 hat).2)
    · exact hfree n

/-- R73: a record that becomes RETIRING. -/
theorem standing_retireRecord (hw : rosterWf s.roster = true) {n : Nat} {q : Place} (hn : n < 512)
    (hfull : (s.record n).state ≠ .vacant) (hretiring : (s.record n).state ≠ .retiring)
    (hplace : (s.record n).place = some q) (l : Line) :
    (∀ a, q ≠ ⟨l, a⟩ → StandsAt s l a → StandsAt (retireRecord n q s) l a)
      ∧ (∀ a, RetiresAt s l a → RetiresAt (retireRecord n q s) l a)
      ∧ RetiresAt (retireRecord n q s) q.line q.address
      ∧ ∀ a, FreeAt s l a → FreeAt (retireRecord n q s) l a := by
  have hrecord : ∀ k, (retireRecord n q s).record k
      = if n = k then { s.record n with state := .retiring } else s.record k := fun k => by
    rw [record_of_roster (roster_retireRecord n q s), State.record_setRecord hw hn]
  refine ⟨fun a hne ⟨k, hat, hst⟩ => ⟨k, ?_⟩, fun a ⟨k, hat, hst⟩ => ⟨k, ?_⟩, ⟨n, ?_⟩, fun a hfree k => ?_⟩
  · rw [hrecord, if_neg]
    · exact ⟨hat, hst⟩
    · rintro rfl
      have := (Record.at_iff.1 hat).2
      rw [hplace] at this
      exact hne (Option.some.inj this)
  · rw [hrecord, if_neg]
    · exact ⟨hat, hst⟩
    · rintro rfl
      exact hretiring hst
  · rw [hrecord, if_pos rfl]
    exact ⟨Record.at_iff.2 ⟨rfl, hplace⟩, rfl⟩
  · rw [hrecord]
    split
    next h =>
      subst h
      have := hfree n
      rw [Record.at, Record.nonVacant_iff.2 hfull] at this
      exact this
    · exact hfree k

theorem not_retiresAt_of_stands (hlaw : RosterLaw s) {n : Nat} {q : Place} (hfull : (s.record n).state ≠ .vacant)
    (hretiring : (s.record n).state ≠ .retiring) (hplace : (s.record n).place = some q) :
    ¬ RetiresAt s q.line q.address := by
  rintro ⟨k, hat, hst⟩
  obtain ⟨hv, hk⟩ := Record.at_iff.1 hat
  have hkn : k = n := by
    obtain ⟨-, -, hunique, -⟩ := hlaw
    exact hunique k n hv (Record.nonVacant_iff.2 hfull) (.inl (hk.trans hplace.symm))
  exact hretiring (hkn ▸ hst)

theorem collectionsLaw_command {ts : List Table} (h : ∀ l, CollectionsLaw s l) (hlaw : RosterLaw s)
    (heffect : CommandEffect s ts t) (htouched : ∃ x ∈ ts, x ∈ [Table.roster, .lines]) (k : Line) :
    CollectionsLaw t k := by
  have hw : rosterWf s.roster = true := hlaw.1
  have own := collectionsLaw_iff.1 (h k)
  cases heffect
  case restart =>
    rw [collectionsLaw_iff, line_restart]
    exact Collected.empty _ _ _ rfl rfl rfl rfl
  case admission x capability lmin hpassed _ =>
    obtain ⟨hstands, hretires, hfree⟩ := standing_fillSlot hw capability lmin hpassed k
    rw [collectionsLaw_iff, line_fillSlot]
    split
    next hline =>
      refine ((own.filterStrays _).filterIgnored _).mono (fun a _ => hstands a) hretires fun e he => hfree e.address ?_
      rintro hplace
      have := (List.mem_filter.1 he).2
      rw [hplace] at this
      simp at this
    next hline =>
      exact own.mono (fun a _ => hstands a) hretires fun e _ => hfree e.address fun e => hline (by rw [e])
  case amend n x m override pinned uid _ =>
    exact collectionsLaw_of_kept (h k) ((Writes.of_setRecord (ts := [.roster]) ..).line k)
      (.rewrite hw (x := amended x m override pinned uid (s.record n)) (.of_state rfl rfl) rfl)
  case amendAsking n x m override pinned uid _ =>
    refine collectionsLaw_of_kept (h k) ?_ (.rewrite hw (x := amended x m override pinned uid (s.record n))
      (.of_state rfl rfl) (roster_requestForSlot n _))
    rw [(onlySweeps_requestForSlot ..).line, (Writes.of_setRecord (ts := [.roster]) ..).line]
  case move n j hn hj hfull hretiring hplan hvacant =>
    exact collectionsLaw_of_kept (h k) ((CommandEffect.move n j hn hj hfull hretiring hplan hvacant).writes.line k)
      (.move hw hn hj hfull hvacant (roster_moveRecord n j s))
  case retire n q hn hfull hretiring hplace hroom =>
    obtain ⟨hstands, hretires, hretired, hfree⟩ := standing_retireRecord hw hn hfull hretiring hplace k
    rw [collectionsLaw_iff, line_retireRecord]
    split
    next hline =>
      subst hline
      exact own.retiredLine hroom (fun b hb => hstands b fun e => hb (by rw [e])) hretires hretired
        (not_retiresAt_of_stands hlaw hfull hretiring hplace) hfree
    next hline =>
      exact own.mono (fun a _ => hstands a fun e => hline (by rw [e])) hretires fun e _ => hfree e.address
  case clearFault n hn hfull hretiring =>
    exact collectionsLaw_of_kept (h k) ((CommandEffect.clearFault n hn hfull hretiring).writes.line k)
      (.rewrite hw (.faultCleared _) (roster_clearFaultOf n s))
  case readRecord n _ =>
    exact collectionsLaw_of_kept (h k) ((Writes.of_setRecord (ts := [.roster]) ..).line k)
      (.rewrite hw (x := { s.record n with changed := false }) (.of_state rfl rfl) rfl)
  case setLine l limit _ _ =>
    have standing : StandingKept k s (applyLimit l limit s) := .of_records fun n => by
      rw [record_applyLimit hw]
      split
      · exact .limited ..
      · exact .refl _
    rw [collectionsLaw_iff, line_applyLimit]
    split
    next hl => subst hl; exact (own.kept standing).congr rfl rfl rfl rfl
    · exact own.kept standing
  case rejectStray l a hpresent haddress hstray =>
    have standing : StandingKept k s (rejectStray l a s) :=
      .of_roster (CommandEffect.rejectStray l a hpresent haddress hstray).writes.roster
    rw [collectionsLaw_iff, line_rejectStray]
    split
    next hl => subst hl; exact Collected.rejected (own.kept standing) hstray
    · exact own.kept standing
  case clearIgnore l hpresent =>
    have standing : StandingKept k s (s.setLine l { s.line l with ignored := [] }) :=
      .of_roster (CommandEffect.clearIgnore l hpresent).writes.roster
    rw [collectionsLaw_iff, State.line_setLine]
    split
    next hl =>
      subst hl
      exact { own.kept standing with
        strange := fun e he => ⟨List.not_mem_nil, ((own.kept standing).strange e he).2⟩
        ignored := ⟨by simp, List.nodup_nil⟩ }
    · exact own.kept standing
  all_goals exact absurd htouched (by decide)

/-! ## Phases and grants -/

theorem forgetting_begun_of_ne {f : LineFrame} (h : f ≠ .forget) (a : Nat) (o : Origin) : (begun f a o).forgetting = [] :=
  forgetting_of_not_forget h

/-- A controller whose state changes while no FORGET goes on the line or off it. -/
theorem collectionsLaw_setState {l : Line} {st : LineState} (h : ∀ l, CollectionsLaw s l)
    (hst : st.forgetting = (s.line l).state.forgetting) (k : Line) :
    CollectionsLaw (s.setLine l { s.line l with state := st }) k := by
  have standing : StandingKept k s (s.setLine l { s.line l with state := st }) := .of_roster (State.setLine_roster ..)
  have own := (collectionsLaw_iff.1 (h k)).kept standing
  rw [collectionsLaw_iff, State.line_setLine]
  split
  next hl =>
    subst hl
    show CollectedOn _ l st.forgetting { s.line l with state := st }
    rw [hst]
    exact own.congr rfl rfl rfl rfl
  · exact own

theorem collectionsLaw_withPhase (h : ∀ l, CollectionsLaw s l) (l : Line) (f : Phase → Phase) (k : Line) :
    CollectionsLaw (withPhase l f s) k := by
  unfold withPhase
  split
  next x hbusy =>
    refine collectionsLaw_setState h ?_ k
    rw [hbusy]
    rfl
  · exact h k
  · exact h k

theorem collectionsLaw_quietEnded (h : ∀ l, CollectionsLaw s l) (l k : Line) : CollectionsLaw (quietEnded l s) k := by
  unfold quietEnded
  split
  next hquiet =>
    split
    · refine collectionsLaw_setState h ?_ k
      rw [hquiet]
      rfl
    · exact h k
  · exact h k
  · exact h k

/-- A grant to a cursor, apart from the sweep. -/
theorem collectionsLaw_servedCursor (h : ∀ l, CollectionsLaw s l) {u : State}
    (hlines : ∀ l, u.line l = s.line l) (hroster : ∀ l, StandingKept l s u) {l : Line} (hidle : (s.line l).state = .idle)
    (cls : SweepClass) (p : Fin 4) {f : LineFrame} (hf : f ≠ .forget) (a : Nat) (o : Origin) (k : Line) :
    CollectionsLaw (u.setLine l ((s.line l).servedCursor cls p (begun f a o))) k := by
  have standing : StandingKept k s (u.setLine l ((s.line l).servedCursor cls p (begun f a o))) :=
    (hroster k).trans (.of_roster (State.setLine_roster ..))
  have own := (collectionsLaw_iff.1 (h k)).kept standing
  rw [collectionsLaw_iff, State.line_setLine]
  split
  next hl =>
    subst hl
    have hstate : ((s.line l).servedCursor cls p (begun f a o)).state = begun f a o := by cases cls <;> rfl
    rw [hstate, forgetting_begun_of_ne hf]
    rw [hidle] at own
    cases cls <;> exact Collected.congr own rfl rfl rfl rfl
  · rw [hlines]; exact own

theorem collectionsLaw_cursorGranted {l : Line} {p : Fin 4} {n : Nat} {k : Line} (h : CollectionsLaw s k) :
    CollectionsLaw (cursorGranted p l n s) k :=
  collectionsLaw_of_kept h ((writes_cursorGranted ..).line k) (.of_roster (roster_cursorGranted ..))

theorem collectionsLaw_grantTo (h : ∀ l, CollectionsLaw s l) (hw : rosterWf s.roster = true) {l : Line}
    (hidle : (s.line l).state = .idle) {g : Grantee} (hg : Grantable s l g) (k : Line) :
    CollectionsLaw (grantTo l g s) k := by
  cases hg
  case cursor cls p n hwaits =>
    show CollectionsLaw (grantCursor l cls p n s) k
    cases hframe : (s.record n).sweepFrame with
    | none =>
      have : grantCursor l cls p n s = s := by unfold grantCursor; simp only [hframe]
      rw [this]
      exact h k
    | some f =>
      cases f
      · rw [grantCursor_of_identify hframe]
        exact collectionsLaw_cursorGranted (collectionsLaw_servedCursor h (fun _ => rfl) (fun _ => .refl s) hidle cls p
          (by simp) _ _ k)
      · rw [grantCursor_of_level hframe]
        have sent : ∀ l, (s.setRecord n { s.record n with lastSent := some (levelOfSlot s n) }).line l = s.line l :=
          fun l => (Writes.of_setRecord (ts := [.roster]) ..).line l
        exact collectionsLaw_cursorGranted (collectionsLaw_servedCursor h sent
          (fun _ => .rewrite hw (x := { s.record n with lastSent := some (levelOfSlot s n) }) (.of_state rfl rfl) rfl)
          hidle cls p (by simp) _ _ k)
  case admin e rest hqueue =>
    have standing : StandingKept k s (grantTo l (.admin e rest) s) := .of_roster (State.setLine_roster ..)
    have own := (collectionsLaw_iff.1 (h k)).kept standing
    rw [collectionsLaw_iff]
    unfold grantTo
    dsimp only
    rw [State.line_setLine]
    split
    next hl =>
      subst hl
      rw [hidle] at own
      exact Collected.grantAdmin own hqueue _ _
    · exact own
  case service a rest hset =>
    have standing : StandingKept k s (grantTo l (.service a rest) s) := .of_roster (State.setLine_roster ..)
    have own := (collectionsLaw_iff.1 (h k)).kept standing
    rw [collectionsLaw_iff]
    unfold grantTo
    dsimp only
    rw [State.line_setLine]
    split
    next hl =>
      subst hl
      rw [hidle] at own
      obtain ⟨hlen, hnodup⟩ := own.service
      rw [hset] at hlen hnodup
      refine Collected.congr (Collected.setService own (xs := rest) ⟨(Nat.le_succ _).trans hlen, (List.nodup_cons.1 hnodup).2⟩
        fun b hb => own.serves b (hset ▸ List.mem_cons_of_mem a hb)) rfl rfl rfl rfl
    · exact own

theorem collectionsLaw_arbiterGrant (h : ∀ l, CollectionsLaw s l) (hw : rosterWf s.roster = true) (l k : Line) :
    CollectionsLaw (arbiterGrant l s) k := by
  unfold arbiterGrant
  split
  next hidle =>
    split
    · exact h k
    next g hg => exact collectionsLaw_grantTo h hw hidle (grantable_of_chooseGrantee hg) k
  · exact h k
  · exact h k

end Sys2Proof.Machine
end

section
/-! SUPPORT. The law of the lines' collections through a completion, and every step (R118, R126, R134 to R137). -/

namespace Sys2Proof.Machine

variable {s t : State}

/-! ## The result applied (R118, R126, R142) -/

/-- R126: a record that a FORGET vacates takes its own address from the RETIRING ones, and no other. -/
theorem standing_vacated (hlaw : RosterLaw s) {n : Nat} {l : Line} {a : Nat} (hat : (s.record n).at l a = true)
    (hretiring : (s.record n).state = .retiring) (ht : t.roster = (s.setRecord n (.vacant true)).roster) (k : Line) :
    (∀ b, StandsAt s k b → StandsAt t k b) ∧ (∀ b, (⟨k, b⟩ : Place) ≠ ⟨l, a⟩ → RetiresAt s k b → RetiresAt t k b)
      ∧ ∀ b, FreeAt s k b → FreeAt t k b := by
  have hn := State.lt_of_nonVacant hlaw.1 (Record.at_iff.1 hat).1
  have hrecord : ∀ j, t.record j = if n = j then .vacant true else s.record j := fun j => by
    rw [record_of_roster ht, State.record_setRecord hlaw.1 hn]
  refine ⟨fun b ⟨j, hj, hst⟩ => ⟨j, ?_⟩, fun b hne ⟨j, hj, hst⟩ => ⟨j, ?_⟩, fun b hfree j => ?_⟩
  · rw [hrecord, if_neg]
    · exact ⟨hj, hst⟩
    · rintro rfl
      exact hst hretiring
  · rw [hrecord, if_neg]
    · exact ⟨hj, hst⟩
    · rintro rfl
      exact hne (Option.some.inj ((Record.at_iff.1 hj).2.symm.trans (Record.at_iff.1 hat).2))
  · rw [hrecord]
    split
    · rfl
    · exact hfree j

/-- A reply leaves its record's address standing. -/
theorem standing_replied (hlaw : RosterLaw s) {l k : Line} {x : Exchange} {reply : Option DriverReply} {n : Nat}
    (hlookup : s.lookup l x.address = some n) (hstands : (s.record n).state ≠ .retiring) {y : Record}
    (hreplied : Replied (s.line l).missLimit (s.uidElsewhere n) x.frame reply (s.record n) y)
    (ht : t.roster = (s.setRecord n (marked (s.record n) y)).roster) : StandingKept k s t := by
  have hv := Record.nonVacant_iff.1 (Record.at_iff.1 (State.at_of_lookup hlaw.1 hlookup)).1
  obtain ⟨-, hyv, hyr⟩ := hreplied.law (hlaw.2.1 n) hv hstands
  exact .rewrite hlaw.1 (Record.SameStanding.changedBlind _ |>.marked _ (.of_standing hreplied.place ⟨hv, hstands⟩ ⟨hyv, hyr⟩))
    ht

theorem line_commitApplied (l : Line) (n : Nat) (a : Applied) (s : State) (k : Line) :
    (commitApplied l n a s).line k = s.line k := (writes_commitApplied l n a s).line k

/-- Where the result of an exchange is applied, its FORGET is off the line. -/
theorem CollectedOn.applyResult (hlaw : RosterLaw s) {l : Line} {x : Exchange}
    (h : CollectedOn s l (LineState.busy x).forgetting (s.line l)) (reply : Option DriverReply) :
    CollectedOn (applyResult l x reply s) l [] ((applyResult l x reply s).line l) := by
  unfold Machine.applyResult
  split
  · split
    · unfold strayIdent
      split
      next uid can lmin =>
        rw [State.line_setLine_self]
        refine CollectedOn.kept (s := s) (Collected.mapStrays h.landed (f := fun e =>
          if e.address = x.address then filledStray uid can lmin e else e) fun e => ?_) (.of_roster (State.setLine_roster ..))
        split <;> rfl
      · exact h.landed
    · exact h.landed
  next n hlookup =>
    have hat := State.at_of_lookup hlaw.1 hlookup
    dsimp only
    split
    next hforget =>
      split
      next hretiring =>
        rw [line_commitApplied]
        obtain ⟨hstands, hretires, hfree⟩ := standing_vacated hlaw hat hretiring
          (t := commitApplied l n applyForgotten s) (roster_commitApplied l n applyForgotten s) l
        rw [forgetting_of_forget hforget] at h
        have hnew : x.address ∉ forgetsIn (s.line l).admin := (List.nodup_cons.1 h.forgets).1
        refine
          { h.landed with
            serves := fun a ha => hstands a (h.serves a ha)
            forgotten := fun a ha => hretires a (fun e => hnew ?_) (h.landed.forgotten a ha)
            strange := fun e he => ⟨(h.strange e he).1, hfree _ (h.strange e he).2⟩ }
        obtain rfl : a = x.address := congrArg Place.address e
        exact ha
      · exact h.landed
    · split
      · exact h.landed
      next hstands =>
        obtain ⟨y, hreplied, hy⟩ :=
          applyReply_replied (s.line l).missLimit (s.uidElsewhere n) x.frame reply (s.record n)
        have committed := roster_commitApplied l n
          (applyReply (s.line l).missLimit (s.uidElsewhere n) x.frame reply (s.record n)) s
        rw [hy] at committed
        have standing : StandingKept l s (commitApplied l n
            (applyReply (s.line l).missLimit (s.uidElsewhere n) x.frame reply (s.record n)) s) :=
          standing_replied hlaw hlookup hstands hreplied committed
        have own := CollectedOn.kept h.landed standing
        split
        · unfold offerService
          rw [State.line_setLine_self, line_commitApplied]
          exact CollectedOn.kept (Collected.offered own (standing.stands _ ⟨n, hat, hstands⟩))
            (.of_roster (State.setLine_roster ..))
        · rw [line_commitApplied]; exact own

/-! ## The request taken (R134 to R137) -/

theorem line_queueIdentify (l : Line) (a : Nat) (s : State) :
    (queueIdentify l a s).line l = { s.line l with admin := queuedIdentify (s.line l).admin a } :=
  State.line_setLine_self ..

theorem line_addStray (l : Line) (a : Nat) (s : State) :
    (addStray l a s).line l = { s.line l with strays := (s.line l).strays ++ [.unfilled a] } := by
  unfold addStray
  dsimp only
  split
  · rw [(Writes.of_handTrue (ts := [.notices]) ..).line, State.line_setLine_self]
  · rw [State.line_setLine_self]

theorem roster_takeRequest (l : Line) (q : Option Request) (s : State) : (takeRequest l q s).roster = s.roster :=
  (writes_takeRequest l q s).roster

theorem CollectedOn.takeRequest (hw : rosterWf s.roster = true) {l : Line} (h : CollectedOn s l [] (s.line l))
    (q : Option Request) : CollectedOn (takeRequest l q s) l [] ((takeRequest l q s).line l) := by
  refine CollectedOn.kept (s := s) ?_ (.of_roster (roster_takeRequest l q s))
  unfold Machine.takeRequest
  split
  · exact h
  next a =>
    unfold takeJoin
    split
    · split
      · exact h
      · rw [line_queueIdentify]; exact Collected.queuedIdentify h a
    next hnone =>
      split
      · exact h
      next hignored =>
        split
        · rw [line_queueIdentify]; exact Collected.queuedIdentify h a
        next hstray =>
          split
          next hroom =>
            rw [line_queueIdentify, line_addStray]
            exact Collected.queuedIdentify (Collected.addStray h hroom (by simpa using hstray) (by simpa using hignored)
              ((State.lookup_eq_none hw).1 hnone)) a
          · exact h
  next a =>
    rw [line_removeStray, if_pos rfl]
    exact Collected.filterStrays h _
  next a =>
    unfold takeNews
    split
    next n hlookup =>
      split
      · exact h
      next hstands =>
        unfold offerService
        rw [State.line_setLine_self]
        exact Collected.offered h ⟨n, State.at_of_lookup hw hlookup, hstands⟩
    · exact h
  next a =>
    unfold withdrawNews
    rw [State.line_setLine_self]
    exact Collected.filterService h _

/-! ## The whole completion -/

theorem StandingKept.exchangeCompletion (hlaw : RosterLaw s) {l k : Line} (hk : k ≠ l) (chars : List Byte) :
    StandingKept k s (exchangeCompletion l chars s) := by
  obtain hroster | ⟨x, received, request, -, -, hresult⟩ := roster_exchangeCompletion l chars s
  · exact .of_roster hroster
  generalize hroster : (Machine.exchangeCompletion l chars s).roster = roster at hresult
  cases hresult
  case same => exact .of_roster hroster
  case vacated n hlookup hretiring _ =>
    obtain ⟨hstands, hretires, hfree⟩ := standing_vacated hlaw (State.at_of_lookup hlaw.1 hlookup) hretiring hroster k
    exact ⟨hstands, fun b => hretires b fun e => hk (congrArg Place.line e), hfree⟩
  case written n hlookup hstands _ y hreplied => exact standing_replied hlaw hlookup hstands hreplied hroster

theorem collectionsLaw_complete (hlaw : RosterLaw s) {l : Line} (h : CollectionsLaw s l) {x : Exchange}
    (hbusy : (s.line l).state = .busy x) (received request : List Byte)
    (hw : rosterWf (complete l x received request s).roster = true) :
    CollectionsLaw (complete l x received request s) l := by
  rw [collectionsLaw_iff, hbusy] at h
  have result := h.applyResult hlaw (acceptReply x.frame x.address received)
  rw [roster_complete] at hw
  have taken := CollectedOn.takeRequest hw result (readRequest request)
  have after := (onlySweeps_notifyOrigin l x.origin (takeRequest l (readRequest request)
    (applyResult l x (acceptReply x.frame x.address received) s)))
  have freed : CollectedOn (freeLine l (notifyOrigin l x.origin (takeRequest l (readRequest request)
      (applyResult l x (acceptReply x.frame x.address received) s)))) l []
      ((freeLine l (notifyOrigin l x.origin (takeRequest l (readRequest request)
        (applyResult l x (acceptReply x.frame x.address received) s)))).line l) := by
    unfold freeLine
    rw [State.line_setLine_self, after.line]
    refine CollectedOn.kept (Collected.congr taken rfl rfl rfl rfl) ?_
    exact .of_roster ((State.setLine_roster ..).trans after.roster)
  have hidle : ((freeLine l (notifyOrigin l x.origin (takeRequest l (readRequest request)
      (applyResult l x (acceptReply x.frame x.address received) s)))).line l).state = .idle := by
    unfold freeLine
    rw [State.line_setLine_self]
  refine collectionsLaw_of_kept (collectionsLaw_iff.2 ?_) ((onlySweeps_settleSweeps _).line l)
    (.of_roster (onlySweeps_settleSweeps _).roster)
  rw [hidle]
  exact freed

theorem collectionsLaw_exchangeCompletion (hlaw : RosterLaw s) (h : ∀ l, CollectionsLaw s l) (l : Line)
    (chars : List Byte) (k : Line) : CollectionsLaw (exchangeCompletion l chars s) k := by
  by_cases hk : k = l
  swap
  · exact collectionsLaw_of_kept (h k) ((KeepsToLine.exchangeCompletion l chars s).others k hk)
      (.exchangeCompletion hlaw hk chars)
  subst hk
  have hw : rosterWf (exchangeCompletion k chars s).roster = true :=
    (rosterLaw_event hlaw (.exchangeCompletion k chars) ⟨.roster, by decide⟩).1
  revert hw
  unfold exchangeCompletion
  split
  next x hbusy =>
    split
    next received request _ => exact fun hw => collectionsLaw_complete hlaw (h k) hbusy received (request ++ chars) hw
    all_goals exact fun _ => h k
  all_goals exact fun _ => h k

theorem collectionsLaw_event {ts : List Table} (h : ∀ l, CollectionsLaw s l) (hlaw : RosterLaw s)
    (heffect : EventEffect s ts t) (htouched : ∃ x ∈ ts, x ∈ [Table.roster, .lines]) (k : Line) :
    CollectionsLaw t k := by
  cases heffect
  case quietPeriodEnd l => exact collectionsLaw_quietEnded h l k
  case arbiterGrant l => exact collectionsLaw_arbiterGrant h hlaw.1 l k
  case phase l f => exact collectionsLaw_withPhase h l f k
  case exchangeCompletion l chars => exact collectionsLaw_exchangeCompletion hlaw h l chars k
  all_goals exact absurd htouched (by decide)

/-! ## Every step -/

/-- The laws of the lines, with the laws that their proofs need. -/
structure Lined (s : State) : Prop where
  reset : ResetLaw s
  roster : RosterLaw s
  limits : ∀ l, 1 ≤ (s.line l).missLimit
  misses : MissLaw s
  lineB : LineBLaw s
  collections : ∀ l, CollectionsLaw s l

namespace Lined

theorem of_pending (h : Lined s) (pending : List Instr) : Lined { s with pending := pending } :=
  ⟨h.reset.of_pending pending, h.roster, h.limits, h.misses, h.lineB, h.collections⟩

theorem place_of_vacant (h : Lined s) {n : Nat} (hv : (s.record n).nonVacant = false) : (s.record n).place = none := by
  obtain ⟨hvacant, -⟩ := h.roster.2.1 n
  rw [hvacant (by simpa [Record.nonVacant] using hv)]
  rfl

theorem step_misses (h : Lined s) (hstep : step s = .next t) : MissLaw t :=
  step_keeps (P := Lined) reads_missLaw (fun _ h => h.misses) (fun _ pending h => h.of_pending pending)
    (fun _ _ _ _ h heffect htouched => missLaw_command h.misses h.roster.1 (fun _ => h.place_of_vacant) h.limits heffect
      htouched)
    (fun _ _ _ _ h heffect _ => missLaw_event h.misses h.roster.1 h.limits heffect)
    (fun s _ => reads_missLaw.asserted (missLaw_of_check (by decide +kernel)) s)
    (fun straps pins s _ h => reads_missLaw.released
      (reads_missLaw.keeps (writes_poweredUp straps pins s) (by decide) h.misses)) h hstep

theorem lineBLaw_poweredUp {s : State} (h : ResetLaw s) (hr : s.resetN = false) (straps : BitVec 4) (pins : PinLevels) :
    LineBLaw (poweredUp straps pins s) := by
  refine reads_lineBLaw.keeps (writes_poweredUp straps pins s) (by decide) fun _ => ?_
  rw [h hr]
  exact ⟨rfl, fun n q hq => absurd hq (by rw [show State.record _ n = Record.vacant false from rfl]; nofun)⟩

theorem step_lineB (h : Lined s) (hstep : step s = .next t) : LineBLaw t :=
  step_keeps (P := Lined) reads_lineBLaw (fun _ h => h.lineB) (fun _ pending h => h.of_pending pending)
    (fun _ _ _ _ h heffect _ => h.lineB.command h.roster.1 heffect)
    (fun _ _ _ _ h heffect _ => h.lineB.event h.roster.1 heffect)
    (fun s _ => reads_lineBLaw.asserted (lineBLaw_of_check (by decide +kernel)) s)
    (fun straps pins _ hr h => reads_lineBLaw.released (lineBLaw_poweredUp h.reset hr straps pins)) h hstep

theorem step_collections (h : Lined s) (hstep : step s = .next t) (l : Line) : CollectionsLaw t l :=
  step_keeps (P := Lined) (reads_collectionsLaw l) (fun _ h => h.collections l) (fun _ pending h => h.of_pending pending)
    (fun _ _ _ _ h heffect htouched => collectionsLaw_command h.collections h.roster heffect htouched l)
    (fun _ _ _ _ h heffect htouched => collectionsLaw_event h.collections h.roster heffect htouched l)
    (fun s _ => (reads_collectionsLaw l).asserted (collectionsLaw_of_check (by cases l <;> decide +kernel)) s)
    (fun straps pins s _ h => (reads_collectionsLaw l).released
      ((reads_collectionsLaw l).keeps (writes_poweredUp straps pins s) (by decide) (h.collections l))) h hstep

end Lined

/-- Settles O55: the miss counts, the absent line and each line's collections, with the roster's laws at hand. -/
theorem stepKeepsLineLaws : Obligations.StepKeepsLineLaws := by
  intro s t hreset hroster hrange hmisses hlineB hcollections h
  have hlines : LinesInRange s := by
    obtain ⟨-, -, -, -, ha, hb, -⟩ := hrange
    intro l
    cases l
    · exact ha
    · exact hb
  have hs : Lined s := ⟨hreset, hroster, fun l => (hlines l).1.1, hmisses, hlineB, hcollections⟩
  exact ⟨hs.step_misses h, hs.step_lineB h, hs.step_collections h⟩

end Sys2Proof.Machine
end

section
/-! SUPPORT. The power-on reset, its release and RESTART (R162, R168, R169). -/

namespace Sys2Proof.Machine

/-! ## Power-on values -/

theorem photometryLaw_reset : PhotometryLaw State.reset := nofun

/-- Settles O13: the finite laws by their checks, the others at the values of each table. -/
theorem lawsHoldAtReset : Obligations.LawsHoldAtReset := by
  refine ⟨fun _ => rfl, nofun, lineBLaw_of_check (by decide +kernel), meterTableLaw_of_check (by decide +kernel), ?_,
    photometryLaw_reset, fun p => (portalsLawful_reset p).1, rangeLaw_of_check (by decide +kernel),
    rosterLaw_of_check (by decide +kernel), missLaw_of_check (by decide +kernel), ?_, fun l => ?_, stackLaw_reset, ?_⟩
  · exact fun p q => by revert p q; decide
  · exact (@sweepLaw_of_check State.reset (by decide +kernel) : _)
  · cases l <;> exact collectionsLaw_of_check (by decide +kernel)
  · exact marksLaw_iff.2 marksBut_reset

/-- Settles O10: while RESET_N is low every table is that of State.reset. -/
theorem resetAssertedSetsPowerOnValues : Obligations.ResetAssertedSetsPowerOnValues := by
  intro s
  refine ⟨resetAsserted s, rfl, rfl, rfl, rfl, rfl, ?_, rfl, ?_, ?_, ?_, ?_, fun m => ?_, rfl, rfl, fun p => ?_, fun p => ?_,
    fun _ => rfl, fun p => ?_, fun l => ?_, fun c => ?_, rfl, rfl, fun p => ?_⟩
  · exact (show notifyAsserted State.reset = false by decide)
  · exact (show notifyPin State.reset = true by decide)
  · rfl
  · rfl
  · intro l; cases l <;> exact ⟨rfl, rfl⟩
  · show State.reset.meter m = _
    revert m; decide
  · show ∃ v, State.reset.portal p = _ ∧ _
    exact ⟨Profile.powerOn, by revert p; decide, by decide⟩
  · show State.reset.plan p = _
    revert p; decide
  · show State.reset.sweep p = _
    revert p; decide
  · cases l <;> rfl
  · show State.reset.noticeClass c = _
    revert c; decide
  · show State.reset.snapshotOf p = _
    revert p; decide

end Sys2Proof.Machine
end

section
/-! SUPPORT. The commands of a portal's profile, ramp, mode and levels, and the ramp step (R20 to R22, R37, R38, R41 to R45, R53). -/

namespace Sys2Proof.Machine

/-! ## SET_PROFILE (R20 to R22) -/

/-- A byte that is a switch, and what it says. -/
theorem switchOf_of_le {b : Byte} (h : ¬ 1 < b.toNat) : switchOf b = some (decide (b = 1)) := by
  obtain rfl | rfl := byte_eq_zero_or_one h <;> rfl

theorem runModeOf_of_le {b : Byte} (h : ¬ 1 < b.toNat) :
    runModeOf b = some (if b = 0 then RunMode.auto else .manual) := by
  obtain rfl | rfl := byte_eq_zero_or_one h <;> rfl

/-- R19, R21: each value of a profile at the nearest end of its range. -/
theorem clamped_eq (v : Profile) : v.clamped =
    { kp := within 20 120 v.kp, f2 := within 0 1000 v.f2, f3 := within 0 1000 v.f3, f4 := within 0 1000 v.f4,
      f5 := within 0 1000 v.f5, f6 := within 0 1000 v.f6,
      lmax := #v[within 100 200000 v.lmax[0], within 100 200000 v.lmax[1], within 100 200000 v.lmax[2],
                 within 100 200000 v.lmax[3], within 100 200000 v.lmax[4], within 100 200000 v.lmax[5]],
      lin := within 0 2000 v.lin, dmin := within 0 3000 v.dmin, w := within 1 16 v.w, lfb := within 0 12000 v.lfb,
      hold := within 2 60 v.hold, boost := within 0 500 v.boost } := by
  simp only [Profile.clamped, clamp_eq_within (show 20 ≤ 120 by decide), clamp_eq_within (show 0 ≤ 1000 by decide),
    clamp_eq_within (show 100 ≤ 200000 by decide), clamp_eq_within (show 0 ≤ 2000 by decide),
    clamp_eq_within (show 0 ≤ 3000 by decide), clamp_eq_within (show 1 ≤ 16 by decide),
    clamp_eq_within (show 0 ≤ 12000 by decide), clamp_eq_within (show 2 ≤ 60 by decide),
    clamp_eq_within (show 0 ≤ 500 by decide)]
  rfl

theorem fractionsFall_eq_false {v : Profile} :
    v.fractionsFall = false ↔ 1000 < v.f2 ∨ v.f2 < v.f3 ∨ v.f3 < v.f4 ∨ v.f4 < v.f5 ∨ v.f5 < v.f6 := by
  simp only [Profile.fractionsFall, Bool.and_eq_false_iff, decide_eq_false_iff_not, not_le, or_assoc]

theorem setProfile_of_good {portal flags : Byte} {p : Fin 4} (hp : p.val = portal.toNat) (hf : ¬ 1 < flags.toNat)
    (v : RawProfile) (s : State) :
    setProfile portal flags v s
      = if (plainProfile v).clamped.fractionsFall then
          done (decide ((plainProfile v).clamped ≠ plainProfile v))
            (if decide (flags = 1) then
              commitProfile p (s.setPortal p { s.portal p with pendingProfile := some (plainProfile v).clamped })
            else s.setPortal p { s.portal p with pendingProfile := some (plainProfile v).clamped })
        else refuse .badProfile s := by
  rw [setProfile, portalOf_of_val hp, switchOf_of_le hf]

theorem State.setPortal_setPortal (s : State) (p : Fin 4) (x y : Portal) :
    (s.setPortal p x).setPortal p y = s.setPortal p y := by
  simp [State.setPortal]

theorem OnlyStageShort.port {p : Fin 4} {s t : State} (h : OnlyStageShort p s t) : t.port = s.port := by
  obtain ⟨b, x, rfl, -⟩ := h
  rfl

theorem commitProfile_setPortal (s : State) (p : Fin 4) (v : Profile) :
    commitProfile p (s.setPortal p { s.portal p with pendingProfile := some v })
      = evalStageShort p (s.setPortal p { s.portal p with active := v, pendingProfile := none }) := by
  unfold commitProfile
  simp only [State.portal_setPortal_self, State.setPortal_setPortal]

/-- Settles O23. -/
theorem setProfileWritesClampedValues : Obligations.SetProfileWritesClampedValues := by
  intro s portal flags v hs c kept rises answer
  have hc : exec c s = takeCommand 42 (setProfile portal flags v) s := rfl
  have hkept : (plainProfile v).clamped = kept := clamped_eq _
  refine .cons (fun h => Refuses.of_work hc hs ?_) fun hportal => .cons (fun h => Refuses.of_work hc hs ?_) fun hflags => ?_
  · rw [setProfile, portalOf_of_gt h]
  · obtain ⟨p, hp⟩ := exists_portal_of_le hportal
    rw [setProfile, portalOf_of_val hp, switchOf_of_gt h]
  obtain ⟨p, hp⟩ := exists_portal_of_le hportal
  have hw := setProfile_of_good hp hflags v s
  rw [hkept] at hw
  refine .cons (fun h => Refuses.of_work hc hs ?_) fun hfall => .nil fun k hk => ?_
  · rw [hw, fractionsFall_eq_false.2 h]; rfl
  obtain rfl : k = p := Fin.ext (hk.trans hp.symm)
  have hfall : kept.fractionsFall = true := by
    rw [← Bool.not_eq_false, fractionsFall_eq_false]; exact hfall
  rw [hfall, if_pos rfl] at hw
  refine ⟨fun h => ?_, fun h => ?_⟩ <;> subst h
  · exact .of_done_clamped hc hs hw rfl decide_eq_true_iff
  · rw [decide_eq_true rfl, if_pos rfl, commitProfile_setPortal] at hw
    have short := onlyStageShort_evalStageShort k (s.setPortal k { s.portal k with active := kept, pendingProfile := none })
    exact ⟨_, .of_done_clamped hc hs hw short.port decide_eq_true_iff, short⟩

/-! ## STAGE_SHORT (R30, R34) -/

/-- Bits collected into a number, for positions that rise along the list. -/
theorem testBit_foldl_bits {α : Type} (v : α → Nat) (f : α → Bool) (k : Nat) (xs : List α)
    (hrise : xs.Pairwise fun a b => v a < v b) (acc : Nat) (hacc : ∀ x ∈ xs, acc < 2 ^ v x) :
    (xs.foldl (fun acc x => if f x then acc + 2 ^ v x else acc) acc).testBit k
      = (acc.testBit k || xs.any fun x => v x == k && f x) := by
  induction xs generalizing acc with
  | nil => simp
  | cons x xs ih =>
    obtain ⟨hx, hxs⟩ := List.pairwise_cons.1 hrise
    have hlt := hacc x List.mem_cons_self
    have hgrow : ∀ y ∈ xs, 2 ^ v x + 2 ^ v x ≤ 2 ^ v y := fun y hy => by
      rw [← Nat.two_mul, ← Nat.pow_succ']
      exact Nat.pow_le_pow_right (by decide) (hx y hy)
    rw [List.foldl_cons, List.any_cons, ih hxs]
    · cases f x
      · simp
      · rw [if_pos rfl, Nat.add_comm, ← Nat.mul_one (2 ^ v x), Nat.two_pow_add_eq_or_of_lt hlt, Nat.testBit_or,
          Nat.mul_one, Nat.testBit_two_pow]
        rw [Bool.and_true, Bool.or_comm (decide _), Bool.or_assoc]
        rfl
    · intro y hy
      have := hgrow y hy
      split <;> omega
theorem stageIsShort_iff {x : Portal} (hlmax : ∀ i : Fin 6, 0 < x.active.lmax[i]) (stages : Nat) (i : Fin 6) :
    x.stageIsShort stages i = true ↔ ∃ lf u, x.lf = some lf ∧ i.val < stages
      ∧ Rounds (stageLuminance x.active lf i * 10000) x.active.lmax[i] u ∧ 10000 < u := by
  unfold Portal.stageIsShort
  cases x.lf with
  | none => simp
  | some lf =>
    simp only [Bool.and_eq_true, decide_eq_true_eq, Option.some.injEq, rounds_iff (hlmax i)]
    constructor
    · rintro ⟨hi, hu⟩
      exact ⟨lf, _, rfl, hi, rfl, hu⟩
    · rintro ⟨_, _, rfl, hi, rfl, hu⟩
      exact ⟨hi, hu⟩

theorem testBit_shortStages (s : State) (p : Fin 4) (k : Nat) :
    (shortStages s p).testBit k
      = allStages.any fun i => i.val == k && (s.portal p).stageIsShort (stageCount s p) i := by
  unfold shortStages
  rw [testBit_foldl_bits (fun i : Fin 6 => i.val) _ k allStages (by decide) 0 fun _ _ => Nat.two_pow_pos _,
    Nat.zero_testBit, Bool.false_or]

/-- Settles O22. -/
theorem stageShortWhenDriveExceedsFull : Obligations.StageShortWhenDriveExceedsFull := by
  intro s p hrange short
  have hlmax : ∀ i : Fin 6, 0 < (s.portal p).active.lmax[i] := fun i => by
    obtain ⟨-, -, hlmax, -⟩ := hrange
    exact Nat.lt_of_lt_of_le (by decide) (hlmax i).1
  have hshort : ∀ i, (s.portal p).stageIsShort (stageCount s p) i = true ↔ short i := stageIsShort_iff hlmax _
  have hstages : ∀ i : Fin 6, i ∈ allStages := by decide
  refine ⟨hshort, ?_, fun i => ?_, fun k hk => ?_⟩
  · unfold shortHolds
    simp only [List.any_eq_true, hstages, true_and, hshort]
  · rw [testBit_shortStages, ← hshort, List.any_eq_true]
    simp only [hstages, true_and, Bool.and_eq_true, beq_iff_eq, Fin.val_inj, exists_eq_left]
  · rw [testBit_shortStages, List.any_eq_false]
    intro i _
    have : i.val ≠ k := by omega
    simp [this]

/-! ## The ramp step (R41) -/

/-- Settles O24: each case of the step by arithmetic. -/
theorem stageStepIsLimitedAndNeverPassesItsTarget : Obligations.StageStepIsLimitedAndNeverPassesItsTarget := by
  refine ⟨fun r low target level _ _ => ?_, fun x i => ?_⟩
  · intro still new
    have hstill : (target ≠ low ∧ target ≠ Config.fullDrive ∧ level - target + (target - level) ≤ r.deadband) ↔ still :=
      and_congr_right fun _ => and_congr_right fun _ => by omega
    have hnew : new = if still then level else if level < target then min target (level + r.up)
        else if target < level then max target (level - r.down) else level := by
      simp only [new, stepLevel, hstill]
    refine ⟨fun h => by rw [hnew, if_pos h], fun h hlt => by rw [hnew, if_neg h, if_pos hlt],
      fun h hlt => by rw [hnew, if_neg h, if_neg (by omega), if_pos hlt], ?_, ?_, ?_⟩
    all_goals
      intro h
      rw [hnew]
      split_ifs <;> omega
  · rw [Portal.steppedLevels, getElem_six]
    unfold Portal.rampTarget
    split <;> rfl

/-! ## SET_RAMP, REQUEST_MODE and SET_STAGE_LEVEL (R42, R43, R45) -/

/-- Checks passed to a stronger conclusion are passed to a weaker one. -/
theorem Checked.imp {c : Instr} {s : State} {xs : List (Prop × Answer)} {P Q : Prop} (h : Checked c s xs P) (hPQ : P → Q) :
    Checked c s xs Q := by
  induction xs with
  | nil => exact hPQ h
  | cons x xs ih => exact ⟨h.1, fun hgood => ih (h.2 hgood)⟩

theorem setRamp_rules {s : State} (hs : s.listening) (portal steps : Byte) (up down deadband refresh : Half) :
    let c := Instr.setRamp portal steps up down deadband refresh
    let plain : RampSettings := ⟨steps.toNat, up.toNat, down.toNat, deadband.toNat, refresh.toNat⟩
    let kept : RampSettings :=
      ⟨within 2 40 steps.toNat, within 1 10000 up.toNat, within 1 10000 down.toNat, within 0 500 deadband.toNat,
       within 10 600 refresh.toNat⟩
    Checked c s [(3 < portal.toNat, .badValue)]
      (∀ p : Fin 4, p.val = portal.toNat →
        Answers c s (carried (kept ≠ plain)) [] (s.setPortal p { s.portal p with ramp := kept })) := by
  intro c plain kept
  have hc : exec c s = takeCommand 10 (setRamp portal steps up down deadband refresh) s := rfl
  refine .cons (fun h => Refuses.of_work hc hs (by rw [setRamp, portalOf_of_gt h])) fun _ => .nil fun p hp => ?_
  have hw : setRamp portal steps up down deadband refresh s
      = done (decide (kept ≠ plain)) (s.setPortal p { s.portal p with ramp := kept }) := by
    rw [setRamp, portalOf_of_val hp]
    simp only [clamp_eq_within (show 2 ≤ 40 by decide), clamp_eq_within (show 1 ≤ 10000 by decide),
      clamp_eq_within (show 0 ≤ 500 by decide), clamp_eq_within (show 10 ≤ 600 by decide)]
    rfl
  exact .of_done_clamped hc hs hw rfl decide_eq_true_iff

theorem Portal.requested_of_emergency {x : Portal} (h : x.mode = .emergency) (m : RunMode) :
    x.requested m = { x with returnMode := some m.returnMode } := if_pos h

theorem Portal.requested_of_same {x : Portal} {m : RunMode} (h : x.mode = m.mode) :
    x.requested m = { x with pendingMode := none } := by
  have hne : x.mode ≠ .emergency := by rw [h]; cases m <;> nofun
  unfold Portal.requested
  rw [if_neg hne, if_pos h.symm]

theorem Portal.requested_of_other {x : Portal} {m : RunMode} (hne : x.mode ≠ .emergency) (h : x.mode ≠ m.mode) :
    x.requested m = { x with pendingMode := some m } := by
  unfold Portal.requested
  rw [if_neg hne, if_neg (Ne.symm h)]

theorem requestMode_rules {s : State} (hs : s.listening) (portal mode : Byte) :
    let c := Instr.requestMode portal mode
    Checked c s [(3 < portal.toNat ∨ 1 < mode.toNat, .badValue)]
      (∀ (p : Fin 4) (m : RunMode), p.val = portal.toNat → m = (if mode = 0 then .auto else .manual) →
        Checked c s [((s.portal p).mode = .halted, .portalHalted)]
          (Answers c s .ok [] (s.setPortal p ((s.portal p).requested m)))) := by
  intro c
  have hc : exec c s = takeCommand 2 (requestMode portal mode) s := rfl
  refine .cons (fun h => Refuses.of_work hc hs ?_) fun hgood => .nil fun p m hp hm => ?_
  · obtain h | h := h
    · rw [requestMode, portalOf_of_gt h]
    · rw [requestMode, runModeOf_of_gt h]
      cases portalOf portal <;> rfl
  obtain ⟨-, hmode⟩ := not_or.1 hgood
  have hw : requestMode portal mode s = if (s.portal p).mode = .halted then refuse .portalHalted s
      else done false (s.setPortal p ((s.portal p).requested m)) := by
    rw [requestMode, portalOf_of_val hp, runModeOf_of_le hmode, hm]
  exact .cons (fun h => Refuses.of_work hc hs (hw.trans (if_pos h))) fun h => .nil
    (.of_done hc hs (hw.trans (if_neg h)) rfl)

theorem stageOf_of_bad {b : Byte} (h : b = 0 ∨ 6 < b.toNat) : stageOf b = none := by
  have h0 : b = 0 → b.toNat = 0 := fun e => by rw [e]; rfl
  exact dif_neg fun ⟨h1, h6⟩ => h.elim (fun e => by have := h0 e; omega) fun h => by omega

theorem stageOf_of_val {b : Byte} {i : Fin 6} (h : i.val + 1 = b.toNat) : stageOf b = some i := by
  have hi := i.isLt
  rw [stageOf, dif_pos ⟨by omega, by omega⟩]
  exact congrArg some (Fin.ext (by show b.toNat - 1 = i.val; omega))

theorem setStageLevel_rules {s : State} (hs : s.listening) (portal stage : Byte) (level : Half) :
    let c := Instr.setStageLevel portal stage level
    Checked c s [(3 < portal.toNat, .badValue), (stage = 0 ∨ 6 < stage.toNat, .badValue)]
      (∀ (p : Fin 4) (i : Fin 6), p.val = portal.toNat → i.val + 1 = stage.toNat →
        Checked c s [((s.portal p).mode ≠ .manual, .notManual)]
          (Answers c s (carried (10000 < level.toNat)) []
            (s.setPortal p { s.portal p with manual := (s.portal p).manual.set i (min 10000 level.toNat) }))) := by
  intro c
  have hc : exec c s = takeCommand 4 (setStageLevel portal stage level) s := rfl
  refine .cons (fun h => Refuses.of_work hc hs (by rw [setStageLevel, portalOf_of_gt h])) fun hportal =>
    .cons (fun h => Refuses.of_work hc hs ?_) fun _ => .nil fun p i hp hi => ?_
  · obtain ⟨p, hp⟩ := exists_portal_of_le hportal
    rw [setStageLevel, portalOf_of_val hp, stageOf_of_bad h]
  have hw : setStageLevel portal stage level s = if (s.portal p).mode ≠ .manual then refuse .notManual s
      else done (outside 0 Config.fullDrive level.toNat) (s.setPortal p
        { s.portal p with manual := (s.portal p).manual.set i (clamp 0 Config.fullDrive level.toNat) }) := by
    rw [setStageLevel, portalOf_of_val hp, stageOf_of_val hi]
  have hclamp : clamp 0 Config.fullDrive level.toNat = min 10000 level.toNat := by
    rw [clamp_eq_within (by decide), within, Nat.zero_max]
    rfl
  rw [hclamp] at hw
  refine .cons (fun h => Refuses.of_work hc hs (hw.trans (if_pos h))) fun h => .nil
    (.of_done_clamped hc hs (hw.trans (if_neg h)) rfl ?_)
  rw [outside_eq]
  exact or_iff_right (by omega)

/-- Settles O26. -/
theorem rampModeAndStageCommandsWriteTheirPortal : Obligations.RampModeAndStageCommandsWriteTheirPortal := by
  intro s portal hs put
  refine ⟨fun steps up down deadband refresh => setRamp_rules hs portal steps up down deadband refresh, fun mode => ?_,
    fun stage level => setStageLevel_rules hs portal stage level⟩
  refine Checked.imp (requestMode_rules hs portal mode) fun h p m hp hm => Checked.imp (h p m hp hm) fun answered => ?_
  refine ⟨fun he => ?_, fun hrunning => ⟨fun hsame => ?_, fun hother => ?_⟩⟩
  · rw [Portal.requested_of_emergency he] at answered
    cases m <;> exact answered
  · rwa [Portal.requested_of_same hsame] at answered
  · rwa [Portal.requested_of_other (by obtain h | h := hrunning <;> rw [h] <;> nofun) hother] at answered

/-! ## START and HALT (R37, R38, R108) -/

theorem startCommand_of_good {portal mode : Byte} {p : Fin 4} (hp : p.val = portal.toNat) (hm : ¬ 1 < mode.toNat)
    (s : State) :
    ((s.portal p).mode = .halted →
        startCommand portal mode s = done false (startPortal p (if mode = 0 then .auto else .manual) s))
      ∧ ((s.portal p).mode = .auto ∨ (s.portal p).mode = .manual → startCommand portal mode s = refuse .portalRunning s)
      ∧ ((s.portal p).mode = .emergency → startCommand portal mode s = refuse .emergencyActive s) := by
  rw [startCommand, portalOf_of_val hp, runModeOf_of_le hm]
  dsimp only
  refine ⟨fun h => by rw [h], fun h => ?_, fun h => by rw [h]⟩
  obtain h | h := h <;> rw [h]

theorem commitProfile_of_none {p : Fin 4} {s : State} (h : (s.portal p).pendingProfile = none) : commitProfile p s = s := by
  unfold commitProfile
  rw [h]

theorem commitProfile_of_some {p : Fin 4} {s : State} {v : Profile} (h : (s.portal p).pendingProfile = some v) :
    commitProfile p s = evalStageShort p (s.setPortal p { s.portal p with active := v, pendingProfile := none }) := by
  unfold commitProfile
  rw [h]

/-- R37 steps 1 to 5: the commit of the pending profile, and the portal started, apart from its STAGE_SHORT. -/
theorem onlyStageShort_start (p : Fin 4) (m : RunMode) (s : State) :
    OnlyStageShort p (s.setPortal p
      { s.portal p with
        active := (s.portal p).pendingProfile.getD (s.portal p).active, pendingProfile := none
        mode := m.mode, manual := if m = .manual then (s.portal p).levels else (s.portal p).manual
        rampTimer := some (s.portal p).ramp.steps, refreshTimer := some (s.portal p).ramp.refresh })
      ((commitProfile p s).setPortal p (((commitProfile p s).portal p).started m)) := by
  cases hpending : (s.portal p).pendingProfile with
  | none =>
    have hsame : (s.portal p).started m = { s.portal p with
        active := (s.portal p).pendingProfile.getD (s.portal p).active, pendingProfile := none
        mode := m.mode, manual := if m = .manual then (s.portal p).levels else (s.portal p).manual
        rampTimer := some (s.portal p).ramp.steps, refreshTimer := some (s.portal p).ramp.refresh } := by
      rw [Portal.started, hpending, Option.getD_none, ← hpending]
    rw [hpending] at hsame
    rw [commitProfile_of_none hpending, hsame]
    exact .refl ..
  | some v =>
    rw [commitProfile_of_some hpending]
    obtain ⟨b, x, hshort, hpriority, hmasked⟩ :=
      onlyStageShort_evalStageShort p (s.setPortal p { s.portal p with active := v, pendingProfile := none })
    refine ⟨b, x, ?_, hpriority, hmasked⟩
    rw [hshort]
    simp [State.setPortal, State.portal, Portal.started]

theorem refreshTimer_requestSweep {p : Fin 4} {s : State}
    (h : (s.portal p).refreshTimer = some (s.portal p).ramp.refresh) :
    ((requestSweep p s).portal p).refreshTimer = some (s.portal p).ramp.refresh := by
  obtain hp | ⟨-, hp⟩ := timersStarted_requestSweep p s p
  · rw [hp, h]
  · rw [hp]

theorem haltCommand_of_good {portal : Byte} {p : Fin 4} (hp : p.val = portal.toNat) (s : State) :
    ((s.portal p).mode = .auto ∨ (s.portal p).mode = .manual → haltCommand portal s = done false (haltPortal p s))
      ∧ ((s.portal p).mode = .halted → haltCommand portal s = done false s)
      ∧ ((s.portal p).mode = .emergency → haltCommand portal s = refuse .emergencyActive s) := by
  rw [haltCommand, portalOf_of_val hp]
  dsimp only
  refine ⟨fun h => ?_, fun h => by rw [h], fun h => by rw [h]⟩
  obtain h | h := h <;> rw [h]

theorem start_rules {s : State} (hs : s.listening) (portal mode : Byte) :
    let c := Instr.start portal mode
    Checked c s [(3 < portal.toNat ∨ 1 < mode.toNat, .badValue)]
      (∀ p : Fin 4, p.val = portal.toNat →
        let x := s.portal p
        Checked c s [(x.mode = .auto ∨ x.mode = .manual, .portalRunning), (x.mode = .emergency, .emergencyActive)]
          (∃ t u, Answers c s .ok [] t
            ∧ OnlyStageShort p (s.setPortal p
                { x with
                  active := x.pendingProfile.getD x.active, pendingProfile := none
                  mode := if mode = 0 then .auto else .manual
                  manual := if mode = 0 then x.manual else x.levels
                  rampTimer := some x.ramp.steps, refreshTimer := some x.ramp.refresh }) u
            ∧ OnlySweeps u t ∧ SweepAsked p u t ∧ (t.portal p).refreshTimer = some x.ramp.refresh)) := by
  intro c
  have hc : exec c s = takeCommand 2 (startCommand portal mode) s := rfl
  refine .cons (fun h => Refuses.of_work hc hs ?_) fun hgood => .nil fun p hp => ?_
  · obtain h | h := h
    · rw [startCommand, portalOf_of_gt h]
    · rw [startCommand, runModeOf_of_gt h]
      cases portalOf portal <;> rfl
  obtain ⟨-, hmode⟩ := not_or.1 hgood
  obtain ⟨hhalted, hrunning, hemergency⟩ := startCommand_of_good hp hmode s
  refine .cons (fun h => Refuses.of_work hc hs (hrunning h)) fun hidle => .cons (fun h => Refuses.of_work hc hs (hemergency h))
    fun hnot => .nil ?_
  have hmodeHalted : (s.portal p).mode = .halted := by
    cases hm : (s.portal p).mode
    · rfl
    · exact absurd (.inl hm) hidle
    · exact absurd (.inr hm) hidle
    · exact absurd hm hnot
  have hw := hhalted hmodeHalted
  have started := onlyStageShort_start p (if mode = 0 then .auto else .manual) s
  have hwanted : ∀ m : RunMode, m = (if mode = 0 then .auto else .manual) →
      (m.mode = if mode = 0 then .auto else .manual)
        ∧ (if m = .manual then (s.portal p).levels else (s.portal p).manual)
          = if mode = 0 then (s.portal p).manual else (s.portal p).levels := by
    rintro m rfl
    split <;> exact ⟨rfl, rfl⟩
  obtain ⟨hmodeEq, hmanualEq⟩ := hwanted _ rfl
  rw [hmodeEq, hmanualEq] at started
  refine ⟨_, _, .of_done hc hs hw ?_, started, onlySweeps_requestSweep p _, sweepAsked_requestSweep p _, ?_⟩
  · exact (CommandEffect.start p _ hmodeHalted).writes.outer.port
  · have hramp : ((commitProfile p s).portal p).ramp = (s.portal p).ramp := by rw [portal_commitProfile]
    rw [← hramp]
    have hportal : ((commitProfile p s).setPortal p (((commitProfile p s).portal p).started
        (if mode = 0 then .auto else .manual))).portal p
          = ((commitProfile p s).portal p).started (if mode = 0 then .auto else .manual) := State.portal_setPortal_self ..
    have := refreshTimer_requestSweep (p := p) (s := (commitProfile p s).setPortal p
      (((commitProfile p s).portal p).started (if mode = 0 then .auto else .manual))) (by rw [hportal]; rfl)
    rwa [hportal] at this

/-- Settles O27. -/
theorem startAndHaltChangeThePortalsMode : Obligations.StartAndHaltChangeThePortalsMode := by
  intro s portal hs
  refine ⟨fun mode => start_rules hs portal mode, ?_⟩
  intro c
  have hc : exec c s = takeCommand 1 (haltCommand portal) s := rfl
  refine .cons (fun h => Refuses.of_work hc hs (by rw [haltCommand, portalOf_of_gt h])) fun _ => .nil fun p hp => ?_
  obtain ⟨hrunning, hhalted, hemergency⟩ := haltCommand_of_good hp s
  refine .cons (fun h => Refuses.of_work hc hs (hemergency h)) fun _ => .nil
    ⟨fun h => .of_done hc hs (hhalted h) rfl, fun h => ⟨fun hidle => ?_, fun hruns => ?_⟩⟩
  all_goals
    have hw := hrunning h
    unfold haltPortal abandonSweep at hw
  · rw [State.setPortal_sweep, hidle] at hw
    exact .of_done hc hs hw rfl
  · obtain ⟨w, hw'⟩ := Option.ne_none_iff_exists'.1 hruns
    rw [State.setPortal_sweep, hw'] at hw
    exact .of_done hc hs hw rfl

/-! ## RELEASE (R53) -/

theorem emergencyClass_ne_modeSettledClass (p : Fin 4) : modeSettledClass p ≠ emergencyClass p := by revert p; decide

theorem releasePortal_eq (p : Fin 4) (back : ReturnMode) (s : State) :
    releasePortal p back s = ((s.setPortal p ((s.portal p).released back)).setNoticeClass (emergencyClass p)
        { s.noticeClass (emergencyClass p) with holds := false, pending := false }).setNoticeClass (modeSettledClass p)
          { s.noticeClass (modeSettledClass p) with pending := true } := by
  unfold releasePortal handEvent handFalse
  rw [State.noticeClass_setNoticeClass_of_ne _ _ _ _ (emergencyClass_ne_modeSettledClass p)]
  rfl

/-- Settles O30. -/
theorem releaseReturnsToTheReturnMode : Obligations.ReleaseReturnsToTheReturnMode := by
  intro s portal hs c
  have hc : exec c s = takeCommand 1 (releaseCommand portal) s := rfl
  refine .cons (fun h => Refuses.of_work hc hs (by rw [releaseCommand, portalOf_of_gt h])) fun _ => .nil fun p hp => ?_
  have hw : releaseCommand portal s = if (s.portal p).mode ≠ .emergency then refuse .notEmergency s
      else if s.emergAsserted then refuse .stillAsserted s
      else done false (releasePortal p ((s.portal p).returnMode.getD .halted) s) := by
    rw [releaseCommand, portalOf_of_val hp]
  have hpin : s.emergAsserted = true ↔ s.emergN = s.straps.getLsbD 3 := by simp [State.emergAsserted]
  refine .cons (fun h => Refuses.of_work hc hs (hw.trans (if_pos h))) fun hmode => ?_
  rw [if_neg hmode] at hw
  refine .cons (fun h => Refuses.of_work hc hs (hw.trans (if_pos (hpin.2 h)))) fun hfree => .nil fun back hback => ?_
  rw [if_neg (fun h => hfree (hpin.1 h)), hback, Option.getD_some, releasePortal_eq] at hw
  exact .of_done hc hs hw rfl

end Sys2Proof.Machine
end

section
/-! SUPPORT. Polling: whose turn it is, and a poll that brings no reading (R4 to R6, R8). -/

namespace Sys2Proof.Machine

/-! ## The next poll (R4) -/

/-- What is found along a list is found at the element of the lowest rank, when the ranks rise along it. -/
theorem findSome?_of_lowest {α β : Type} {f : α → Option β} {rank : α → Nat} {l : List α}
    (hrise : l.Pairwise fun a b => rank a < rank b) {a : α} (ha : a ∈ l) {b : β} (hf : f a = some b)
    (hlow : ∀ x ∈ l, f x ≠ none → rank a ≤ rank x) : l.findSome? f = some b := by
  induction l with
  | nil => nomatch ha
  | cons x l ih =>
    obtain ⟨hx, hl⟩ := List.pairwise_cons.1 hrise
    rw [List.findSome?_cons]
    obtain rfl | ha := List.mem_cons.1 ha
    · rw [hf]
    have hnone : f x = none := by
      by_contra hsome
      exact absurd (hx a ha) (not_lt.2 (hlow x List.mem_cons_self hsome))
    rw [hnone]
    exact ih hl ha fun y hy => hlow y (List.mem_cons_of_mem _ hy)

/-- R4: how long an entry waits for its turn after the most recently polled one. -/
def pollTurn (s : State) (k : Fin 8) : Nat :=
  match s.lastPolled with
  | none => k.val
  | some j => (k.val + 7 - j.val) % 8

theorem pollOrder_sorted (s : State) : (pollOrder s).Pairwise fun a b => pollTurn s a < pollTurn s b := by
  unfold pollOrder pollTurn
  cases s.lastPolled with
  | none => decide
  | some j => revert j; decide

theorem mem_pollOrder (s : State) (k : Fin 8) : k ∈ pollOrder s := by
  unfold pollOrder
  cases s.lastPolled with
  | none => exact mem_allMeters k
  | some j => revert j k; decide

/-- R4: an entry that waits to be polled. -/
abbrev PollWaits (s : State) (k : Fin 8) : Prop := (s.meter k).site ≠ none ∧ (s.meter k).due = true

theorem nextPoll_of_first {s : State} {m : Fin 8} {q : MeterSite} (hsite : (s.meter m).site = some q)
    (hdue : (s.meter m).due = true) (hfirst : ∀ k, PollWaits s k → pollTurn s m ≤ pollTurn s k) :
    nextPoll s = some (m, q.address) := by
  refine findSome?_of_lowest (pollOrder_sorted s) (mem_pollOrder s m) (by rw [hsite]; exact if_pos hdue) fun k _ hk => hfirst k ?_
  cases hs : (s.meter k).site with
  | none => rw [hs] at hk; exact absurd rfl hk
  | some r =>
    rw [hs] at hk
    refine ⟨Option.isSome_iff_ne_none.1 (by rw [hs]; rfl), ?_⟩
    by_contra hnot
    exact hk (if_neg hnot)

theorem nextPoll_of_none {s : State} (h : ∀ k, ¬ PollWaits s k) : nextPoll s = none := by
  refine List.findSome?_eq_none_iff.2 fun k _ => ?_
  cases hs : (s.meter k).site with
  | none => rfl
  | some q => exact if_neg fun hdue => h k ⟨by rw [hs]; nofun, hdue⟩

theorem pollStart_of_next {s : State} {m : Fin 8} {a : Nat} (hidle : s.poll = none) (hnext : nextPoll s = some (m, a)) :
    pollStart s = { s.setMeter m { s.meter m with due := false } with lastPolled := some m, poll := some a } := by
  unfold pollStart
  rw [hidle, hnext]

theorem pollStart_of_none {s : State} (h : s.poll ≠ none ∨ nextPoll s = none) : pollStart s = s := by
  unfold pollStart
  split
  next hidle hnext => exact h.elim (absurd hidle) fun hnone => nomatch hnext.symm.trans hnone
  next => rfl

theorem meterSending_of_high {s : State} (h : s.resetN = true) : meterSending s = s.poll.map pollFrame := if_pos h

/-- Settles O15. -/
theorem pollsFollowTheTableInTurn : Obligations.PollsFollowTheTableInTurn := by
  intro s hs turn waits
  have hdue : ∀ m, exec (.pollDue m) s = .next (pollDue m s) := fun m => event_of_high hs _
  have hstart : exec .pollStart s = .next (pollStart s) := event_of_high hs _
  have hturn : turn = pollTurn s := by unfold pollTurn; rfl
  refine ⟨fun m hm => ?_, fun m hm => ?_, fun m q hidle hsite hwaits hfirst => ?_, fun hidle => ?_, fun a ha => ?_,
    fun hnone => ?_⟩
  · rw [hdue, pollDue, if_pos (Option.isSome_iff_ne_none.2 hm)]
    rfl
  · rw [hdue, pollDue, hm]
    rfl
  · rw [hturn] at hfirst
    rw [hstart, pollStart_of_next hidle (nextPoll_of_first hsite hwaits hfirst)]
    rfl
  · have hquiet : meterSending s = none := by rw [meterSending_of_high hs, hidle]; rfl
    exact ⟨by rw [meterEnable, hquiet]; rfl, by rw [meterTx, hquiet]⟩
  · rw [meterTx, meterSending_of_high hs, ha, bytesOf_one]
    rfl
  · rw [hstart, pollStart_of_none (hnone.imp id nextPoll_of_none)]

/-! ## Polls without a reading (R5, R6, R8) -/

theorem meterAt_eq_none {s : State} {a : Nat} (h : ∀ m q, (s.meter m).site = some q → q.address ≠ a) : meterAt s a = none := by
  refine List.find?_eq_none.2 fun m _ hm => ?_
  obtain ⟨q, hq, ha⟩ := (Option.any_eq_true _ _).1 hm
  exact h m q hq (by simpa using ha)

/-- R8: the status that a reply without a reading leaves. -/
theorem readMeterReply_of_not_valid {a : Nat} {c0 c1 c2 c3 c4 : Byte}
    (h : ¬ ((c4 = crc8 [c0, c1, c2, c3] ∧ c0.toNat = a) ∧ c1 = 1 ∧ c2.toNat * 256 + c3.toNat ≤ 16383)) :
    (readMeterReply a c0 c1 c2 c3 c4).map Prod.fst
        = (if (c4 = crc8 [c0, c1, c2, c3] ∧ c0.toNat = a) ∧ c1 = 2 then some MeterStatus.warming
            else if (c4 = crc8 [c0, c1, c2, c3] ∧ c0.toNat = a) ∧ c1 = 3 then some .fault else none)
      ∧ ∀ n, readMeterReply a c0 c1 c2 c3 c4 ≠ some (.valid, n) := by
  unfold readMeterReply
  dsimp only
  by_cases hgood : c4 = crc8 [c0, c1, c2, c3] ∧ c0.toNat = a
  · rw [if_neg (by simp [hgood.1, hgood.2])]
    by_cases h1 : c1 = 1
    · rw [if_pos h1, if_neg (show ¬ _ ≤ Config.luminanceMax from fun hluminance => h ⟨hgood, h1, hluminance⟩),
        if_neg (by rw [h1]; simp), if_neg (by rw [h1]; simp)]
      exact ⟨rfl, nofun⟩
    rw [if_neg h1]
    by_cases h2 : c1 = 2
    · rw [if_pos h2, if_pos ⟨hgood, h2⟩]
      exact ⟨rfl, nofun⟩
    rw [if_neg h2, if_neg (show ¬ (_ ∧ c1 = 2) from fun h => h2 h.2)]
    by_cases h3 : c1 = 3
    · rw [if_pos h3, if_pos ⟨hgood, h3⟩]
      exact ⟨rfl, nofun⟩
    · rw [if_neg h3, if_neg (show ¬ (_ ∧ c1 = 3) from fun h => h3 h.2)]
      exact ⟨rfl, nofun⟩
  · rw [if_pos (by obtain h | h := not_and_or.1 hgood; exacts [.inl (Ne.symm h), .inr h]), if_neg fun h => hgood h.1,
      if_neg fun h => hgood h.1]
    exact ⟨rfl, nofun⟩

theorem applyPoll_of_status {s : State} {a : Nat} {m : Fin 8} (hat : meterAt s a = some m)
    (result : Option (MeterStatus × Nat)) (hno : ∀ luminance, result ≠ some (.valid, luminance)) :
    applyPoll a result s = s.setMeter m { s.meter m with status := result.map Prod.fst } := by
  unfold applyPoll
  rw [hat]
  dsimp only
  split
  next luminance _ => exact absurd rfl (hno luminance)
  next => rfl
  next => rfl

theorem applyPoll_of_stray {s : State} {a : Nat} (hat : meterAt s a = none) (result : Option (MeterStatus × Nat)) :
    applyPoll a result s = s := by
  unfold applyPoll
  rw [hat]

theorem pollCompletion_of_poll {s : State} {a : Nat} (h : s.poll = some a) (c0 c1 c2 c3 c4 : Byte) :
    pollCompletion c0 c1 c2 c3 c4 s = applyPoll a (readMeterReply a c0 c1 c2 c3 c4) { s with poll := none } := by
  unfold pollCompletion
  rw [h]

theorem pollWindowClose_of_poll {s : State} {a : Nat} (h : s.poll = some a) :
    pollWindowClose s = applyPoll a none { s with poll := none } := by
  unfold pollWindowClose
  rw [h]

/-- Settles O16. -/
theorem pollsWithoutAReadingWriteOnlyTheStatus : Obligations.PollsWithoutAReadingWriteOnlyTheStatus := by
  intro s c0 c1 c2 c3 c4 a hs hlaw hpoll whole status
  have hcompletion : exec (.pollCompletion c0 c1 c2 c3 c4) s
      = .next (applyPoll a (readMeterReply a c0 c1 c2 c3 c4) { s with poll := none }) := by
    rw [← pollCompletion_of_poll hpoll]
    exact event_of_high hs _
  have hclose : exec .pollWindowClose s = .next (applyPoll a none { s with poll := none }) := by
    rw [← pollWindowClose_of_poll hpoll]
    exact event_of_high hs _
  refine ⟨fun m q hsite ha => ⟨fun hno => ?_, ?_⟩, fun hstray => ⟨?_, ?_⟩⟩
  · have hat : meterAt { s with poll := none } a = some m := ha ▸ meterAt_of_site hlaw hsite
    obtain ⟨hfst, hnot⟩ := readMeterReply_of_not_valid hno
    rw [hcompletion, applyPoll_of_status hat _ hnot, hfst]
    rfl
  · have hat : meterAt { s with poll := none } a = some m := ha ▸ meterAt_of_site hlaw hsite
    rw [hclose, applyPoll_of_status hat none nofun]
    rfl
  · rw [hcompletion, applyPoll_of_stray (s := { s with poll := none }) (meterAt_eq_none hstray)]
  · rw [hclose, applyPoll_of_stray (s := { s with poll := none }) (meterAt_eq_none hstray)]

end Sys2Proof.Machine
end

section
/-! SUPPORT. The slots of a plan in the order of the walk (R56, R57, R100). -/

namespace Sys2Proof.Machine

/-! ## The nested order of the walk (R100) -/

/-- R100: stages, in them rows, in these positions. -/
def Coords.Before (a b : Coords) : Prop :=
  a.stage < b.stage ∨ a.stage = b.stage ∧ (a.row < b.row ∨ a.row = b.row ∧ a.position < b.position)

theorem Plan.slotAt_lt_of_before {q : Plan} (hw : q.wf = true) {a b : Coords} (ha : q.inside a) (h : a.Before b) :
    q.slotAt a < q.slotAt b := by
  obtain ⟨-, hr, hp⟩ := ha
  have hstage := Plan.inStage_lt hw hr hp
  obtain ⟨-, -, -, -, hstride, -, -⟩ := Plan.wf_iff.1 hw
  unfold Plan.slotAt
  obtain h | ⟨he, h | ⟨he', h⟩⟩ := h
  · have : (a.stage + 1) * q.stageStride ≤ b.stage * q.stageStride := Nat.mul_le_mul_right _ h
    rw [Nat.succ_mul] at this
    omega
  · have : (a.row + 1) * q.rowStride ≤ b.row * q.rowStride := Nat.mul_le_mul_right _ h
    rw [Nat.succ_mul] at this
    rw [he]
    omega
  · rw [he, he']
    omega

theorem Plan.slotAt_lt_slotAt_iff {q : Plan} (hw : q.wf = true) {a b : Coords} (ha : q.inside a) (hb : q.inside b) :
    q.slotAt a < q.slotAt b ↔ a.Before b := by
  refine ⟨fun hlt => ?_, Plan.slotAt_lt_of_before hw ha⟩
  by_contra hnot
  obtain hback | hsame : b.Before a ∨ a.stage = b.stage ∧ a.row = b.row ∧ a.position = b.position := by
    unfold Coords.Before at hnot ⊢; omega
  · exact absurd (Plan.slotAt_lt_of_before hw hb hback) (by omega)
  · obtain ⟨hs, hr, hp⟩ := hsame
    unfold Plan.slotAt at hlt
    rw [hs, hr, hp] at hlt
    exact absurd hlt (lt_irrefl _)

/-! ## The highest slot (R57) -/

theorem Plan.names_highest {q : Plan} (hw : q.wf = true) : q.names q.highest := by
  obtain ⟨⟨hs, -⟩, ⟨hr, -⟩, ⟨hp, -⟩, -⟩ := Plan.wf_iff.1 hw
  exact ⟨q.stages - 1, q.rows - 1, q.positions - 1, by omega, by omega, by omega, rfl⟩

theorem Plan.names_bounds {q : Plan} {n : Nat} (h : q.names n) : q.base ≤ n ∧ n ≤ q.highest := by
  obtain ⟨stage, row, position, hs, hr, hp, rfl⟩ := h
  have h1 : stage * q.stageStride ≤ (q.stages - 1) * q.stageStride := Nat.mul_le_mul_right _ (by omega)
  have h2 : row * q.rowStride ≤ (q.rows - 1) * q.rowStride := Nat.mul_le_mul_right _ (by omega)
  unfold Plan.highest
  omega

/-! ## The next slot of the walk (R100, R103) -/

theorem nextPosition_eq_some {s : State} {p : Fin 4} {q : Plan} (hplan : s.plan p = some q) (hw : q.wf = true) {n k : Nat} :
    nextPosition s p n = some k ↔ q.names k ∧ n < k ∧ ∀ j, q.names j → n < j → k ≤ j := by
  unfold nextPosition
  rw [List.find?_range_eq_some]
  simp only [Bool.and_eq_true, decide_eq_true_eq, inFootprint_iff, hplan, Option.some.injEq, exists_eq_left', Plan.holds_iff hw,
    List.mem_range]
  constructor
  · rintro ⟨⟨hnk, hk⟩, -, hfirst⟩
    refine ⟨hk, hnk, fun j hj hnj => not_lt.1 fun hjk => ?_⟩
    have hboth : (decide (n < j) && inFootprint s p j) = true := by
      simp [hnj, inFootprint_iff, hplan, Plan.holds_iff hw, hj]
    have := hfirst j hjk
    rw [hboth] at this
    exact absurd this (by decide)
  · rintro ⟨hk, hnk, hfirst⟩
    refine ⟨⟨hnk, hk⟩, Plan.names_lt hw hk, fun j hjk => ?_⟩
    by_contra hboth
    simp only [Bool.not_eq_true', Bool.not_eq_false, Bool.and_eq_true, decide_eq_true_eq, inFootprint_iff, hplan,
      Option.some.injEq, exists_eq_left', Plan.holds_iff hw] at hboth
    exact absurd (hfirst j hboth.2 hboth.1) (by omega)

theorem nextPosition_eq_none {s : State} {p : Fin 4} {q : Plan} (hplan : s.plan p = some q) (hw : q.wf = true) {n : Nat} :
    nextPosition s p n = none ↔ ∀ j, q.names j → j ≤ n := by
  unfold nextPosition
  rw [List.find?_eq_none]
  simp only [Bool.and_eq_true, decide_eq_true_eq, inFootprint_iff, hplan, Option.some.injEq, exists_eq_left', Plan.holds_iff hw,
    List.mem_range, not_and]
  exact ⟨fun h j hj => not_lt.1 fun hnj => h j (Plan.names_lt hw hj) hnj hj, fun h j _ hnj hj => absurd (h j hj) (by omega)⟩

/-- Settles O34. -/
theorem planSlotsFollowTheFormulaInWalkOrder : Obligations.PlanSlotsFollowTheFormulaInWalkOrder := by
  intro q hw inside
  refine ⟨fun n => Plan.holds_iff hw, fun a b ha hb => Plan.slotAt_lt_slotAt_iff hw ha hb, fun c hc => Plan.coords_slotAt hw hc,
    Plan.names_highest hw, fun n hn => ?_, fun s p n hplan =>
      ⟨fun k => nextPosition_eq_some hplan hw, nextPosition_eq_none hplan hw⟩⟩
  obtain ⟨hbase, hhigh⟩ := Plan.names_bounds hn
  exact ⟨hbase, hhigh, Nat.le_of_lt_succ (Plan.names_lt hw hn)⟩

end Sys2Proof.Machine
end

section
/-! SUPPORT. The acceptable replies of each frame, and the characters of a frame (R116, R117). -/

namespace Sys2Proof.Machine

/-! ## The fields of a reply (R171) -/

/-- R116: a fault reason in a reply. -/
def reasonByte : FaultReason → Byte
  | .open => 1
  | .short => 2
  | .thermal => 3
  | .supply => 4

theorem reasonOf_eq_some {b : Byte} {k : FaultReason} : reasonOf b = some k ↔ b = reasonByte k := by
  constructor
  · intro h
    unfold reasonOf at h
    split_ifs at h <;> cases h <;> assumption
  · rintro rfl
    cases k <;> rfl

theorem switchOf_eq_some {b : Byte} {on : Bool} : switchOf b = some on ↔ b = if on then 1 else 0 := by
  constructor
  · intro h
    unfold switchOf at h
    split_ifs at h <;> cases h <;> assumption
  · rintro rfl
    cases on <;> rfl

theorem extractLsb'_eq_ofNat {w : Nat} (x : BitVec w) (k : Nat) : x.extractLsb' k 8 = BitVec.ofNat 8 (x.toNat / 2 ^ k) := by
  rw [← Nat.shiftRight_eq_div_pow]
  rfl

theorem bytesOf_six_toNat (x : UidField) : bytesOf 6 x.toNat = put48 x := by
  simp [bytesOf, put48, List.range_succ, extractLsb'_eq_ofNat]

theorem u48_put48 (x : UidField) : u48 (put48 x) 0 = x := u24_append_put48 x

/-- A uid in six bytes. -/
theorem bytesOf_six_iff {u5 u4 u3 u2 u1 u0 : Byte} {uid : Nat} :
    (u48 [u5, u4, u3, u2, u1, u0] 0).toNat = uid ↔ uid < 2 ^ 48 ∧ [u5, u4, u3, u2, u1, u0] = bytesOf 6 uid := by
  constructor
  · rintro rfl
    exact ⟨BitVec.isLt _, by rw [bytesOf_six_toNat, put48_u48]; rfl⟩
  · rintro ⟨hlt, hbytes⟩
    have huid : (BitVec.ofNat 48 uid).toNat = uid := Nat.mod_eq_of_lt hlt
    rw [hbytes, ← huid, bytesOf_six_toNat, u48_put48]

/-- A number in two bytes. -/
theorem bytesOf_two_iff {hi lo : Byte} {n : Nat} :
    hi.toNat * 256 + lo.toNat = n ↔ n < 2 ^ 16 ∧ [hi, lo] = bytesOf 2 n := by
  rw [bytesOf_two, put2, put1, put1]
  simp only [List.singleton_append, List.cons.injEq, and_true, ← BitVec.toNat_inj, BitVec.toNat_ofNat]
  have := hi.isLt
  have := lo.isLt
  omega

/-! ## What the fields say (R117) -/

theorem readReply_level {v : Nat} {code : Byte} {fields : List Byte} {r : DriverReply} :
    readReply (.level v) code fields = some r ↔
      r = .ack ∧ code :: fields = [0xC1] ∨ r = .ackMore ∧ code :: fields = [0xC2]
        ∨ ∃ k, r = .fault k ∧ code :: fields = [0xC3, reasonByte k] := by
  constructor
  · intro h
    unfold readReply at h
    dsimp only at h
    split_ifs at h with hack hmore hfault
    · obtain ⟨rfl, rfl⟩ := hack
      exact .inl ⟨(Option.some.inj h).symm, rfl⟩
    · obtain ⟨rfl, rfl⟩ := hmore
      exact .inr (.inl ⟨(Option.some.inj h).symm, rfl⟩)
    · subst hfault
      split at h
      next reason =>
        obtain ⟨k, hk, rfl⟩ := Option.map_eq_some_iff.1 h
        exact .inr (.inr ⟨k, rfl, by rw [reasonOf_eq_some.1 hk]⟩)
      next => nomatch h
  · rintro (⟨rfl, h⟩ | ⟨rfl, h⟩ | ⟨k, rfl, h⟩) <;> cases h
    · rfl
    · rfl
    · cases k <;> rfl

theorem readReply_identify {code : Byte} {fields : List Byte} {r : DriverReply} :
    readReply .identify code fields = some r ↔
      ∃ (uid lmin : Nat) (can : Bool), r = .ident uid can lmin ∧ 1 ≤ uid ∧ uid < 2 ^ 48 ∧ lmin < 2 ^ 16
        ∧ code :: fields = 0xC4 :: bytesOf 6 uid ++ [if can then 1 else 0] ++ bytesOf 2 lmin := by
  constructor
  · intro h
    unfold readReply at h
    dsimp only at h
    split_ifs at h with hcode
    subst hcode
    split at h
    next u5 u4 u3 u2 u1 u0 capability hi lo =>
      split_ifs at h with hzero
      obtain ⟨can, hcan, rfl⟩ := Option.map_eq_some_iff.1 h
      obtain ⟨hlt, huid⟩ := bytesOf_six_iff.1 (rfl : (u48 [u5, u4, u3, u2, u1, u0] 0).toNat = _)
      obtain ⟨hlmin, htwo⟩ := bytesOf_two_iff.1 (rfl : hi.toNat * 256 + lo.toNat = _)
      refine ⟨_, _, can, rfl, Nat.one_le_iff_ne_zero.2 hzero, hlt, hlmin, ?_⟩
      rw [← huid, ← htwo, switchOf_eq_some.1 hcan]
      rfl
    next => nomatch h
  · rintro ⟨uid, lmin, can, rfl, hpos, hlt, hlmin, h⟩
    obtain ⟨u5, u4, u3, u2, u1, u0, huid⟩ : ∃ u5 u4 u3 u2 u1 u0 : Byte, [u5, u4, u3, u2, u1, u0] = bytesOf 6 uid :=
      ⟨_, _, _, _, _, _, rfl⟩
    obtain ⟨hi, lo, htwo⟩ : ∃ hi lo : Byte, [hi, lo] = bytesOf 2 lmin := ⟨_, _, rfl⟩
    have heq : (u48 [u5, u4, u3, u2, u1, u0] 0).toNat = uid := bytesOf_six_iff.2 ⟨hlt, huid⟩
    have hleq : hi.toNat * 256 + lo.toNat = lmin := bytesOf_two_iff.2 ⟨hlmin, htwo⟩
    rw [← huid, ← htwo] at h
    obtain ⟨rfl, hfields⟩ := List.cons.inj h
    obtain rfl : fields = [u5, u4, u3, u2, u1, u0, if can then 1 else 0, hi, lo] := hfields
    have hswitch : switchOf (if can then 1 else 0) = some can := switchOf_eq_some.2 rfl
    unfold readReply
    dsimp only
    rw [if_pos rfl, heq, if_neg (by omega), hswitch, hleq]
    rfl

theorem newsOf_eq_some {news reason : Byte} {n : News} :
    newsOf news reason = some n ↔
      (∃ k, n = .fault k ∧ news = 1 ∧ reason = reasonByte k) ∨ n = .recovered ∧ news = 2 ∧ reason = 0 := by
  constructor
  · intro h
    unfold newsOf at h
    split_ifs at h with hfault hrecovered
    · obtain ⟨k, hk, rfl⟩ := Option.map_eq_some_iff.1 h
      exact .inl ⟨k, rfl, hfault, reasonOf_eq_some.1 hk⟩
    · exact .inr ⟨(Option.some.inj h).symm, hrecovered⟩
  · rintro (⟨k, rfl, rfl, rfl⟩ | ⟨rfl, rfl, rfl⟩)
    · cases k <;> rfl
    · rfl

theorem readReply_query {code : Byte} {fields : List Byte} {r : DriverReply} :
    readReply .query code fields = some r ↔
      r = .nothing ∧ code :: fields = [0xC7]
        ∨ ∃ more : Bool,
            (∃ k, r = .news more (.fault k) ∧ code :: fields = [if more then 0xC6 else 0xC5, 1, reasonByte k])
              ∨ r = .news more .recovered ∧ code :: fields = [if more then 0xC6 else 0xC5, 2, 0] := by
  constructor
  · intro h
    unfold readReply at h
    dsimp only at h
    split_ifs at h with hnothing hnews
    · obtain ⟨rfl, rfl⟩ := hnothing
      exact .inl ⟨(Option.some.inj h).symm, rfl⟩
    have hcode : code = if decide (code = 0xC6) then 0xC6 else 0xC5 := by
      obtain rfl | rfl := hnews <;> rfl
    split at h
    next news reason =>
      obtain ⟨n, hn, rfl⟩ := Option.map_eq_some_iff.1 h
      refine .inr ⟨decide (code = 0xC6), ?_⟩
      rw [← hcode]
      obtain ⟨k, rfl, rfl, rfl⟩ | ⟨rfl, rfl, rfl⟩ := newsOf_eq_some.1 hn
      · exact .inl ⟨k, rfl, rfl⟩
      · exact .inr ⟨rfl, rfl⟩
    next => nomatch h
  · rintro (⟨rfl, h⟩ | ⟨more, ⟨k, rfl, h⟩ | ⟨rfl, h⟩⟩) <;> cases h
    · rfl
    · cases more <;> cases k <;> rfl
    · cases more <;> rfl

theorem readReply_forget {code : Byte} {fields : List Byte} {r : DriverReply} :
    readReply .forget code fields = some r ↔ r = .ack ∧ code :: fields = [0xC1] := by
  unfold readReply
  dsimp only
  split_ifs with h
  · obtain ⟨rfl, rfl⟩ := h
    simp [eq_comm]
  · exact iff_of_false nofun fun hr => h (List.cons.inj hr.2)

/-! ## Whole replies (R117) -/

/-- What the fields say fixes how many characters the reply has. -/
theorem replyLength_of_readReply {f : LineFrame} {code : Byte} {fields : List Byte} {r : DriverReply}
    (h : readReply f code fields = some r) : replyLength code = some (fields.length + 3) := by
  cases f with
  | level v => obtain ⟨-, h⟩ | ⟨-, h⟩ | ⟨k, -, h⟩ := readReply_level.1 h <;> cases h <;> rfl
  | identify => obtain ⟨uid, lmin, can, -, -, -, -, h⟩ := readReply_identify.1 h; cases h; rfl
  | query =>
    obtain ⟨-, h⟩ | ⟨more, ⟨k, -, h⟩ | ⟨-, h⟩⟩ := readReply_query.1 h <;> cases h
    · rfl
    · cases more <;> rfl
    · cases more <;> rfl
  | forget => obtain ⟨-, h⟩ := readReply_forget.1 h; cases h; rfl

/-- R117: an acceptable reply is an address, the code and fields that say it, and their check byte. -/
theorem acceptReply_eq_some {f : LineFrame} {a : Nat} {got : List Byte} {r : DriverReply} :
    acceptReply f a got = some r ↔
      ∃ (driver : Byte) (code : Byte) (fields : List Byte), driver.toNat = a
        ∧ got = driver :: (code :: fields) ++ [crc8 (driver :: code :: fields)] ∧ readReply f code fields = some r := by
  constructor
  · intro h
    match got with
    | [] | [_] => nomatch h
    | driver :: code :: rest =>
      unfold acceptReply at h
      dsimp only at h
      split_ifs at h with hgood
      obtain ⟨hlength, hcheck, ha⟩ := hgood
      obtain rfl | ⟨fields, check, rfl⟩ := rest.eq_nil_or_concat
      · have := replyLength_of_readReply h
        rw [hlength] at this
        simp at this
      · rw [List.concat_eq_append, ← List.cons_append, ← List.cons_append, List.dropLast_concat, List.getLastD_concat] at hcheck
        rw [List.concat_eq_append, List.dropLast_concat] at h
        exact ⟨driver, code, fields, ha, by rw [hcheck, List.concat_eq_append]; rfl, h⟩
  · rintro ⟨driver, code, fields, ha, rfl, h⟩
    have hlength := replyLength_of_readReply h
    unfold acceptReply
    have hcheck : crc8 (driver :: (code :: fields) ++ [crc8 (driver :: code :: fields)]).dropLast
        = (driver :: (code :: fields) ++ [crc8 (driver :: code :: fields)]).getLastD 0 := by
      rw [List.dropLast_concat, List.getLastD_concat]
    refine (if_pos ⟨by rw [hlength]; simp, hcheck, ha⟩).trans ?_
    rw [List.append_eq, List.dropLast_concat, h]

/-- Settles O47. -/
theorem acceptableRepliesAreExactlyTheTable : Obligations.AcceptableRepliesAreExactlyTheTable := by
  unfold Obligations.AcceptableRepliesAreExactlyTheTable
  intro code
  have hcode : code = reasonByte := by funext k; cases k <;> rfl
  refine ⟨fun f a got r => ?_, fun f a => ?_⟩
  · rw [acceptReply_eq_some, hcode]
    constructor
    · rintro ⟨driver, c, fields, ha, hgot, h⟩
      refine ⟨driver, c :: fields, ha, hgot, ?_⟩
      cases f with
      | level v => exact readReply_level.1 h
      | identify => exact readReply_identify.1 h
      | query => exact readReply_query.1 h
      | forget => exact readReply_forget.1 h
    · rintro ⟨driver, body, ha, hgot, h⟩
      have hne : body ≠ [] := by
        rintro rfl
        cases f <;> simp at h
      obtain ⟨c, fields, rfl⟩ := List.exists_cons_of_ne_nil hne
      refine ⟨driver, c, fields, ha, hgot, ?_⟩
      cases f with
      | level v => exact readReply_level.2 h
      | identify => exact readReply_identify.2 h
      | query => exact readReply_query.2 h
      | forget => exact readReply_forget.2 h
  · rw [bytesOf_one]
    cases f with
    | level v => simp only [bytesOf_two]; rfl
    | identify => rfl
    | query => rfl
    | forget => rfl

end Sys2Proof.Machine
end

section
/-! SUPPORT. The commands of the stray queue and the ignore set (R144 to R148), and of the notice settings (R150, R151, R156,
R157). -/

namespace Sys2Proof.Machine

/-! ## The line a command names (R113) -/

/-- The checks of a command for a line that is present. -/
theorem checked_presentLine {c : Instr} {s : State} {n : Nat} {work : State → Answered} (hc : exec c s = takeCommand n work s)
    (hs : s.listening) {line : Byte} {P : Line → Prop}
    (hbad : ∀ a, presentLine s line = .error a → work s = refuse a s)
    (hgood : ∀ l, lineCode l = line.toNat → presentLine s line = .ok l → P l) :
    Checked c s [(1 < line.toNat, .badValue), (line = 1 ∧ s.straps.getLsbD 2 = false, .noLine)]
      (∀ l, lineCode l = line.toNat → P l) := by
  refine .cons (fun h => Refuses.of_work hc hs (hbad _ ?_)) fun _ => .cons (fun ⟨hline, hstrap⟩ => Refuses.of_work hc hs (hbad _ ?_))
    fun hpresent => .nil fun l hl => hgood l hl ?_
  · rw [presentLine, lineOf_eq_none.2 h]
  · subst hline
    have habsent : s.linePresent .b = false := State.linePresent_eq_false.mpr ⟨rfl, hstrap⟩
    rw [presentLine, lineOf_eq_some.2 (show lineCode .b = (1 : Byte).toNat from rfl)]
    dsimp only
    rw [habsent]
    rfl
  · have hline : line = 1 ↔ lineCode l = 1 := hl ▸ BitVec.toNat_inj.symm
    rw [hline, ← State.linePresent_eq_false, Bool.not_eq_false] at hpresent
    rw [presentLine, lineOf_eq_some.2 hl]
    exact if_pos hpresent

/-! ## Reply fields (R171) -/

theorem bytesOf_six (n : Nat) : bytesOf 6 n = put6 n := by
  simp [bytesOf, put6, put4, put2, put1, List.range_succ, Nat.div_div_eq_div_mul]

theorem bytesOf_four (n : Nat) : bytesOf 4 n = put4 n := by
  simp [bytesOf, put4, put2, put1, List.range_succ, Nat.div_div_eq_div_mul]

theorem optionalBytes_six (x : Option Nat) : optionalBytes 6 x = putOpt 6 put6 x := by
  cases x with
  | none => rfl
  | some n => rw [optionalBytes, bytesOf_six]; rfl

/-! ## READ_STRAYS and CLEAR_IGNORE (R145, R148) -/

theorem readStraysCommand_eq {line : Byte} {s : State} {l : Line} (h : presentLine s line = .ok l) :
    readStraysCommand line s = answer (strayBytes (s.line l)) s := by
  rw [readStraysCommand, h]

theorem clearIgnoreCommand_eq {line : Byte} {s : State} {l : Line} (h : presentLine s line = .ok l) :
    clearIgnoreCommand line s = done false (s.setLine l { s.line l with ignored := [] }) := by
  rw [clearIgnoreCommand, h]

/-! ## REJECT_STRAY (R144, R147) -/

theorem rejectStrayCommand_of_operands {line address : Byte} {l : Line} (hl : lineCode l = line.toNat)
    (ha : ¬ (address = 0 ∨ address = 255)) (s : State) :
    rejectStrayCommand line address s
      = if s.linePresent l then
          if (s.line l).hasStray address.toNat then done false (rejectStray l address.toNat s) else refuse .notFound s
        else refuse .noLine s := by
  rw [rejectStrayCommand, lineOf_eq_some.mpr hl, addressOf_of_not_reserved ha]
  dsimp only
  cases s.linePresent l <;> cases (s.line l).hasStray address.toNat <;> rfl

theorem rejectStrayCommand_badValue {line address : Byte} (h : 1 < line.toNat ∨ address = 0 ∨ address = 255) (s : State) :
    rejectStrayCommand line address s = refuse .badValue s := by
  unfold rejectStrayCommand
  obtain h | h := h
  · rw [lineOf_eq_none.2 h]
  · rw [addressOf_of_reserved h]
    cases lineOf line <;> rfl

theorem ignoredWith_eq (ignored : List Nat) (a : Nat) :
    ignoredWith ignored a = (if 8 ≤ ignored.length then ignored.drop 1 else ignored) ++ [a] := by
  unfold ignoredWith
  by_cases h : 8 ≤ ignored.length
  · rw [if_pos (show Config.ignoreCapacity ≤ _ from h), if_pos h]
  · rw [if_neg (show ¬ Config.ignoreCapacity ≤ _ from h), if_neg h]

/-- The line that a rejected stray leaves. -/
def rejectedLine (x : LineCtl) (a : Nat) : LineCtl :=
  { x with
    strays := x.strays.filter fun e => e.address != a
    admin := x.admin.filter fun e => e != ⟨.identify, a⟩
    ignored := (if 8 ≤ x.ignored.length then x.ignored.drop 1 else x.ignored) ++ [a] }

theorem rejectStray_of_more {s : State} {l : Line} {a : Nat} (h : ((s.line l).strays.filter fun e => e.address != a) ≠ []) :
    rejectStray l a s = s.setLine l (rejectedLine (s.line l) a) := by
  have hkept : removeStray l a s = s.setLine l { s.line l with strays := (s.line l).strays.filter fun e => e.address != a } := by
    unfold removeStray
    exact if_neg fun ⟨hempty, _⟩ => h (List.isEmpty_iff.1 hempty)
  unfold rejectStray
  dsimp only
  rw [hkept, State.line_setLine_self, ignoredWith_eq]
  cases l <;> rfl

theorem rejectStray_of_last {s : State} {l : Line} {a : Nat} (hstray : (s.line l).hasStray a = true)
    (h : ((s.line l).strays.filter fun e => e.address != a) = []) :
    rejectStray l a s = (s.setLine l (rejectedLine (s.line l) a)).setNoticeClass (strayClass l)
      { s.noticeClass (strayClass l) with holds := false, pending := false } := by
  have hsome : (s.line l).strays.isEmpty = false := by
    rw [List.isEmpty_eq_false_iff]
    rintro hnone
    rw [LineCtl.hasStray, hnone] at hstray
    simp at hstray
  have hkept : removeStray l a s = handFalse (strayClass l)
      (s.setLine l { s.line l with strays := (s.line l).strays.filter fun e => e.address != a }) := by
    unfold removeStray
    exact if_pos ⟨List.isEmpty_iff.2 h, by rw [hsome]; rfl⟩
  unfold rejectStray
  dsimp only
  rw [hkept, handFalse, ignoredWith_eq]
  cases l <;> rfl

theorem hasStray_iff {x : LineCtl} {a : Nat} : x.hasStray a = true ↔ ∃ e ∈ x.strays, e.address = a := by
  simp [LineCtl.hasStray]

/-- Settles O56. -/
theorem strayCommandsReadRejectAndClear : Obligations.StrayCommandsReadRejectAndClear := by
  intro s line address hs present shown
  have hread : exec (.readStrays line) s = takeCommand 1 (readStraysCommand line) s := rfl
  have hclear : exec (.clearIgnore line) s = takeCommand 1 (clearIgnoreCommand line) s := rfl
  have hreject : exec (.rejectStray line address) s = takeCommand 2 (rejectStrayCommand line address) s := rfl
  have hshown : shown = Stray.bytes := by
    funext e
    obtain ⟨a, uid, capability, lmin⟩ := e
    simp only [shown, Stray.bytes, bytesOf_one, optionalBytes_six, optionalBytes_two]
    obtain _ | _ | _ := capability <;> rfl
  refine ⟨checked_presentLine hread hs (fun a h => by rw [readStraysCommand, h]) fun l _ h => ?_,
    checked_presentLine hclear hs (fun a h => by rw [clearIgnoreCommand, h]) fun l _ h =>
      .of_done hclear hs (clearIgnoreCommand_eq h) (by cases l <;> rfl), ?_⟩
  · have hbytes : (bytesOf 1 : Nat → List Byte) = put1 := funext bytesOf_one
    rw [hshown, hbytes]
    exact Answers.of_work hread hs (readStraysCommand_eq h) rfl
  · refine .cons (fun h => Refuses.of_work hreject hs (rejectStrayCommand_badValue h s)) fun hgood =>
      .cons (fun ⟨hline, hstrap⟩ => Refuses.of_work hreject hs ?_) fun hpresent => .nil fun l hl => ?_
    all_goals obtain ⟨-, haddress⟩ := not_or.mp hgood
    · subst hline
      have hl : lineCode .b = (1 : Byte).toNat := rfl
      rw [rejectStrayCommand_of_operands hl haddress, State.linePresent_eq_false.mpr ⟨rfl, hstrap⟩]
      rfl
    have hline : line = 1 ↔ lineCode l = 1 := hl ▸ BitVec.toNat_inj.symm
    rw [hline, ← State.linePresent_eq_false, Bool.not_eq_false] at hpresent
    have hw := rejectStrayCommand_of_operands hl haddress s
    rw [if_pos hpresent] at hw
    have hport : ∀ (x : LineCtl), (s.setLine l x).port = s.port := fun x => by cases l <;> rfl
    refine .cons (fun h => Refuses.of_work hreject hs (hw.trans (if_neg ?_))) fun h => .nil ?_
    · rw [hasStray_iff]
      exact fun ⟨e, he, ha⟩ => h e he ha
    have hstray : (s.line l).hasStray address.toNat = true := by
      rw [hasStray_iff]
      by_contra hnone
      exact h fun e he ha => hnone ⟨e, he, ha⟩
    rw [if_pos hstray] at hw
    refine ⟨fun hkept => .of_done hreject hs ?_ (hport _), fun hkept => .of_done hreject hs ?_ (hport _)⟩
    · rw [hw, rejectStray_of_more hkept]
      rfl
    · rw [hw, rejectStray_of_last hstray hkept]
      rfl

end Sys2Proof.Machine
end

section
/-! SUPPORT. The notice settings: SET_PRIORITY, MASK, SET_AUTO_FINISH and READ_NOTICES (R150, R151, R156, R157). -/

namespace Sys2Proof.Machine

/-! ## The classes a command names (R150) -/

theorem classesOf_eq_none {b : Byte} : classesOf b = none ↔ 31 < b.toNat ∧ b ≠ 255 := by
  unfold classesOf
  by_cases hlt : b.toNat < 32
  · rw [dif_pos hlt]
    exact iff_of_false nofun fun h => absurd h.1 (by omega)
  rw [dif_neg hlt]
  by_cases hall : b = 255
  · rw [if_pos hall]
    exact iff_of_false nofun fun h => h.2 hall
  · rw [if_neg hall]
    exact iff_of_true rfl ⟨by omega, hall⟩

theorem classesOf_eq_some {b : Byte} {cs : List (Fin 32)} (h : classesOf b = some cs) :
    cs.Nodup ∧ ∀ k, k ∈ cs ↔ k.val = b.toNat ∨ b = 255 := by
  unfold classesOf at h
  split_ifs at h with hlt hall <;> obtain rfl := Option.some.inj h
  · refine ⟨List.nodup_singleton _, fun k => ?_⟩
    have hne : b ≠ 255 := by rintro rfl; exact absurd hlt (by decide)
    rw [List.mem_singleton, Fin.ext_iff]
    exact (or_iff_left hne).symm
  · exact ⟨nodup_allClasses, fun k => iff_of_true (mem_allClasses k) (.inr hall)⟩

/-! ## Every named class written (R150, R151) -/

/-- Each class of a list after a change of its own. -/
def writeClasses (cs : List (Fin 32)) (f : NoticeClass → NoticeClass) (s : State) : State :=
  forEach cs (fun c s => s.setNoticeClass c (f (s.noticeClass c))) s

theorem writeClasses_frame (cs : List (Fin 32)) (f : NoticeClass → NoticeClass) (s : State) :
    writeClasses cs f s
      = { s with notices := { s.notices with classes := (writeClasses cs f s).notices.classes } } :=
  forEach_induction (P := fun t => t = { s with notices := { s.notices with classes := t.notices.classes } }) cs rfl
    fun c _ t ht => by rw [ht]; rfl

theorem noticeClass_writeClasses {cs : List (Fin 32)} (hn : cs.Nodup) (f : NoticeClass → NoticeClass) (s : State) (k : Fin 32) :
    (writeClasses cs f s).noticeClass k = if k ∈ cs then f (s.noticeClass k) else s.noticeClass k := by
  unfold writeClasses
  induction cs generalizing s with
  | nil => rfl
  | cons c cs ih =>
    obtain ⟨hc, hn⟩ := List.nodup_cons.1 hn
    rw [forEach_cons, ih hn]
    by_cases hk : k = c
    · subst hk
      rw [if_neg hc, if_pos List.mem_cons_self, State.noticeClass_setNoticeClass_self]
    · rw [State.noticeClass_setNoticeClass_of_ne _ _ _ _ hk]
      simp only [List.mem_cons, hk, false_or]

theorem writeClasses_named {b : Byte} {cs : List (Fin 32)} (h : classesOf b = some cs) (f : NoticeClass → NoticeClass)
    (s : State) (k : Fin 32) :
    (k.val = b.toNat ∨ b = 255 → (writeClasses cs f s).noticeClass k = f (s.noticeClass k))
      ∧ (¬ (k.val = b.toNat ∨ b = 255) → (writeClasses cs f s).noticeClass k = s.noticeClass k) := by
  obtain ⟨hn, hmem⟩ := classesOf_eq_some h
  rw [noticeClass_writeClasses hn, ← hmem k]
  exact ⟨fun hk => if_pos hk, fun hk => if_neg hk⟩

/-! ## The commands -/

theorem setPriorityCommand_eq {cls value : Byte} {cs : List (Fin 32)} (h : classesOf cls = some cs) (s : State) :
    setPriorityCommand cls value s = done (outside 1 15 value.toNat)
      (writeClasses cs (fun x => { x with priority := within 1 15 value.toNat }) s) := by
  rw [setPriorityCommand, h]
  dsimp only
  rw [clamp_eq_within (by decide)]
  rfl

theorem maskCommand_eq {cls value : Byte} {cs : List (Fin 32)} (h : classesOf cls = some cs) (hv : ¬ 1 < value.toNat)
    (s : State) :
    maskCommand cls value s = done false (writeClasses cs (fun x => { x with masked := decide (value = 1) }) s) := by
  rw [maskCommand, h, switchOf_of_le hv]
  rfl

/-- R171: class marks as one number. -/
theorem testBit_marksOf (s : State) (f : NoticeClass → Bool) (k : Nat) :
    (marksOf s f).testBit k = allClasses.any fun c => c.val == k && f (s.noticeClass c) := by
  unfold marksOf
  rw [testBit_foldl_bits (fun c : Fin 32 => c.val) _ k allClasses (by decide) 0 fun _ _ => Nat.two_pow_pos _,
    Nat.zero_testBit, Bool.false_or]

theorem marksOf_lt (s : State) (f : NoticeClass → Bool) : marksOf s f < 2 ^ 32 := by
  refine Nat.lt_pow_two_of_testBit _ fun k hk => ?_
  rw [testBit_marksOf, List.any_eq_false]
  intro c _
  have : c.val ≠ k := by omega
  simp [this]

theorem testBit_marksOf_class (s : State) (f : NoticeClass → Bool) (c : Fin 32) :
    (marksOf s f).testBit c.val = f (s.noticeClass c) := by
  rw [testBit_marksOf, Bool.eq_iff_iff, List.any_eq_true]
  simp [mem_allClasses, Fin.val_inj]

/-- Settles O57. -/
theorem noticeSettingsAreWrittenAndRead : Obligations.NoticeSettingsAreWrittenAndRead := by
  intro s cls value hs named wrote marks
  have hpriority : exec (.setPriority cls value) s = takeCommand 2 (setPriorityCommand cls value) s := rfl
  have hmask : exec (.mask cls value) s = takeCommand 2 (maskCommand cls value) s := rfl
  have hfinish : exec (.setAutoFinish value) s = takeCommand 1 (setAutoFinishCommand value) s := rfl
  have hread : exec .readNotices s = takeCommand 0 readNoticesCommand s := rfl
  have hport : ∀ cs f, (writeClasses cs f s).port = s.port := fun cs f => by rw [writeClasses_frame]
  refine ⟨?_, ?_, ?_, marksOf s (·.pending), marksOf s (·.masked), marksOf s (·.holds),
    ⟨marksOf_lt .., testBit_marksOf_class _ _⟩, ⟨marksOf_lt .., testBit_marksOf_class _ _⟩,
    ⟨marksOf_lt .., testBit_marksOf_class _ _⟩, Answers.of_work hread hs ?_ rfl⟩
  · refine .cons (fun h => Refuses.of_work hpriority hs ?_) fun h => .nil ?_
    · rw [setPriorityCommand, classesOf_eq_none.2 h]
    obtain ⟨cs, hcs⟩ := Option.ne_none_iff_exists'.1 fun hnone => h (classesOf_eq_none.1 hnone)
    exact ⟨_, .of_done_clamped hpriority hs (setPriorityCommand_eq hcs s) (hport ..) (by rw [outside_eq]),
      writeClasses_frame .., writeClasses_named hcs _ s⟩
  · refine .cons (fun h => Refuses.of_work hmask hs ?_) fun h => .nil ?_
    · obtain h | h := h
      · rw [maskCommand, classesOf_eq_none.2 h]
      · rw [maskCommand, switchOf_of_gt h]
        cases classesOf cls <;> rfl
    obtain ⟨hcls, hvalue⟩ := not_or.1 h
    obtain ⟨cs, hcs⟩ := Option.ne_none_iff_exists'.1 fun hnone => hcls (classesOf_eq_none.1 hnone)
    exact ⟨_, .of_done hmask hs (maskCommand_eq hcs hvalue s) (hport ..), writeClasses_frame .., writeClasses_named hcs _ s⟩
  · refine .cons (fun h => Refuses.of_work hfinish hs ?_) fun h => .nil (.of_done hfinish hs ?_ rfl)
    · rw [setAutoFinishCommand, switchOf_of_gt h]
    · rw [setAutoFinishCommand, switchOf_of_le h]
  · have hflag : ∀ b : Bool, putFlag b = [if b then (1 : Byte) else 0] := fun b => by cases b <;> rfl
    simp only [bytesOf_four, bytesOf_one, ← hflag]
    rfl

end Sys2Proof.Machine
end

section
/-! SUPPORT. The phases of an exchange at each of its events, and the line's pins (R113 to R115, R169). -/

namespace Sys2Proof.Machine

/-! ## The characters of a reply (R115) -/

theorem replyLength_pos {code : Byte} {k : Nat} (h : replyLength code = some k) : 3 ≤ k := by
  unfold replyLength at h
  split_ifs at h <;> obtain rfl := Option.some.inj h <;> decide

theorem two_le_of_replyLength {got : List Byte} (h : replyLength (got.getD 1 0) = some got.length) : 2 ≤ got.length := by
  have := replyLength_pos h
  omega

theorem receive_reply_of_complete {got : List Byte} {c : Byte}
    (h : replyLength ((got ++ [c]).getD 1 0) = some (got ++ [c]).length) :
    (Phase.reply got).receive c = .slot (got ++ [c]) [] :=
  if_pos (replyComplete_iff.2 ⟨two_le_of_replyLength h, _, h, le_rfl⟩)

theorem receive_reply_of_short {got : List Byte} {c : Byte}
    (h : ∀ k, 2 ≤ (got ++ [c]).length → replyLength ((got ++ [c]).getD 1 0) = some k → (got ++ [c]).length < k) :
    (Phase.reply got).receive c = .reply (got ++ [c]) :=
  if_neg fun hc => by
    obtain ⟨h2, k, hk, hle⟩ := replyComplete_iff.1 hc
    exact absurd (h k h2 hk) (not_lt.2 hle)

/-- The characters up to the one that completes the reply. -/
theorem foldl_receive_reply {got chars : List Byte} (hne : chars ≠ [])
    (h : replyLength ((got ++ chars).getD 1 0) = some (got ++ chars).length) :
    chars.foldl Phase.receive (.reply got) = .slot (got ++ chars) [] := by
  induction chars generalizing got with
  | nil => exact absurd rfl hne
  | cons c rest ih =>
    rw [List.foldl_cons]
    have hsplit : got ++ c :: rest = got ++ [c] ++ rest := by simp
    obtain rfl | hrest := eq_or_ne rest []
    · rw [receive_reply_of_complete h]
      rfl
    rw [hsplit] at h ⊢
    rw [receive_reply_of_short fun k h2 hk => ?_, ih hrest h]
    rw [List.getD_append _ _ _ _ (by omega), hk] at h
    rw [Option.some.inj h, List.length_append (as := got ++ [c])]
    have := List.length_pos_iff.2 hrest
    omega

theorem foldl_receive_window {chars : List Byte} (hne : chars ≠ []) (h : replyLength (chars.getD 1 0) = some chars.length) :
    chars.foldl Phase.receive .window = .slot chars [] := by
  obtain ⟨c, rest, rfl⟩ := List.exists_cons_of_ne_nil hne
  have hrest : rest ≠ [] := by
    rintro rfl
    exact absurd (two_le_of_replyLength h) (by simp)
  exact foldl_receive_reply (got := [c]) hrest h

/-! ## The pins of a line (R114, R169) -/

theorem lineSending_of_frame {s : State} {l : Line} {x : Exchange} (hs : s.resetN = true) (hp : s.linePresent l = true)
    (hx : (s.line l).state = .busy x) (hphase : x.phase = .frame) : lineSending s l = some x.characters := by
  unfold lineSending
  rw [hs, hp, hx]
  exact if_pos hphase

theorem lineSending_of_not_frame {s : State} {l : Line} (h : ∀ x, (s.line l).state = .busy x → x.phase ≠ .frame) :
    lineSending s l = none := by
  unfold lineSending
  split
  · split
    next x hx => exact if_neg (h x hx)
    all_goals rfl
  · rfl

theorem lineSending_of_absent {s : State} {l : Line} (h : s.linePresent l = false) : lineSending s l = none := by
  unfold lineSending
  rw [h, Bool.and_false, if_neg (by decide)]

theorem pins_of_not_sending {s : State} {l : Line} (h : lineSending s l = none) :
    lineEnable s l = false ∧ lineTx s l = .idle := by
  rw [lineEnable, lineTx, h]
  exact ⟨rfl, rfl⟩

theorem pins_of_sending {s : State} {l : Line} {chars : List Byte} (h : lineSending s l = some chars) :
    lineEnable s l = true ∧ lineTx s l = .sending chars := by
  rw [lineEnable, lineTx, h]
  exact ⟨rfl, rfl⟩

theorem linePresent_iff {s : State} {l : Line} : s.linePresent l = true ↔ l = .a ∨ s.straps.getLsbD 2 = true := by
  cases l <;> simp [State.linePresent]

/-! ## The events -/

theorem quietEnded_of_quiet {s : State} {l : Line} (h : (s.line l).state = .quiet) :
    quietEnded l s = if s.linePresent l then s.setLine l { s.line l with state := .idle } else s := by
  unfold quietEnded
  rw [h]

theorem quietEnded_of_absent {s : State} {l : Line} (h : s.linePresent l = false) : quietEnded l s = s := by
  unfold quietEnded
  rw [h]
  split <;> rfl

theorem exec_withPhase {s : State} {l : Line} {x : Exchange} {c : Instr} {f : Phase → Phase} (hs : s.resetN = true)
    (hc : exec c s = event (withPhase l f) s) (hx : (s.line l).state = .busy x) {ph ph' : Phase} (hph : x.phase = ph)
    (hf : f ph = ph') : exec c s = .next (s.setLine l { s.line l with state := .busy { x with phase := ph' } }) := by
  rw [hc, event_of_high hs, withPhase_busy hx, hph, hf]

/-- Settles O46. -/
theorem exchangePassesThroughItsPhases : Obligations.ExchangePassesThroughItsPhases := by
  intro s l hs
  have hbegun : ∀ c, exec (.replyBegun l c) s = event (withPhase l fun ph => ph.receive c) s := fun _ => rfl
  have hquiet : exec (.quietPeriodEnd l) s = .next (quietEnded l s) := event_of_high hs _
  refine ⟨fun x hx => ?_, fun hrest => ?_, fun hq hpresent => ?_, fun hl hstrap => ?_⟩
  · intro moved
    refine ⟨fun hph => ⟨?_, fun c => ?_⟩, fun hph => ⟨?_, fun c => ?_⟩, fun got hph =>
      ⟨?_, fun c hshort => ?_, fun c hwhole => ?_⟩, fun got chars hph hne hwhole => ?_, fun said asked c hph => ?_,
      fun hpresent => ⟨fun hph => ?_, fun hph => ?_⟩⟩
    · exact exec_withPhase hs (c := .frameEnd l) (f := Phase.afterFrame) rfl hx hph rfl
    · have hsame : s.setLine l { s.line l with state := .busy { x with phase := .frame } } = s := by
        rw [← hph, ← hx]
        cases l <;> rfl
      rw [exec_withPhase hs (hbegun c) hx hph rfl]
      exact congrArg _ hsame
    · exact exec_withPhase hs (c := .replyWindowClose l) (f := Phase.afterWindow) rfl hx hph rfl
    · exact exec_withPhase hs (hbegun c) hx hph rfl
    · exact exec_withPhase hs (c := .replyGapTimeout l) (f := Phase.afterGap) rfl hx hph rfl
    · exact exec_withPhase hs (hbegun c) hx hph (receive_reply_of_short fun k _ => hshort k)
    · exact exec_withPhase hs (hbegun c) hx hph (receive_reply_of_complete hwhole)
    · have hc : exec (.replyReceived l chars) s = event (withPhase l fun ph => chars.foldl Phase.receive ph) s := rfl
      obtain ⟨hph, rfl⟩ | hph := hph
      · exact exec_withPhase hs hc hx hph (foldl_receive_window hne hwhole)
      · exact exec_withPhase hs hc hx hph (foldl_receive_reply hne hwhole)
    · exact exec_withPhase hs (hbegun c) hx hph rfl
    · exact pins_of_sending (lineSending_of_frame hs (linePresent_iff.2 hpresent) hx hph)
    · refine pins_of_not_sending (lineSending_of_not_frame fun y hy => ?_)
      rw [hx] at hy
      cases hy
      exact hph
  · have hnot : lineSending s l = none := lineSending_of_not_frame fun x hx => by
      obtain h | h := hrest <;> cases h.symm.trans hx
    obtain ⟨henable, htx⟩ := pins_of_not_sending hnot
    exact ⟨henable, htx, fun c => by rw [hbegun, event_of_high hs, withPhase_of_not_busy hrest]⟩
  · rw [hquiet, quietEnded_of_quiet hq, if_pos (linePresent_iff.2 hpresent)]
  · have habsent : s.linePresent l = false := State.linePresent_eq_false.2 ⟨by rw [hl]; rfl, hstrap⟩
    obtain ⟨henable, htx⟩ := pins_of_not_sending (lineSending_of_absent habsent)
    exact ⟨henable, htx, by rw [hquiet, quietEnded_of_absent habsent]⟩

end Sys2Proof.Machine
end

section
/-! SUPPORT. What a grant of the arbiter does (R102, R115, R116, R128 to R130). -/

namespace Sys2Proof.Machine

/-! ## A grant to a cursor -/

/-- What a cursor's grant leaves once the roster and the line controller are written. -/
theorem cursorGranted_on {s : State} {p : Fin 4} {w : Walk} (hw : (s.sweep p).running = some w) (l : Line) (n : Nat)
    (ro : Roster) (y : LineCtl) :
    let t := cursorGranted p l n (({ s with roster := ro } : State).setLine l y)
    t.line l = y ∧ t.roster = ro ∧ (t.sweep p).running = some (w.setCursor l { position := some n, phase := .onLine n })
      ∧ ∃ ro ws, t = ({ s with roster := ro, sweeps := ws }).setLine l (t.line l) ∧ ∀ q, q ≠ p → t.sweep q = s.sweep q := by
  intro t
  have hrunning : ((({ s with roster := ro } : State).setLine l y).sweep p).running = some w := by cases l <;> exact hw
  have ht : t = (({ s with roster := ro } : State).setLine l y).setSweep p
      { s.sweep p with running := some (w.setCursor l { position := some n, phase := .onLine n }) } := by
    show cursorGranted p l n _ = _
    unfold cursorGranted
    rw [hrunning]
    cases l <;> rfl
  have hline : t.line l = y := by rw [ht]; cases l <;> rfl
  refine ⟨hline, by rw [ht]; cases l <;> rfl, by rw [ht, State.sweep_setSweep_self], ro, t.sweeps, ?_, fun q hq => ?_⟩
  · rw [hline, ht]
    cases l <;> rfl
  · rw [ht, State.sweep_setSweep_of_ne _ _ _ _ hq]
    cases l <;> rfl

theorem servedCursor_eq (c : LineCtl) (cls : SweepClass) (p : Fin 4) (st : LineState) :
    c.servedCursor cls p st = { c with
      state := st
      fairness := if cls = .normal then 0 else c.fairness
      normalPointer := if cls = .normal then p else c.normalPointer
      emergencyPointer := if cls = .normal then c.emergencyPointer else p } := by
  cases cls <;> rfl

/-- The frame of an eligible record. -/
theorem sweepFrame_of_eligibleOn {r : Record} {l : Line} (h : r.eligibleOn l = true) :
    r.sweepFrame = some (if r.state = .probation then .identify else .level) := by
  obtain ⟨-, hframe⟩ := Bool.and_eq_true_iff.1 h
  obtain ⟨f, hf⟩ := Option.isSome_iff_exists.1 hframe
  rw [hf]
  unfold Record.sweepFrame at hf
  split at hf
  next hs => rw [hs, ← hf]; rfl
  next hs => rw [hs, ← hf]; rfl
  next hs => rw [hs, ← hf]; rfl
  next hs =>
    rw [hs]
    split at hf
    all_goals cases hf
    all_goals rfl
  all_goals nomatch hf

theorem cursorGranted_of_waits {s : State} (hw : rosterWf s.roster = true) {l : Line} {cls : SweepClass} {p : Fin 4} {n : Nat}
    (h : CursorWaits s l cls p n) : CursorGranted s (grantCursor l cls p n s) l cls p n := by
  obtain ⟨w, k, hrunning, -, -, -, hwait⟩ := h
  obtain ⟨-, heligible, hin⟩ := eligibleAt_of_waitingSlot hw hwait
  have hn : n < 512 := by
    by_contra hge
    rw [State.record_of_ge hw (not_lt.1 hge)] at heligible
    exact absurd heligible (by cases l <;> decide)
  have hwalk : ∀ v, (s.sweep p).running = some v → v = w := fun v hv => Option.some.inj (hv.symm.trans hrunning)
  have hframe := sweepFrame_of_eligibleOn heligible
  by_cases hprobation : (s.record n).state = .probation
  · rw [if_pos hprobation] at hframe
    obtain ⟨hline, hroster, hsweep, frame⟩ := cursorGranted_on hrunning l n s.roster ((s.line l).servedCursor cls p
      (begun .identify (placeAddress (s.record n).place) (.cursor p)))
    have hrecord := fun k => record_of_roster hroster k
    unfold CursorGranted
    dsimp only
    rw [grantCursor_of_identify hframe]
    refine ⟨fun a ha => ?_, ?_, fun k _ => hrecord k, fun v hv => ?_, frame⟩
    · rw [if_pos hprobation, ← servedCursor_eq]
      refine hline.trans ?_
      rw [ha]
      rfl
    · rw [if_pos hprobation]
      exact hrecord n
    · rw [hwalk v hv]
      exact hsweep
  · rw [if_neg hprobation] at hframe
    have hset : s.setRecord n { s.record n with lastSent := some (levelOfSlot s n) } = { s with
        roster := (s.setRecord n { s.record n with lastSent := some (levelOfSlot s n) }).roster } := by
      rw [State.setRecord_of_lt hn]
    obtain ⟨hline, hroster, hsweep, frame⟩ := cursorGranted_on hrunning l n
      (s.setRecord n { s.record n with lastSent := some (levelOfSlot s n) }).roster ((s.line l).servedCursor cls p
        (begun (.level (levelOfSlot s n)) (placeAddress (s.record n).place) (.cursor p)))
    rw [← hset] at hline hroster hsweep frame
    have hrecord := fun k => record_of_roster hroster k
    unfold CursorGranted
    dsimp only
    rw [grantCursor_of_level hframe]
    refine ⟨fun a ha => ?_, ?_, fun k hk => ?_, fun v hv => ?_, frame⟩
    · rw [if_neg hprobation, ← servedCursor_eq]
      refine hline.trans ?_
      rw [ha]
      rfl
    · rw [if_neg hprobation]
      exact (hrecord n).trans (State.record_setRecord_self hw hn _)
    · exact (hrecord k).trans (State.record_setRecord_of_ne hw n _ hk)
    · rw [hwalk v hv]
      exact hsweep

/-! ## The arbiter (R128) -/

theorem firstWaiting_of_first {s : State} {l : Line} {cls : SweepClass} {pointer p : Fin 4} {n : Nat}
    (h : CursorWaits s l cls p n) (hfirst : ∀ k, (∃ n, CursorWaits s l cls k n) → turnAfter pointer p ≤ turnAfter pointer k) :
    firstWaiting s l cls pointer = some (p, n) :=
  firstWaiting_eq_some.2 ⟨h, fun q k hk => hfirst q ⟨k, hk⟩⟩

theorem firstWaiting_of_none {s : State} {l : Line} {cls : SweepClass} {pointer : Fin 4}
    (h : ∀ k, ¬ ∃ n, CursorWaits s l cls k n) : firstWaiting s l cls pointer = none :=
  firstWaiting_eq_none.2 fun p n hw => h p ⟨n, hw⟩

/-- Settles O48. -/
theorem arbiterGrantsInOrder : Obligations.ArbiterGrantsInOrder := by
  intro s l hs hw c waits turn begins
  have hgrant : exec (.arbiterGrant l) s = .next (arbiterGrant l s) := event_of_high hs _
  rw [hgrant]
  refine ⟨fun h => by rw [arbiterGrant_of_not_idle h], fun hidle => ⟨fun p n hp hfirst => ?_, fun hcalm =>
    ⟨fun p n hp hfirst hturn => ?_, fun hturn => ⟨fun e rest he => ?_, fun a rest hadmin ha => ?_⟩,
      fun hnone hadmin hservice => ?_⟩⟩⟩
  · rw [arbiterGrant_some hidle (chooseGrantee_emergency (firstWaiting_of_first hp hfirst))]
    exact ⟨_, rfl, cursorGranted_of_waits hw hp⟩
  all_goals have hcalm' := firstWaiting_of_none (pointer := c.emergencyPointer) hcalm
  · rw [arbiterGrant_some hidle (chooseGrantee_normal hcalm' (firstWaiting_of_first hp hfirst) hturn)]
    exact ⟨_, rfl, cursorGranted_of_waits hw hp⟩
  · have hchosen := chooseGrantee_unhurried hcalm' (hturn.imp id firstWaiting_of_none)
    unfold chooseUnhurried at hchosen
    rw [show (s.line l).admin = e :: rest from he] at hchosen
    rw [arbiterGrant_some hidle hchosen]
    cases hkind : e.kind
    · simp only [grantTo, hkind]
      rfl
    · simp only [grantTo, hkind]
      rfl
  · have hchosen := chooseGrantee_unhurried hcalm' (hturn.imp id firstWaiting_of_none)
    unfold chooseUnhurried at hchosen
    rw [show (s.line l).admin = [] from hadmin, show (s.line l).service = a :: rest from ha] at hchosen
    rw [arbiterGrant_some hidle hchosen]
    rfl
  · have hnone' := firstWaiting_of_none (pointer := c.normalPointer) hnone
    have hchosen := chooseGrantee_unhurried hcalm' (.inr hnone')
    rw [hnone'] at hchosen
    unfold chooseUnhurried at hchosen
    rw [show (s.line l).admin = [] from hadmin, show (s.line l).service = [] from hservice] at hchosen
    rw [arbiterGrant_none hidle hchosen]

end Sys2Proof.Machine
end

section
/-! SUPPORT. Sweeps that start or restart, placed at the first slot (R99, R107), and requests that a settling of the sweeps
follows (R98, R100, R106). -/

namespace Sys2Proof.Machine

/-! ## The waiting slot (R100) -/

theorem find?_le {α : Type} {f : α → Bool} {rank : α → Nat} {l : List α} (hrise : l.Pairwise fun a b => rank a < rank b)
    {a : α} (ha : l.find? f = some a) {x : α} (hx : x ∈ l) (hf : f x = true) : rank a ≤ rank x := by
  induction l with
  | nil => nomatch hx
  | cons y l ih =>
    obtain ⟨hy, hl⟩ := List.pairwise_cons.1 hrise
    rw [List.find?_cons] at ha
    split at ha
    · obtain rfl := Option.some.inj ha
      obtain rfl | hx := List.mem_cons.1 hx
      · exact le_rfl
      · exact (hy x hx).le
    next hnot =>
      obtain rfl | hx := List.mem_cons.1 hx
      · rw [hf] at hnot; nomatch hnot
      · exact ih hl ha hx

theorem rosterWfFrom_rises {low : Nat} {t : Roster} (hw : rosterWfFrom low t = true) : t.Pairwise fun a b => a.1 < b.1 := by
  induction t generalizing low with
  | nil => exact .nil
  | cons e rest ih =>
    obtain ⟨k, r⟩ := e
    obtain ⟨-, -, -, hrest⟩ := rosterWfFrom_cons.1 hw
    exact .cons (fun x hx => (rosterWfFrom_mem hrest hx).1) (ih hrest)

theorem waitingSlot_eq_some {s : State} (hw : rosterWf s.roster = true) {p : Fin 4} {l : Line} {k n : Nat} :
    waitingSlot s p l k = some n ↔ k ≤ n ∧ EligibleAt s p l n ∧ ∀ j, k ≤ j → EligibleAt s p l j → n ≤ j := by
  have first : ∀ m, waitingSlot s p l k = some m → ∀ j, k ≤ j → EligibleAt s p l j → m ≤ j := by
    intro m hm j hj helig
    obtain ⟨e, he, rfl⟩ := Option.map_eq_some_iff.1 hm
    have hmem : (j, s.record j) ∈ s.roster := mem_of_rosterGet fun hv => by
      have := helig.1
      rw [State.record, hv] at this
      exact absurd this (by cases l <;> decide)
    exact find?_le (rank := Prod.fst) (rosterWfFrom_rises hw) he hmem (by simp [hj, helig.1, helig.2])
  constructor
  · intro h
    obtain ⟨hk, helig⟩ := eligibleAt_of_waitingSlot hw h
    exact ⟨hk, helig, first n h⟩
  · rintro ⟨hk, helig, hfirst⟩
    obtain ⟨m, hm⟩ := Option.ne_none_iff_exists'.1 ((waitingSlot_ne_none hw).2 ⟨n, hk, helig⟩)
    obtain ⟨hkm, heligm⟩ := eligibleAt_of_waitingSlot hw hm
    rw [hm, le_antisymm (first m hm n hk helig) (hfirst m hkm heligm)]

theorem waitingSlot_eq_none {s : State} (hw : rosterWf s.roster = true) {p : Fin 4} {l : Line} {k : Nat} :
    waitingSlot s p l k = none ↔ ∀ n, k ≤ n → ¬ EligibleAt s p l n := by
  have := (waitingSlot_ne_none hw (p := p) (l := l) (k := k)).not
  rw [not_not] at this
  rw [this]
  exact ⟨fun h n hk hn => h ⟨n, hk, hn⟩, fun h ⟨n, hk, hn⟩ => h n hk hn⟩

/-! ## A walk placed at the first slot (R99, R107) -/

/-- The walk of a sweep that begins. -/
def placedWalk (cls : SweepClass) (p : Fin 4) (old : Option Walk) (s : State) : Walk where
  cls := cls
  cursorA := settledCursor s p .a (placedCursor (firstPosition s p) (old.map (·.cursorA)))
  cursorB := settledCursor s p .b (placedCursor (firstPosition s p) (old.map (·.cursorB)))

theorem placedWalk_cursor (cls : SweepClass) (p : Fin 4) (old : Option Walk) (s : State) (l : Line) :
    (placedWalk cls p old s).cursor l
      = settledCursor s p l (placedCursor (firstPosition s p) (old.map (·.cursor l))) := by
  cases l <;> rfl

theorem settledCursor_congr {s t : State} (hroster : t.roster = s.roster) (hplans : t.plans = s.plans) (p : Fin 4) (l : Line)
    (c : Cursor) : settledCursor t p l c = settledCursor s p l c := by
  unfold settledCursor
  simp only [waitingSlot_congr hroster (show t.plan p = s.plan p by rw [State.plan, hplans, State.plan])]

theorem sweep_beginSweep (cls : SweepClass) (p : Fin 4) (s : State) :
    (beginSweep cls p s).sweep p
      = { running := some (placedWalk cls p (s.sweep p).running s), owed := (s.sweep p).owed, done := false } := by
  unfold beginSweep
  dsimp only
  unfold settleCursors
  rw [State.sweep_setSweep_self]
  dsimp only
  rw [State.sweep_setSweep_self]
  rfl

theorem firstPosition_eq (s : State) (p : Fin 4) : firstPosition s p = (s.plan p).map (·.base) := by
  unfold firstPosition
  cases s.plan p <;> rfl

/-- A cursor that was ON_LINE keeps its exchange and is placed at the first slot. -/
theorem placedWalk_of_onLine {cls : SweepClass} {p : Fin 4} {w : Walk} {s : State} {l : Line} (h : w.onLine l) :
    (placedWalk cls p (some w) s).cursor l = { position := firstPosition s p, phase := .onLineRestarted } := by
  rw [placedWalk_cursor]
  unfold placedCursor
  obtain ⟨n, hn⟩ | hr := h
  · simp only [Option.map_some, hn]
    rfl
  · simp only [Option.map_some, hr]
    rfl

/-- Any other cursor looks from the first slot. -/
theorem placedWalk_of_not_onLine {cls : SweepClass} {p : Fin 4} {old : Option Walk} {s : State} {l : Line}
    (h : ¬ ∃ w, old = some w ∧ w.onLine l) :
    (placedWalk cls p old s).cursor l = settledCursor s p l (.from (firstPosition s p)) := by
  rw [placedWalk_cursor]
  unfold placedCursor
  split
  · rfl
  next c hc =>
    obtain ⟨w, rfl, rfl⟩ := Option.map_eq_some_iff.1 hc
    split
    next n hn => exact absurd ⟨w, rfl, .inl ⟨n, hn⟩⟩ h
    next hr => exact absurd ⟨w, rfl, .inr hr⟩ h
    all_goals rfl

theorem settledCursor_from_some (s : State) (p : Fin 4) (l : Line) (k : Nat) :
    settledCursor s p l (.from (some k))
      = if (waitingSlot s p l k).isSome then { position := some k, phase := .waiting } else { position := none, phase := .passed } :=
  rfl

theorem settledCursor_from_first_of_least {s : State} (hw : rosterWf s.roster = true) {p : Fin 4} {l : Line} {n : Nat}
    (hn : EligibleAt s p l n) (hleast : ∀ k, EligibleAt s p l k → n ≤ k) :
    settledCursor s p l (.from (firstPosition s p)) = { position := firstPosition s p, phase := .waiting }
      ∧ ∃ k, firstPosition s p = some k ∧ waitingSlot s p l k = some n := by
  obtain ⟨k, hk, hkn⟩ := first_le_of_eligibleAt hn
  have hwait : waitingSlot s p l k = some n := (waitingSlot_eq_some hw).2 ⟨hkn, hn, fun j _ hj => hleast j hj⟩
  refine ⟨?_, k, hk, hwait⟩
  rw [hk, settledCursor_from_some, hwait]
  rfl

theorem settledCursor_from_first_of_none {s : State} (hw : rosterWf s.roster = true) {p : Fin 4} {l : Line}
    (h : ∀ n, ¬ EligibleAt s p l n) :
    settledCursor s p l (.from (firstPosition s p)) = { position := none, phase := .passed } := by
  cases hk : firstPosition s p with
  | none => rfl
  | some k => rw [settledCursor_from_some, (waitingSlot_eq_none hw).2 fun n _ => h n]; rfl

/-! ## What a start or restart leaves (R99, R106, R107) -/

theorem bothPassed_iff {s : State} {p : Fin 4} {w : Walk} (hw : (s.sweep p).running = some w) :
    bothPassed s p = true ↔ ∀ l, (w.cursor l).phase = .passed := by
  unfold bothPassed
  rw [hw]
  simp only [Bool.and_eq_true, beq_iff_eq]
  exact ⟨fun ⟨ha, hb⟩ l => by cases l; exacts [ha, hb], fun h => ⟨h .a, h .b⟩⟩

/-- R106: the end of a sweep that owes none. -/
theorem endIfPassed_of_not_owed {p : Fin 4} {s : State} (ho : (s.sweep p).owed = false) :
    endIfPassed p s = if bothPassed s p then closeSweep p s else s := by
  have howed : ((closeSweep p s).sweep p).owed = false := by simp [closeSweep, handEvent, ho]
  unfold endIfPassed startOwed
  rw [howed]
  rfl

theorem sweep_closeSweep (p : Fin 4) (s : State) :
    (closeSweep p s).sweep p = { s.sweep p with running := none, done := true } := by
  simp [closeSweep, handEvent]

theorem placedWalk_passed_iff {cls : SweepClass} {p : Fin 4} {old : Option Walk} {s : State} (hw : rosterWf s.roster = true)
    {l : Line} : ((placedWalk cls p old s).cursor l).phase = .passed
      ↔ ¬ (∃ w, old = some w ∧ w.onLine l) ∧ ∀ n, ¬ EligibleAt s p l n := by
  by_cases hkept : ∃ w, old = some w ∧ w.onLine l
  · obtain ⟨w, rfl, hon⟩ := hkept
    rw [placedWalk_of_onLine hon]
    exact iff_of_false nofun fun h => h.1 ⟨w, rfl, hon⟩
  rw [placedWalk_of_not_onLine hkept, and_iff_right hkept]
  constructor
  · intro hp n hn
    obtain ⟨m, hm, hleast⟩ : ∃ m, EligibleAt s p l m ∧ ∀ k, EligibleAt s p l k → m ≤ k := by
      classical exact ⟨Nat.find ⟨n, hn⟩, Nat.find_spec ⟨n, hn⟩, fun k hk => Nat.find_min' _ hk⟩
    rw [(settledCursor_from_first_of_least hw hm hleast).1] at hp
    nomatch hp
  · intro h
    rw [settledCursor_from_first_of_none hw h]

/-- R99, R107: a sweep that begins and owes none is placed at the first slot, or has ended as it started. -/
theorem sweepPlaced_beginSweep {p : Fin 4} {s : State} (hw : rosterWf s.roster = true) (ho : (s.sweep p).owed = false)
    (cls : SweepClass) : SweepPlaced p cls (s.sweep p).running s (endIfPassed p (beginSweep cls p s)) := by
  have hsweep := sweep_beginSweep cls p s
  rw [ho] at hsweep
  have honly := onlySweeps_beginSweep cls p s
  rw [endIfPassed_of_not_owed (by rw [hsweep])]
  have hpassed : bothPassed (beginSweep cls p s) p = true ↔
      ∀ l, ¬ (∃ w, (s.sweep p).running = some w ∧ w.onLine l) ∧ ∀ n, ¬ EligibleAt s p l n :=
    (bothPassed_iff (by rw [hsweep])).trans (forall_congr' fun l => placedWalk_passed_iff hw)
  refine ⟨fun ⟨l, hl⟩ => ?_, fun h => ?_⟩
  · have hnot : ¬ bothPassed (beginSweep cls p s) p = true := fun hp => by
      obtain ⟨hkept, hnone⟩ := hpassed.1 hp l
      obtain h | ⟨n, hn⟩ := hl
      · exact hkept h
      · exact hnone n hn
    rw [if_neg hnot, ← firstPosition_eq]
    refine ⟨_, hsweep, rfl, fun l => ⟨fun ⟨w, hold, hon⟩ => ?_, fun hkept => ⟨fun n hn hleast => ?_, fun hnone => ?_⟩⟩⟩
    · rw [hold]
      exact placedWalk_of_onLine hon
    · rw [placedWalk_of_not_onLine hkept]
      obtain ⟨hcursor, k, hk, hwait⟩ := settledCursor_from_first_of_least hw hn hleast
      exact ⟨hcursor, k, hk, by rw [waitingSlot_congr honly.roster (honly.plan p), hwait]⟩
    · rw [placedWalk_of_not_onLine hkept, settledCursor_from_first_of_none hw hnone]
  · rw [if_pos (hpassed.2 h)]
    exact ⟨by rw [sweep_closeSweep, hsweep], closeSweep_pending p _⟩

theorem SweepPlaced.of_kept {p : Fin 4} {cls : SweepClass} {old : Option Walk} {s t u : State} (h : SweepPlaced p cls old s t)
    (hkept : SweepKept p t u) (honly : OnlySweeps t u) : SweepPlaced p cls old s u := by
  obtain ⟨hsweep, -, hdone⟩ := hkept
  unfold SweepPlaced at h ⊢
  simp only [hsweep, hdone, waitingSlot_congr honly.roster (honly.plan p)]
  exact h

/-- What the placing of a sweep asks of a state: the plan, and the records that are eligible. -/
theorem SweepPlaced.of_eq {p : Fin 4} {cls : SweepClass} {old : Option Walk} {s s' t : State} (h : SweepPlaced p cls old s t)
    (hroster : s'.roster = s.roster) (hplans : s'.plans = s.plans) : SweepPlaced p cls old s' t := by
  unfold SweepPlaced at h ⊢
  simp only [eligibleAt_congr hroster hplans, show s'.plan p = s.plan p by rw [State.plan, hplans, State.plan]]
  exact h

theorem refreshTimer_endIfPassed_beginSweep {p : Fin 4} {s : State} (ho : (s.sweep p).owed = false) (cls : SweepClass) :
    ((endIfPassed p (beginSweep cls p s)).portal p).refreshTimer = some (s.portal p).ramp.refresh := by
  rw [endIfPassed_of_not_owed (by rw [sweep_beginSweep, ho])]
  split
  · exact beginSweep_refreshTimer cls p s
  · exact beginSweep_refreshTimer cls p s

/-- R99: a sweep of an IDLE portal that owes none has started. -/
theorem sweepStarted_startSweep {p : Fin 4} {s : State} (hw : rosterWf s.roster = true) (hidle : (s.sweep p).running = none)
    (ho : (s.sweep p).owed = false) (cls : SweepClass) : SweepStarted p cls s (startSweep cls p s) := by
  refine ⟨refreshTimer_endIfPassed_beginSweep ho cls, ?_⟩
  have := sweepPlaced_beginSweep hw ho cls
  rwa [hidle] at this

/-! ## A settling after a request (R98, R100, R106) -/

theorem settledCursor_of_law {s : State} {p : Fin 4} {l : Line} {c : Cursor} (h : CursorLaw s p l c) :
    settledCursor s p l c = c := by
  unfold CursorLaw at h
  unfold settledCursor
  split
  next hp =>
    rw [hp] at h
    obtain ⟨n, hn, hwait⟩ := h
    rw [hn]
    exact if_pos (Option.isSome_iff_ne_none.2 hwait)
  all_goals rfl

theorem State.setSweep_self (s : State) (p : Fin 4) : s.setSweep p (s.sweep p) = s := by
  have hset : s.sweeps.set p (s.sweep p) = s.sweeps := Vector.set_getElem_self ..
  rw [State.setSweep, hset]

/-- R100: a sweep under its law is settled. -/
theorem settleCursors_of_law {s : State} {p : Fin 4} (h : SweepLawAt s p) : settleCursors p s = s := by
  unfold settleCursors
  split
  · rfl
  next w hw =>
    obtain ⟨ha, hb, -, -⟩ := h.1 w hw
    rw [settledCursor_of_law ha, settledCursor_of_law hb, ← hw]
    exact State.setSweep_self s p

theorem endIfPassed_of_law {s : State} {p : Fin 4} (h : SweepLawAt s p) : endIfPassed p s = s := by
  unfold endIfPassed
  refine if_neg fun hpassed => ?_
  cases hw : (s.sweep p).running with
  | none => unfold bothPassed at hpassed; rw [hw] at hpassed; nomatch hpassed
  | some w =>
    obtain ⟨-, -, hnot, -⟩ := h.1 w hw
    have hall := (bothPassed_iff hw).1 hpassed
    exact hnot.elim (absurd (hall .a)) (absurd (hall .b))

theorem settle_of_law {s : State} {p : Fin 4} (h : SweepLawAt s p) : endIfPassed p (settleCursors p s) = s := by
  rw [settleCursors_of_law h, endIfPassed_of_law h]

/-- A settling of all sweeps, seen from one portal: its own part comes once, and the others' keep its sweep. -/
theorem settleSweeps_at {A B : State → Prop} (p : Fin 4) {s : State} (own : ∀ t, A t → B (endIfPassed p (settleCursors p t)))
    (keepsA : ∀ t u, SweepKept p t u → OnlySweeps t u → A t → A u) (keepsB : ∀ t u, SweepKept p t u → OnlySweeps t u → B t → B u)
    (h : A s) : B (settleSweeps s) :=
  forEach_each (P := fun t k => k = p → A t) (Q := fun t k => k = p → B t)
    (f := fun k t => endIfPassed k (settleCursors k t)) allPortals nodup_allPortals
    (fun k t hA hk => by subst hk; exact own t (hA rfl))
    (fun k j t hj hA hp => keepsA t _ (sweepKept_settle (hp ▸ hj) t) (onlySweeps_settle k t) (hA hp))
    (fun k j t hj hB hp => keepsB t _ (sweepKept_settle (hp ▸ hj) t) (onlySweeps_settle k t) (hB hp))
    (fun k _ _ => h) p (mem_allPortals p) rfl

theorem SweepAsked.keep {p : Fin 4} {s t u : State} (h : SweepAsked p s t) (hkept : SweepKept p t u) (honly : OnlySweeps t u) :
    SweepAsked p s u := by
  obtain ⟨hsweep, hportal, hdone⟩ := hkept
  unfold SweepAsked at h ⊢
  simp only [hsweep, hportal, hdone, honly.eligibleAt, honly.walkOver]
  exact h

/-- What a request leaves of a portal that is not HALTED: a sweep that is owed beside the one that ran, or one that has
started. -/
def RequestTaken (p : Fin 4) (s t : State) : Prop :=
  SweepAsked p s t ∧ OnlySweeps s t
    ∧ (SweepLawAt t p ∨ (t.sweep p).running = (s.sweep p).running ∧ (t.sweep p).owed = true)

theorem requestTaken_requestSweep {p : Fin 4} {s : State} (h : (s.portal p).mode ≠ .halted) :
    RequestTaken p s (requestSweep p s) := by
  refine ⟨sweepAsked_requestSweep p s, onlySweeps_requestSweep p s, ?_⟩
  unfold requestSweep
  rw [if_neg h]
  split
  · exact .inl (sweepLawAt_startSweep ..)
  · exact .inr ⟨by rw [State.sweep_setSweep_self], by rw [State.sweep_setSweep_self]⟩

theorem RequestTaken.keep {p : Fin 4} {s t u : State} (h : RequestTaken p s t) (hkept : SweepKept p t u)
    (honly : OnlySweeps t u) : RequestTaken p s u := by
  obtain ⟨hasked, hsweeps, hlaw⟩ := h
  refine ⟨hasked.keep hkept honly, hsweeps.trans honly, hlaw.imp (fun h => h.other hkept honly) fun h => ?_⟩
  rwa [hkept.1]

theorem RequestTaken.settled {p : Fin 4} {s t : State} (h : RequestTaken p s t) :
    SweepAsked p s (endIfPassed p (settleCursors p t)) := by
  obtain ⟨hasked, hsweeps, hlaw | ⟨hrunning, howed⟩⟩ := h
  · rwa [settle_of_law hlaw]
  refine hasked.settled (hsweeps.mode p) (by rw [hsweeps.portal p]) (fun w w' hw hw' hover => ?_) fun hnot => ?_
  · rw [hrunning, hw] at hw'
    obtain rfl := Option.some.inj hw'
    exact hover
  · rw [howed] at hnot
    nomatch hnot

/-- R97, R98, R100: a request that a settling of the sweeps follows. -/
theorem RequestTaken.settleSweeps {p : Fin 4} {s t : State} (h : RequestTaken p s t) : SweepAsked p s (settleSweeps t) :=
  settleSweeps_at (A := RequestTaken p s) (B := SweepAsked p s) p (fun _ h => h.settled)
    (fun _ _ hkept honly h => h.keep hkept honly) (fun _ _ hkept honly h => h.keep hkept honly) h

theorem sweepAsked_settled_requestForSlot {p : Fin 4} {n : Nat} {s : State} (hn : inFootprint s p n = true)
    (hu : ∀ k, inFootprint s k n = true → k = p) : SweepAsked p s (settleSweeps (requestForSlot n s)) := by
  by_cases hm : (s.portal p).mode = .halted
  · exact fun hne => absurd hm hne
  · refine RequestTaken.settleSweeps ?_
    unfold requestForSlot
    rw [portalOfSlot_eq hn hu]
    exact requestTaken_requestSweep hm

end Sys2Proof.Machine
end

section
/-! SUPPORT. RESWEEP and the refresh timer (R46, R98, R99, R110); AMEND, MOVE, RETIRE and CLEAR_FAULT (R67 to R75). -/

namespace Sys2Proof.Machine

/-! ## Sweep requests (R98) -/

theorem requestSweep_of_running {p : Fin 4} {s : State} (hmode : (s.portal p).mode ≠ .halted)
    (h : (s.sweep p).running ≠ none) : requestSweep p s = s.setSweep p { s.sweep p with owed := true } := by
  obtain ⟨w, hw⟩ := Option.ne_none_iff_exists'.1 h
  unfold requestSweep
  rw [if_neg hmode, hw]

theorem requestSweep_of_idle {p : Fin 4} {s : State} (hmode : (s.portal p).mode ≠ .halted)
    (h : (s.sweep p).running = none) : requestSweep p s = startSweep .normal p s := by
  unfold requestSweep
  rw [if_neg hmode, h]

theorem requestSweep_others (p : Fin 4) (s : State) :
    ∀ k, k ≠ p → (requestSweep p s).sweep k = s.sweep k ∧ (requestSweep p s).portal k = s.portal k := fun _ hk =>
  have ⟨hsweep, hportal, _⟩ := sweepKept_requestSweep hk s
  ⟨hsweep, hportal⟩

/-- Settles O44. -/
theorem sweepRequestsStartOrOweASweep : Obligations.SweepRequestsStartOrOweASweep := by
  intro s hw hlaw
  have howed : ∀ p, (s.sweep p).running = none → (s.sweep p).owed = false := fun p =>
    ((sweepLaw_iff s).1 hlaw p).2
  refine ⟨fun hs portal => ?_, fun hs p => ?_⟩
  · intro c
    have hc : exec c s = takeCommand 1 (resweepCommand portal) s := rfl
    refine .cons (fun h => Refuses.of_work hc hs (by rw [resweepCommand, portalOf_of_gt h])) fun _ => .nil fun p hp => ?_
    have hwork : resweepCommand portal s
        = if (s.portal p).mode = .halted then refuse .portalHalted s else done false (requestSweep p s) := by
      rw [resweepCommand, portalOf_of_val hp]
    refine .cons (fun h => Refuses.of_work hc hs (hwork.trans (if_pos h))) fun hmode => .nil ⟨fun hrunning => ?_, fun hidle => ?_⟩
    all_goals rw [if_neg hmode] at hwork
    · rw [requestSweep_of_running hmode hrunning] at hwork
      exact .of_done hc hs hwork rfl
    · have honly := onlySweeps_requestSweep p s
      have hothers := requestSweep_others p s
      rw [requestSweep_of_idle hmode hidle] at hwork honly hothers
      exact ⟨_, .of_done hc hs hwork honly.port, honly, sweepStarted_startSweep hw hidle (howed p hidle) .normal, hothers⟩
  · intro stopped
    have hexec : exec (.refreshTimerExpiry p) s = .next (refreshExpired p s) := event_of_high hs _
    have hrunning' : stopped.sweep p = s.sweep p := rfl
    rw [hexec]
    refine ⟨fun hnone => ?_, fun htimer hmode => ?_⟩
    · unfold refreshExpired
      rw [hnone]
      rfl
    have hmode' : (stopped.portal p).mode ≠ .halted := by
      rw [show stopped.portal p = _ from State.portal_setPortal_self ..]
      exact hmode
    have hexpired : refreshExpired p s = requestSweep p stopped := if_pos (Option.isSome_iff_ne_none.2 htimer)
    refine ⟨fun hrunning => ?_, fun hidle => ?_⟩
    · rw [hexpired, requestSweep_of_running hmode' hrunning]
      rfl
    · have honly := onlySweeps_requestSweep p stopped
      have hothers := requestSweep_others p stopped
      rw [requestSweep_of_idle hmode' hidle] at honly hothers
      obtain ⟨htimed, hplaced⟩ := sweepStarted_startSweep (s := stopped) hw hidle (howed p hidle) .normal
      refine ⟨_, congrArg _ (hexpired.trans (requestSweep_of_idle hmode' hidle)), honly, ⟨?_, hplaced.of_eq rfl rfl⟩, fun k hk => ?_⟩
      · rw [htimed, show stopped.portal p = _ from State.portal_setPortal_self ..]
      · obtain ⟨hsweep, hportal⟩ := hothers k hk
        exact ⟨hsweep, hportal.trans (State.portal_setPortal_of_ne _ _ _ _ hk)⟩

/-! ## A record written, and its portal asked (R68, R71, R73, R75) -/

theorem recordWritten_setRecord {s : State} (hw : rosterWf s.roster = true) {n : Nat} (hn : n < 512) (x : Record) :
    RecordWritten n x s (s.setRecord n x) :=
  ⟨State.record_setRecord_self hw hn x, fun _ hk => State.record_setRecord_of_ne hw n x hk⟩

theorem RecordWritten.onlySweeps {n : Nat} {x : Record} {s t u : State} (h : RecordWritten n x s t) (ho : OnlySweeps t u) :
    RecordWritten n x s u :=
  ⟨(ho.record n).trans h.1, fun k hk => (ho.record k).trans (h.2 k hk)⟩

theorem RecordWritten.of_roster {n : Nat} {x : Record} {s t u : State} (h : RecordWritten n x s t) (hroster : u.roster = t.roster) :
    RecordWritten n x s u :=
  ⟨(record_of_roster hroster n).trans h.1, fun k hk => (record_of_roster hroster k).trans (h.2 k hk)⟩

theorem setRecord_eq (s : State) (n : Nat) (x : Record) : s.setRecord n x = { s with roster := (s.setRecord n x).roster } := by
  unfold State.setRecord
  split <;> rfl

/-- What a sweep is asked of is read off the portals and the sweeps. -/
theorem SweepAsked.of_tables {p : Fin 4} {s b t : State} (h : SweepAsked p b t) (hportals : b.portals = s.portals)
    (hsweeps : b.sweeps = s.sweeps) : SweepAsked p s t :=
  h.of_eq (by rw [State.portal, State.portal, hportals]) (by rw [State.portal, State.portal, hportals])
    (by rw [State.sweep, State.sweep, hsweeps])

/-- The footprints stand apart in any state with the same plans. -/
theorem FootprintLaw.unique_of_plans {s b : State} (h : FootprintLaw s) (hplans : b.plans = s.plans) {p : Fin 4} {n : Nat}
    (hn : inFootprint s p n = true) : inFootprint b p n = true ∧ ∀ k, inFootprint b k n = true → k = p := by
  simp only [inFootprint_congr hplans]
  exact ⟨hn, h.unique hn⟩

theorem sweepAsked_requestForSlot_of {s b : State} (h : FootprintLaw s) (hplans : b.plans = s.plans)
    (hportals : b.portals = s.portals) (hsweeps : b.sweeps = s.sweeps) {p : Fin 4} {n : Nat} (hn : inFootprint s p n = true) :
    SweepAsked p s (requestForSlot n b) := by
  obtain ⟨hin, hu⟩ := h.unique_of_plans hplans hn
  exact (sweepAsked_requestForSlot hin hu).of_tables hportals hsweeps

theorem sweepAsked_settled_of {s b : State} (h : FootprintLaw s) (hplans : b.plans = s.plans)
    (hportals : b.portals = s.portals) (hsweeps : b.sweeps = s.sweeps) {p : Fin 4} {n : Nat} (hn : inFootprint s p n = true) :
    SweepAsked p s (settleSweeps (requestForSlot n b)) := by
  obtain ⟨hin, hu⟩ := h.unique_of_plans hplans hn
  exact (sweepAsked_settled_requestForSlot hin hu).of_tables hportals hsweeps

theorem onlySweeps_settledRequest (n : Nat) (b : State) : OnlySweeps b (settleSweeps (requestForSlot n b)) :=
  (onlySweeps_requestForSlot n b).trans (onlySweeps_settleSweeps _)

/-- Only sweeps differ from the state with its new roster. -/
theorem OnlySweeps.of_setRecord {s t : State} {n : Nat} {x : Record} (h : OnlySweeps (s.setRecord n x) t) :
    OnlySweeps { s with roster := t.roster } t := by
  rw [h.roster, ← setRecord_eq]
  exact h

/-! ## AMEND (R67, R68) -/

theorem overrideOf_of_gt {b : Byte} (h : 2 < b.toNat) : overrideOf b = none := by
  have hne : ∀ k : Byte, k.toNat ≤ 2 → b ≠ k := fun k hk he => by subst he; omega
  unfold overrideOf
  rw [if_neg (hne 0 (by decide)), if_neg (hne 1 (by decide)), if_neg (hne 2 (by decide))]

theorem overrideOf_of_le {b : Byte} (h : ¬ 2 < b.toNat) :
    overrideOf b = some (if b = 0 then .auto else if b = 1 then .forceOn else .forceOff) := by
  unfold overrideOf
  by_cases h0 : b = 0
  · rw [if_pos h0, if_pos h0]
  rw [if_neg h0, if_neg h0]
  by_cases h1 : b = 1
  · rw [if_pos h1, if_pos h1]
  have h0' : b.toNat ≠ 0 := fun e => h0 (BitVec.eq_of_toNat_eq e)
  have h1' : b.toNat ≠ 1 := fun e => h1 (BitVec.eq_of_toNat_eq e)
  have h2 : b = 2 := BitVec.eq_of_toNat_eq (show b.toNat = 2 by omega)
  rw [if_neg h1, if_neg h1, if_pos h2]

/-- R171: the changes that a selection byte names. -/
def selected (b : Byte) : Selection :=
  { m := b.getLsbD 0, override := b.getLsbD 1, setPin := b.getLsbD 2, clearPin := b.getLsbD 3, uid := b.getLsbD 4 }

theorem selectionTaken_eq (b override : Byte) : selectionTaken b override =
    if 32 ≤ b.toNat ∨ b.getLsbD 2 = true ∧ b.getLsbD 3 = true ∨ b.getLsbD 1 = true ∧ 2 < override.toNat then none
    else some (selected b) := by
  have hoverride : (overrideOf override).isNone = true ↔ 2 < override.toNat := by
    by_cases h : 2 < override.toNat
    · rw [overrideOf_of_gt h]; simp [h]
    · rw [overrideOf_of_le h]; simp [h]
  unfold selectionTaken selectionOf
  by_cases hb : b.toNat < 32
  · rw [if_pos hb]
    simp only [hoverride, not_le.2 hb, false_or]
    rfl
  · rw [if_neg hb, if_pos (.inl (not_lt.1 hb))]

theorem amendCommand_of_operands {slot : Half} {selection override : Byte} (hslot : ¬ 511 < slot.toNat)
    (hselection : ¬ (32 ≤ selection.toNat ∨ selection.getLsbD 2 = true ∧ selection.getLsbD 3 = true
      ∨ selection.getLsbD 1 = true ∧ 2 < override.toNat)) (m pinned : Half) (uid : UidField) (s : State) :
    amendCommand slot selection m override pinned uid s =
      if (s.record slot.toNat).state = .vacant then refuse .slotVacant s
      else if (s.record slot.toNat).state = .retiring
          ∨ ((selected selection).uid = true ∧ (s.record slot.toNat).state ≠ .probation) then refuse .recordBusy s
      else if (selected selection).uid = true ∧ uid.toNat ≠ 0 ∧ s.uidElsewhere slot.toNat uid.toNat = true then
        refuse .uidInUse s
      else done (amendClamped (selected selection) m pinned)
        (if (selected selection).asksSweep then
          requestForSlot slot.toNat
            (s.setRecord slot.toNat (amended (selected selection) m override pinned uid (s.record slot.toNat)))
        else s.setRecord slot.toNat (amended (selected selection) m override pinned uid (s.record slot.toNat))) := by
  rw [amendCommand, slotOf_of_le hslot]
  dsimp only
  rw [selectionTaken_eq, if_neg hselection]

theorem clamp_fullDrive (n : Nat) : clamp 0 Config.fullDrive n = min 10000 n := by
  rw [clamp_eq_within (by decide), within, Nat.zero_max]
  rfl

theorem amended_selected {selection override : Byte} (h : ¬ (selection.getLsbD 1 = true ∧ 2 < override.toNat)) (m pinned : Half)
    (uid : UidField) (r : Record) :
    amended (selected selection) m override pinned uid r = { r with
      m := if selection.getLsbD 0 then within 500 1000 m.toNat else r.m
      override := if selection.getLsbD 1 then (if override = 0 then .auto else if override = 1 then .forceOn else .forceOff)
        else r.override
      pinned := if selection.getLsbD 2 then some (min 10000 pinned.toNat) else if selection.getLsbD 3 then none else r.pinned
      uid := if selection.getLsbD 4 then uid.toNat else r.uid } := by
  unfold amended selected
  simp only [clamp_eq_within (show 500 ≤ 1000 by decide), clamp_fullDrive]
  by_cases h1 : selection.getLsbD 1 = true
  · rw [overrideOf_of_le fun hgt => h ⟨h1, hgt⟩]
    rfl
  · simp only [h1]
    rfl

theorem amendClamped_iff (selection : Byte) (m pinned : Half) :
    amendClamped (selected selection) m pinned = true ↔
      selection.getLsbD 0 = true ∧ (m.toNat < 500 ∨ 1000 < m.toNat) ∨ selection.getLsbD 2 = true ∧ 10000 < pinned.toNat := by
  unfold amendClamped selected
  simp only [Bool.or_eq_true, Bool.and_eq_true, outside_eq, Nat.not_lt_zero, false_or]
  rfl

/-- Settles O37. -/
theorem amendMakesTheSelectedChanges : Obligations.AmendMakesTheSelectedChanges := by
  intro s slot m pinned selection override uid hs hroster c n r chosen asks
  have hc : exec c s = takeCommand 14 (amendCommand slot selection m override pinned uid) s := rfl
  obtain ⟨hwf, -, -, hplans⟩ := hroster
  refine .cons (fun h => Refuses.of_work hc hs (by rw [amendCommand, slotOf_of_gt h])) fun hslot =>
    .cons (fun h => Refuses.of_work hc hs ?_) fun hselection => ?_
  · rw [amendCommand, slotOf_of_le hslot]
    dsimp only
    rw [selectionTaken_eq, if_pos h]
  have hw := amendCommand_of_operands hslot hselection m pinned uid s
  refine .cons (fun h => Refuses.of_work hc hs (hw.trans (if_pos h))) fun hfull => ?_
  replace hw := hw.trans (if_neg hfull)
  refine .cons (fun h => Refuses.of_work hc hs (hw.trans (if_pos h))) fun hfree => ?_
  replace hw := hw.trans (if_neg hfree)
  have huid : uid.toNat ≠ 0 ↔ uid ≠ 0 := not_congr ⟨fun e => BitVec.eq_of_toNat_eq e, fun e => by rw [e]; rfl⟩
  have hused : (selected selection).uid = true ∧ uid.toNat ≠ 0 ∧ s.uidElsewhere n uid.toNat = true ↔
      chosen 4 = true ∧ uid ≠ 0 ∧ ∃ k, k ≠ n ∧ (s.record k).nonVacant = true ∧ (s.record k).uid = uid.toNat := by
    rw [State.uidElsewhere_iff hwf, huid]
    rfl
  refine .cons (fun h => Refuses.of_work hc hs (hw.trans (if_pos (hused.2 h)))) fun hapart => .nil ?_
  replace hw := hw.trans (if_neg fun h => hapart (hused.1 h))
  rw [amended_selected fun h => hselection (.inr (.inr h))] at hw
  have hn : n < 512 := by omega
  have hasks : (selected selection).asksSweep = true ↔ asks := by
    simp only [Selection.asksSweep, selected, Bool.or_eq_true, or_assoc]
    rfl
  have written := recordWritten_setRecord hwf hn { r with
    m := if chosen 0 then within 500 1000 m.toNat else r.m
    override := if chosen 1 then (if override = 0 then .auto else if override = 1 then .forceOn else .forceOff) else r.override
    pinned := if chosen 2 then some (min 10000 pinned.toNat) else if chosen 3 then none else r.pinned
    uid := if chosen 4 then uid.toNat else r.uid }
  generalize hx : ({ r with
    m := if chosen 0 then within 500 1000 m.toNat else r.m
    override := if chosen 1 then (if override = 0 then .auto else if override = 1 then .forceOn else .forceOff) else r.override
    pinned := if chosen 2 then some (min 10000 pinned.toNat) else if chosen 3 then none else r.pinned
    uid := if chosen 4 then uid.toNat else r.uid } : Record) = x at written
  have hw' : amendCommand slot selection m override pinned uid s = done (amendClamped (selected selection) m pinned)
      (if (selected selection).asksSweep then requestForSlot n (s.setRecord n x) else s.setRecord n x) := by
    rw [hw, ← hx]
  by_cases hask : asks
  · rw [if_pos (hasks.2 hask)] at hw'
    have honly := onlySweeps_requestForSlot n (s.setRecord n x)
    refine ⟨_, .of_done_clamped hc hs hw' ?_ (amendClamped_iff ..), written.onlySweeps honly, honly.of_setRecord,
      fun _ p hp => ?_, fun hnot => absurd hask hnot⟩
    · rw [honly.port, State.setRecord_port]
    · exact sweepAsked_requestForSlot_of hplans (by simp) (by simp) (by simp) hp
  · rw [if_neg fun h => hask (hasks.1 h)] at hw'
    exact ⟨_, .of_done_clamped hc hs hw' (by simp) (amendClamped_iff ..), written, (OnlySweeps.refl _).of_setRecord,
      fun h => absurd h hask, fun _ => setRecord_eq ..⟩

end Sys2Proof.Machine
end

section
/-! SUPPORT. MOVE, RETIRE, CLEAR_FAULT, ADMIT and ADMIT_STRAY (R65, R66, R70 to R75, R146). -/

namespace Sys2Proof.Machine

/-! ## MOVE (R70, R71) -/

theorem sweepKept_requestForSlot {p : Fin 4} {n : Nat} {s : State} (h : portalOfSlot s n ≠ some p) :
    SweepKept p s (requestForSlot n s) := by
  unfold requestForSlot
  split
  · exact .refl ..
  next q hq => exact sweepKept_requestSweep (fun he : p = q => h (he ▸ hq)) s

theorem requestForSlot_eq {p : Fin 4} {n : Nat} {s : State} (h : portalOfSlot s n = some p) :
    requestForSlot n s = requestSweep p s := by
  unfold requestForSlot
  rw [h]

theorem portalOfSlot_congr {s t : State} (h : t.plans = s.plans) (n : Nat) : portalOfSlot t n = portalOfSlot s n := by
  unfold portalOfSlot
  simp only [inFootprint_congr h]

/-- R71: both portals are asked. -/
theorem sweepAsked_requestForMove {s : State} {p : Fin 4} {n k : Nat}
    (h : portalOfSlot s n = some p ∨ portalOfSlot s k = some p) : SweepAsked p s (settleSweeps (requestForMove n k s)) := by
  by_cases hm : (s.portal p).mode = .halted
  · exact fun hne => absurd hm hne
  unfold requestForMove
  by_cases hsame : portalOfSlot s n = portalOfSlot s k
  · rw [if_pos hsame, requestForSlot_eq (h.elim (hsame.symm.trans ·) id)]
    exact (requestTaken_requestSweep hm).settleSweeps
  rw [if_neg hsame]
  have honly := onlySweeps_requestForSlot n s
  have hplans := portalOfSlot_congr honly.plans
  obtain h | h := h
  · have taken : RequestTaken p s (requestForSlot n s) := by
      rw [requestForSlot_eq h]
      exact requestTaken_requestSweep hm
    refine (taken.keep (sweepKept_requestForSlot ?_) (onlySweeps_requestForSlot ..)).settleSweeps
    rw [hplans]
    exact fun hk => hsame (h.trans hk.symm)
  · obtain ⟨hsweep, hportal, -⟩ := sweepKept_requestForSlot (p := p) (n := n) (s := s) fun hn => hsame (hn.trans h.symm)
    rw [requestForSlot_eq ((hplans k).trans h)]
    have hm' : ((requestForSlot n s).portal p).mode ≠ .halted := by rw [hportal]; exact hm
    exact (requestTaken_requestSweep hm').settleSweeps.of_eq (by rw [hportal]) (by rw [hportal]) (by rw [hsweep])

theorem moveCommand_of_operands {slot newSlot : Half} (h : ¬ (511 < slot.toNat ∨ 511 < newSlot.toNat)) (s : State) :
    moveCommand slot newSlot s =
      if (s.record slot.toNat).state = .vacant then refuse .slotVacant s
      else if (s.record slot.toNat).state = .retiring then refuse .recordBusy s
      else if (portalOfSlot s newSlot.toNat).isNone then refuse .outsidePlan s
      else if (s.record newSlot.toNat).nonVacant then refuse .slotOccupied s
      else done false (moveRecord slot.toNat newSlot.toNat s) := by
  obtain ⟨hn, hk⟩ := not_or.1 h
  rw [moveCommand, slotOf_of_le hn, slotOf_of_le hk]

theorem moveCommand_badSlot {slot newSlot : Half} (h : 511 < slot.toNat ∨ 511 < newSlot.toNat) (s : State) :
    moveCommand slot newSlot s = refuse .badSlot s := by
  unfold moveCommand
  obtain h | h := h
  · rw [slotOf_of_gt h]
  · rw [slotOf_of_gt h]
    cases slotOf slot <;> rfl

theorem portalOfSlot_isNone {s : State} {n : Nat} : (portalOfSlot s n).isNone = true ↔ ∀ p, inFootprint s p n = false := by
  rw [Option.isNone_iff_eq_none, portalOfSlot_eq_none]

/-- Settles O38. -/
theorem moveCarriesTheWholeRecord : Obligations.MoveCarriesTheWholeRecord := by
  intro s slot newSlot hs hroster c n k
  have hc : exec c s = takeCommand 4 (moveCommand slot newSlot) s := rfl
  obtain ⟨hwf, -, -, hplans⟩ := hroster
  refine .cons (fun h => Refuses.of_work hc hs (moveCommand_badSlot h s)) fun hslots => ?_
  have hw := moveCommand_of_operands hslots s
  refine .cons (fun h => Refuses.of_work hc hs (hw.trans (if_pos h))) fun hfull => ?_
  replace hw := hw.trans (if_neg hfull)
  refine .cons (fun h => Refuses.of_work hc hs (hw.trans (if_pos h))) fun hbusy => ?_
  replace hw := hw.trans (if_neg hbusy)
  refine .cons (fun h => Refuses.of_work hc hs (hw.trans (if_pos (portalOfSlot_isNone.2 h)))) fun hplan => ?_
  replace hw := hw.trans (if_neg fun h => hplan (portalOfSlot_isNone.1 h))
  refine .cons (fun h => Refuses.of_work hc hs (hw.trans (if_pos h))) fun hvacant => .nil ?_
  replace hw := hw.trans (if_neg hvacant)
  have hn : n < 512 := by omega
  have hk : k < 512 := by omega
  have hne : n ≠ k := by
    rintro he
    exact hvacant (show (s.record k).nonVacant = true by rw [← he]; simpa [Record.nonVacant] using hfull)
  have hwf' := rosterWf_setRecord hwf k (s.record n)
  generalize hb : (s.setRecord k (s.record n)).setRecord n (.vacant false) = b
  have hbase : b = { s with roster := b.roster } := by
    rw [← hb, setRecord_eq (s.setRecord k (s.record n)), setRecord_eq s]
  have honly : OnlySweeps b (moveRecord n k s) := by
    unfold moveRecord
    dsimp only
    rw [hb]
    exact (onlySweeps_requestForMove ..).trans (onlySweeps_settleSweeps _)
  have hrecord : ∀ j, (moveRecord n k s).record j = b.record j := honly.record
  refine ⟨_, .of_done hc hs hw ?_, ?_, ?_, fun j hjn hjk => ?_, ?_, fun p hp => ?_⟩
  · rw [honly.port, hbase]
  · rw [hrecord, ← hb, State.record_setRecord_of_ne hwf' n _ hne.symm, State.record_setRecord_self hwf hk]
  · rw [hrecord, ← hb, State.record_setRecord_self hwf' hn]
    rfl
  · rw [hrecord, ← hb, State.record_setRecord_of_ne hwf' n _ hjn, State.record_setRecord_of_ne hwf k _ hjk]
  · rw [honly.roster, ← hbase]
    exact honly
  · unfold moveRecord
    dsimp only
    rw [hb]
    have hportal : ∀ m, inFootprint s p m = true → portalOfSlot b m = some p := fun m hm => by
      rw [portalOfSlot_congr (by rw [hbase])]
      exact portalOfSlot_eq hm (hplans.unique hm)
    exact (sweepAsked_requestForMove (hp.imp (hportal n) (hportal k))).of_tables (by rw [hbase]) (by rw [hbase])

/-! ## RETIRE and CLEAR_FAULT (R72, R73, R75) -/

theorem retireCommand_of_slot {slot : Half} (h : ¬ 511 < slot.toNat) {s : State} {q : Place}
    (hq : (s.record slot.toNat).place = some q) :
    retireCommand slot s =
      if (s.record slot.toNat).state = .vacant then refuse .slotVacant s
      else if (s.record slot.toNat).state = .retiring then refuse .recordBusy s
      else if 16 ≤ (s.line q.line).admin.length then refuse .lineBusy s
      else done false (retireRecord slot.toNat q s) := by
  rw [retireCommand, slotOf_of_le h]
  dsimp only
  rw [hq]
  rfl

theorem clearFaultCommand_of_slot {slot : Half} (h : ¬ 511 < slot.toNat) (s : State) :
    clearFaultCommand slot s =
      if (s.record slot.toNat).state = .vacant then refuse .slotVacant s
      else if (s.record slot.toNat).state = .retiring then refuse .recordBusy s
      else done false (clearFaultOf slot.toNat s) := by
  rw [clearFaultCommand, slotOf_of_le h]

theorem retireCommand_refuses {slot : Half} {s : State} (h : ¬ 511 < slot.toNat) :
    ((s.record slot.toNat).state = .vacant → retireCommand slot s = refuse .slotVacant s)
      ∧ ((s.record slot.toNat).state = .retiring → retireCommand slot s = refuse .recordBusy s) := by
  rw [retireCommand, slotOf_of_le h]
  dsimp only
  exact ⟨fun h => if_pos h, fun h => (if_neg (by rw [h]; nofun)).trans (if_pos h)⟩

/-- R73: RETIRE after its checks. -/
theorem retireRecord_rules {s : State} (hroster : RosterLaw s) {n : Nat} (hn : n < 512) (q : Place) :
    let t := retireRecord n q s
    t.port = s.port ∧ RecordWritten n { s.record n with state := .retiring } s t
      ∧ OnlySweeps (({ s with roster := t.roster } : State).setLine q.line (retiredLine (s.line q.line) q.address)) t
      ∧ ∀ p, inFootprint s p n = true → SweepAsked p s t := by
  obtain ⟨hwf, -, -, hplans⟩ := hroster
  intro t
  have written := recordWritten_setRecord hwf hn { s.record n with state := .retiring }
  generalize hb : (s.setRecord n { s.record n with state := .retiring }).setLine q.line
    (retiredLine (s.line q.line) q.address) = b
  have hrosterb : b.roster = (s.setRecord n { s.record n with state := .retiring }).roster := by
    rw [← hb, State.setLine_roster]
  have hbase : b = ({ s with roster := b.roster } : State).setLine q.line (retiredLine (s.line q.line) q.address) := by
    rw [hrosterb, ← setRecord_eq, hb]
  have ht : t = settleSweeps (requestForSlot n b) := by rw [← hb]; rfl
  have honly : OnlySweeps b t := ht ▸ onlySweeps_settledRequest n b
  refine ⟨?_, (written.of_roster hrosterb).onlySweeps honly, ?_, fun p hp => ?_⟩
  · rw [honly.port, ← hb]; simp
  · rw [honly.roster, ← hbase]
    exact honly
  · rw [ht]
    exact sweepAsked_settled_of hplans (by rw [← hb]; simp) (by rw [← hb]; simp) (by rw [← hb]; simp) hp

/-- Settles O39. -/
theorem retireAndClearFaultChangeOneRecord : Obligations.RetireAndClearFaultChangeOneRecord := by
  intro s slot hs hroster n r checks
  have hretire : exec (.retire slot) s = takeCommand 2 (retireCommand slot) s := rfl
  have hclear : exec (.clearFault slot) s = takeCommand 2 (clearFaultCommand slot) s := rfl
  have ⟨hwf, _, _, hplans⟩ := hroster
  constructor
  · refine .cons (fun h => Refuses.of_work hretire hs (by rw [retireCommand, slotOf_of_gt h])) fun hslot => ?_
    obtain ⟨hvacant, hbusy⟩ := retireCommand_refuses (s := s) hslot
    refine .cons (fun h => Refuses.of_work hretire hs (hvacant h)) fun hfull =>
      .cons (fun h => Refuses.of_work hretire hs (hbusy h)) fun hfree => .nil fun q hq => ?_
    have hw := ((retireCommand_of_slot hslot hq).trans (if_neg hfull)).trans (if_neg hfree)
    refine .cons (fun h => Refuses.of_work hretire hs (hw.trans (if_pos h))) fun hroom => .nil ?_
    have hn : n < 512 := by omega
    obtain ⟨hport, written, honly, hasked⟩ := retireRecord_rules hroster hn q
    exact ⟨_, .of_done hretire hs (hw.trans (if_neg hroom)) hport, written, honly, hasked⟩
  · refine .cons (fun h => Refuses.of_work hclear hs (by rw [clearFaultCommand, slotOf_of_gt h])) fun hslot => ?_
    have hw := clearFaultCommand_of_slot hslot s
    refine .cons (fun h => Refuses.of_work hclear hs (hw.trans (if_pos h))) fun hfull => ?_
    replace hw := hw.trans (if_neg hfull)
    refine .cons (fun h => Refuses.of_work hclear hs (hw.trans (if_pos h))) fun hfree => .nil ?_
    replace hw := hw.trans (if_neg hfree)
    have hn : n < 512 := by omega
    refine ⟨fun hdark => ?_, fun hlit => ?_⟩
    · have hcleared : clearFaultOf n s = settleSweeps (requestForSlot n (s.setRecord n
          { r with fault := none, state := if r.confirmed then .active else .probation })) := by
        unfold clearFaultOf faultCleared
        dsimp only
        rw [if_pos hdark, if_pos hdark]
      have honly := onlySweeps_settledRequest n (s.setRecord n
        { r with fault := none, state := if r.confirmed then .active else .probation })
      rw [hcleared] at hw
      exact ⟨_, .of_done hclear hs hw (honly.port.trans (by simp)), (recordWritten_setRecord hwf hn _).onlySweeps honly,
        honly.of_setRecord, fun p hp => sweepAsked_settled_of hplans (by simp) (by simp) (by simp) hp⟩
    · have hcleared : clearFaultOf n s = s.setRecord n { r with fault := none } := by
        unfold clearFaultOf faultCleared
        dsimp only
        rw [if_neg hlit, if_neg hlit]
      rw [hcleared] at hw
      exact ⟨_, .of_done hclear hs hw (by simp), recordWritten_setRecord hwf hn _, setRecord_eq ..⟩

/-! ## ADMIT and ADMIT_STRAY (R65, R66, R146) -/

theorem removeStray_eq (l : Line) (a : Nat) (s : State) :
    removeStray l a s =
      if ((s.line l).strays.filter fun e => e.address != a) = [] ∧ (s.line l).strays ≠ [] then
        (s.setLine l { s.line l with strays := (s.line l).strays.filter fun e => e.address != a }).setNoticeClass (strayClass l)
          { s.noticeClass (strayClass l) with holds := false, pending := false }
      else s.setLine l { s.line l with strays := (s.line l).strays.filter fun e => e.address != a } := by
  have hcond : (((s.line l).strays.filter fun e => e.address != a).isEmpty = true ∧ (!(s.line l).strays.isEmpty) = true)
      ↔ ((s.line l).strays.filter fun e => e.address != a) = [] ∧ (s.line l).strays ≠ [] := by
    simp only [Bool.not_eq_true', List.isEmpty_iff, List.isEmpty_eq_false_iff]
  unfold removeStray
  dsimp only
  rw [if_congr hcond rfl rfl]
  cases l <;> rfl

/-- The line that an admission leaves: the address is no stray and not ignored any more. -/
def admissionLine (x : LineCtl) (a : Nat) : LineCtl :=
  { x with
    strays := x.strays.filter fun e => e.address != a
    ignored := x.ignored.filter fun b => b != a }

/-- The state in which an admission asks its portal. -/
def admissionBase (x : Admission) (capability : Option Bool) (lmin : Nat) (s : State) : State :=
  removeIgnored x.place.line x.place.address
    (removeStray x.place.line x.place.address (s.setRecord x.slot (admittedRecord x capability lmin)))

theorem removeIgnored_setLine (l : Line) (a : Nat) (y : LineCtl) (s : State) :
    removeIgnored l a (s.setLine l y) = s.setLine l { y with ignored := y.ignored.filter fun b => b != a } := by
  cases l <;> rfl

theorem removeIgnored_setNoticeClass (l : Line) (a : Nat) (c : Fin 32) (y : NoticeClass) (s : State) :
    removeIgnored l a (s.setNoticeClass c y) = (removeIgnored l a s).setNoticeClass c y := by
  cases l <;> rfl

theorem admissionBase_eq (x : Admission) (capability : Option Bool) (lmin : Nat) (s : State) :
    admissionBase x capability lmin s =
      if ((s.line x.place.line).strays.filter fun e => e.address != x.place.address) = [] ∧ (s.line x.place.line).strays ≠ [] then
        ((s.setRecord x.slot (admittedRecord x capability lmin)).setLine x.place.line
            (admissionLine (s.line x.place.line) x.place.address)).setNoticeClass (strayClass x.place.line)
          { s.noticeClass (strayClass x.place.line) with holds := false, pending := false }
      else (s.setRecord x.slot (admittedRecord x capability lmin)).setLine x.place.line
        (admissionLine (s.line x.place.line) x.place.address) := by
  have hline : (s.setRecord x.slot (admittedRecord x capability lmin)).line x.place.line = s.line x.place.line :=
    (Writes.of_setRecord (ts := [.roster]) ..).line _
  have hnotice : (s.setRecord x.slot (admittedRecord x capability lmin)).noticeClass (strayClass x.place.line)
      = s.noticeClass (strayClass x.place.line) := by simp
  unfold admissionBase
  rw [removeStray_eq, hline, hnotice]
  split
  · rw [removeIgnored_setNoticeClass, removeIgnored_setLine]
    rfl
  · rw [removeIgnored_setLine]
    rfl

/-- R65: the admission that the operands spell once they have passed. -/
def admissionOf (slot : Half) (l : Line) (address : Byte) (uid : Nat) (m : Half) (override : Byte) : Admission where
  slot := slot.toNat
  place := ⟨l, address.toNat⟩
  uid := uid
  m := m.toNat
  override := if override = 0 then .auto else if override = 1 then .forceOn else .forceOff

theorem admissionChecks_of_slot {slot : Half} (h : ¬ 511 < slot.toNat) (line address : Byte) (uid : Nat) (m : Half)
    (override : Byte) (s : State) :
    ((∀ p, inFootprint s p slot.toNat = false) → admissionChecks slot line address uid m override s = .error .outsidePlan)
      ∧ (¬ (∀ p, inFootprint s p slot.toNat = false) →
        ((s.record slot.toNat).nonVacant = true → admissionChecks slot line address uid m override s = .error .slotOccupied)
        ∧ (¬ (s.record slot.toNat).nonVacant = true →
          (line = 1 ∧ s.straps.getLsbD 2 = false → admissionChecks slot line address uid m override s = .error .noLine)
          ∧ (¬ (line = 1 ∧ s.straps.getLsbD 2 = false) →
            (1 < line.toNat ∨ address = 0 ∨ address = 255 ∨ 2 < override.toNat →
              admissionChecks slot line address uid m override s = .error .badValue)
            ∧ (¬ (1 < line.toNat ∨ address = 0 ∨ address = 255 ∨ 2 < override.toNat) → ∀ l, lineCode l = line.toNat →
              admissionChecks slot line address uid m override s =
                if (s.lookup l address.toNat).isSome then .error .addressInUse
                else if uid ≠ 0 ∧ (s.lookupUid uid).isSome then .error .uidInUse
                else .ok (admissionOf slot l address uid m override))))) := by
  unfold admissionChecks
  rw [slotOf_of_le h]
  dsimp only
  refine ⟨fun h => if_pos (portalOfSlot_isNone.2 h), fun hplan => ?_⟩
  rw [if_neg fun h => hplan (portalOfSlot_isNone.1 h)]
  refine ⟨fun h => if_pos h, fun hvacant => ?_⟩
  have habsent : line = 1 ∧ (!s.linePresent .b) = true ↔ line = 1 ∧ s.straps.getLsbD 2 = false := by
    rw [Bool.not_eq_true']
    rfl
  rw [if_neg hvacant, if_congr habsent rfl rfl]
  refine ⟨fun h => if_pos h, fun hpresent => ?_⟩
  rw [if_neg hpresent]
  refine ⟨fun hbad => ?_, fun hgood l hl => ?_⟩
  · split
    next hl ha ho =>
      obtain h | h | h | h := hbad
      · rw [lineOf_eq_none.2 h] at hl; nomatch hl
      · rw [addressOf_of_reserved (.inl h)] at ha; nomatch ha
      · rw [addressOf_of_reserved (.inr h)] at ha; nomatch ha
      · rw [overrideOf_of_gt h] at ho; nomatch ho
    next => rfl
  · obtain ⟨-, haddress⟩ := not_or.1 hgood
    obtain ⟨hzero, haddress⟩ := not_or.1 haddress
    obtain ⟨hmax, hoverride⟩ := not_or.1 haddress
    rw [lineOf_eq_some.2 hl, addressOf_of_not_reserved (not_or.2 ⟨hzero, hmax⟩), overrideOf_of_le hoverride]
    rfl

/-- R66, R146: an admission after its checks. -/
theorem fillSlot_rules {s : State} (hroster : RosterLaw s) {x : Admission} (hn : x.slot < 512) (capability : Option Bool)
    (lmin : Nat) :
    let t := fillSlot x capability lmin s
    let l := x.place.line
    let b := ({ s with roster := t.roster } : State).setLine l (admissionLine (s.line l) x.place.address)
    let last := ((s.line l).strays.filter fun e => e.address != x.place.address) = [] ∧ (s.line l).strays ≠ []
    t.port = s.port ∧ RecordWritten x.slot (admittedRecord x capability lmin) s t
      ∧ (last → OnlySweeps (b.setNoticeClass (strayClass l)
          { s.noticeClass (strayClass l) with holds := false, pending := false }) t)
      ∧ (¬ last → OnlySweeps b t)
      ∧ ∀ p, inFootprint s p x.slot = true → SweepAsked p s t := by
  obtain ⟨hwf, -, -, hplans⟩ := hroster
  intro t l b last
  have ht : t = settleSweeps (requestForSlot x.slot (admissionBase x capability lmin s)) := rfl
  have honly : OnlySweeps (admissionBase x capability lmin s) t := ht ▸ onlySweeps_settledRequest ..
  have hbase := admissionBase_eq x capability lmin s
  have hsame : (admissionBase x capability lmin s).roster = (s.setRecord x.slot (admittedRecord x capability lmin)).roster
      ∧ (admissionBase x capability lmin s).port = s.port ∧ (admissionBase x capability lmin s).plans = s.plans
      ∧ (admissionBase x capability lmin s).portals = s.portals ∧ (admissionBase x capability lmin s).sweeps = s.sweeps := by
    rw [hbase]
    split <;> simp
  obtain ⟨hr, hport, hp, hportals, hsweeps⟩ := hsame
  have hb : (s.setRecord x.slot (admittedRecord x capability lmin)).setLine l (admissionLine (s.line l) x.place.address) = b := by
    rw [setRecord_eq, ← hr, ← honly.roster]
  refine ⟨honly.port.trans hport, ((recordWritten_setRecord hwf hn _).of_roster hr).onlySweeps honly, fun hlast => ?_,
    fun hmore => ?_, fun p hin => ht ▸ sweepAsked_settled_of hplans hp hportals hsweeps hin⟩
  · rw [hbase, if_pos hlast, hb] at honly
    exact honly
  · rw [hbase, if_neg hmore, hb] at honly
    exact honly

/-- R65: the checks of an admission, whatever answers them. -/
theorem checked_admission {c : Instr} {s : State} {k : Nat} {work : State → Answered} (hc : exec c s = takeCommand k work s)
    (hs : s.listening) (hroster : RosterLaw s) {slot m : Half} {line address override : Byte} {uid told : Nat}
    (hbad : ∀ a, admissionChecks slot line address told m override s = .error a → work s = refuse a s)
    (htold : ∀ l, lineCode l = line.toNat → ¬ (address = 0 ∨ address = 255) → told = uid) {P : Prop}
    (hgood : ∀ l, lineCode l = line.toNat → ¬ (address = 0 ∨ address = 255) → slot.toNat < 512 →
      admissionChecks slot line address told m override s = .ok (admissionOf slot l address uid m override) → P) :
    Checked c s
      [(511 < slot.toNat, .badSlot), (∀ p, inFootprint s p slot.toNat = false, .outsidePlan),
        ((s.record slot.toNat).nonVacant = true, .slotOccupied), (line = 1 ∧ s.straps.getLsbD 2 = false, .noLine),
        (1 < line.toNat ∨ address = 0 ∨ address = 255 ∨ 2 < override.toNat, .badValue),
        (∃ k l, lineCode l = line.toNat ∧ (s.record k).at l address.toNat = true, .addressInUse),
        (uid ≠ 0 ∧ ∃ k, (s.record k).nonVacant = true ∧ (s.record k).uid = uid, .uidInUse)] P := by
  obtain ⟨hwf, -⟩ := hroster
  have refuses : ∀ a, admissionChecks slot line address told m override s = .error a → Refuses c s a :=
    fun a ha => Refuses.of_work hc hs (hbad a ha)
  refine .cons (fun h => refuses _ (by rw [admissionChecks, slotOf_of_gt h])) fun hslot => ?_
  obtain ⟨houtside, hchecks⟩ := admissionChecks_of_slot hslot line address told m override s
  refine .cons (fun h => refuses _ (houtside h)) fun hplan => ?_
  obtain ⟨hoccupied, hchecks⟩ := hchecks hplan
  refine .cons (fun h => refuses _ (hoccupied h)) fun hvacant => ?_
  obtain ⟨habsent, hchecks⟩ := hchecks hvacant
  refine .cons (fun h => refuses _ (habsent h)) fun hpresent => ?_
  obtain ⟨hvalue, hchecks⟩ := hchecks hpresent
  refine .cons (fun h => refuses _ (hvalue h)) fun hoperands => ?_
  obtain ⟨l, hl⟩ : ∃ l, lineCode l = line.toNat := by
    obtain ⟨l, hl⟩ := Option.ne_none_iff_exists'.1 fun hnone => hoperands (.inl (lineOf_eq_none.1 hnone))
    exact ⟨l, lineOf_eq_some.1 hl⟩
  have haddress : ¬ (address = 0 ∨ address = 255) := fun h => hoperands (.inr (h.imp id .inl))
  have hchecked := hchecks hoperands l hl
  rw [htold l hl haddress] at hchecked
  have hplace : (s.lookup l address.toNat).isSome = true ↔
      ∃ k l, lineCode l = line.toNat ∧ (s.record k).at l address.toNat = true := by
    rw [Option.isSome_iff_ne_none, ne_eq, State.lookup_eq_none hwf]
    constructor
    · intro h
      obtain ⟨k, hk⟩ := not_forall.1 h
      exact ⟨k, l, hl, by simpa using hk⟩
    · rintro ⟨k, j, hj, hk⟩ hfree
      obtain rfl : j = l := Option.some.inj ((lineOf_eq_some.2 hj).symm.trans (lineOf_eq_some.2 hl))
      rw [hfree k] at hk
      nomatch hk
  have huid : (uid ≠ 0 ∧ (s.lookupUid uid).isSome = true) ↔
      uid ≠ 0 ∧ ∃ k, (s.record k).nonVacant = true ∧ (s.record k).uid = uid := by
    rw [Option.isSome_iff_ne_none, ne_eq, ne_eq, State.lookupUid_eq_none hwf, not_forall]
    simp only [not_not]
  refine .cons (fun h => refuses _ ?_) fun hfree => .cons (fun h => refuses _ ?_) fun hapart => .nil (hgood l hl haddress (by omega) ?_)
  · rw [htold l hl haddress, hchecked, if_pos (hplace.2 h)]
  · rw [htold l hl haddress, hchecked, if_neg fun h => hfree (hplace.1 h), if_pos (huid.2 h)]
  · rw [htold l hl haddress, hchecked, if_neg fun h => hfree (hplace.1 h), if_neg fun h => hapart (huid.1 h)]

theorem admittedRecord_admissionOf (slot : Half) (l : Line) (address : Byte) (uid : Nat) (m : Half) (override : Byte)
    (capability : Option Bool) (lmin : Nat) :
    admittedRecord (admissionOf slot l address uid m override) capability lmin =
      { state := .probation, place := some ⟨l, address.toNat⟩, uid := uid, confirmed := false,
        m := within 500 1000 m.toNat,
        override := if override = 0 then .auto else if override = 1 then .forceOn else .forceOff,
        capability := capability, lmin := lmin, pinned := none, fault := none, misses := 0, lastSent := none,
        lastAcked := none, changed := false } := by
  simp only [admittedRecord, admissionOf, clamp_eq_within (show 500 ≤ 1000 by decide)]
  rfl

/-- Settles O36. -/
theorem admissionFillsTheSlot : Obligations.AdmissionFillsTheSlot := by
  intro s slot m line address override hs hroster n checks fills
  have fills_of : ∀ (c : Instr) (k : Nat) (work : State → Answered) (l : Line) (uid : Nat) (capability : Option Bool) (lmin : Nat),
      exec c s = takeCommand k work s → lineCode l = line.toNat → slot.toNat < 512 →
      work s = done (outside 500 1000 m.toNat) (fillSlot (admissionOf slot l address uid m override) capability lmin s) →
      fills c uid capability lmin := by
    intro c k work l uid capability lmin hc hl hn hw j hj kept
    obtain rfl : j = l := Option.some.inj ((lineOf_eq_some.2 hj).symm.trans (lineOf_eq_some.2 hl))
    obtain ⟨hport, written, hlast, hmore, hasked⟩ := fillSlot_rules hroster
      (x := admissionOf slot j address uid m override) hn capability lmin
    rw [admittedRecord_admissionOf] at written
    exact ⟨_, .of_done_clamped hc hs hw hport (by rw [outside_eq]), written, ⟨hlast, hmore⟩, hasked⟩
  constructor
  · intro uid c
    have hc : exec c s = takeCommand 13 (admitCommand slot line address uid m override) s := rfl
    refine checked_admission hc hs hroster (told := uid.toNat) (fun a ha => by rw [admitCommand, ha]) (fun _ _ _ => rfl)
      fun l hl _ hn hok => ?_
    exact fills_of c _ _ l uid.toNat none 0 hc hl hn (by rw [admitCommand, hok]; rfl)
  · intro c entry
    have hc : exec c s = takeCommand 7 (admitStrayCommand line address slot m override) s := rfl
    have hentry : ∀ l, lineCode l = line.toNat → ¬ (address = 0 ∨ address = 255) → strayOf s line address = entry := by
      intro l hl haddress
      have hstrays : (s.line l).strays = if line = 0 then s.lineA.strays else s.lineB.strays := by
        cases l with
        | a => rw [if_pos (BitVec.eq_of_toNat_eq hl.symm)]; rfl
        | b =>
          have hone : line = 1 := BitVec.eq_of_toNat_eq hl.symm
          rw [if_neg (by rw [hone]; decide)]
          rfl
      rw [strayOf, lineOf_eq_some.2 hl, addressOf_of_not_reserved haddress]
      show List.find? _ (s.line l).strays = _
      rw [hstrays]
    refine Checked.append.2 (checked_admission hc hs hroster (told := ((strayOf s line address).bind (·.uid)).getD 0)
      (fun a ha => by rw [admitStrayCommand, ha]) (fun l hl ha => by rw [hentry l hl ha])
      fun l hl ha hn hok => ?_)
    have hw : ∀ e, entry = e → admitStrayCommand line address slot m override s
        = e.elim (refuse .notFound s) fun e => done (outside 500 1000 m.toNat)
          (fillSlot (admissionOf slot l address ((entry.bind (·.uid)).getD 0) m override) e.capability (e.lmin.getD 0) s) := by
      intro e he
      rw [admitStrayCommand, hok, hentry l hl ha, he]
      cases e <;> rfl
    refine .cons (fun h => Refuses.of_work hc hs (hw none h)) fun _ => .nil fun e he => ?_
    have hdone := hw (some e) he
    rw [he] at hdone
    exact fills_of c _ _ l (e.uid.getD 0) e.capability (e.lmin.getD 0) hc hl hn hdone

end Sys2Proof.Machine
end

section
/-! SUPPORT. SET_PLAN, READ_RECORD and READ_PORTAL (R17, R33, R34, R54, R58 to R60, R76). -/

namespace Sys2Proof.Machine

/-! ## The records of a footprint (R60) -/

/-- The slots of the listed records that satisfy a test are the slots below 512 whose record does. -/
theorem length_filter_roster {s : State} (hw : rosterWf s.roster = true) {f : Record → Bool}
    (hf : f (Record.vacant false) = false) (g : Nat → Bool) :
    (s.roster.filter fun e => f e.2 && g e.1).length = ((List.range 512).filter fun n => g n && f (s.record n)).length := by
  have hnodup : ((s.roster.filter fun e => f e.2 && g e.1).map Prod.fst).Nodup := by
    have hrise := (rosterWfFrom_rises hw).filter fun e => f e.2 && g e.1
    exact List.pairwise_map.2 (hrise.imp fun h => Nat.ne_of_lt h)
  rw [← List.length_map (f := Prod.fst)]
  refine ((List.perm_ext_iff_of_nodup hnodup (List.nodup_range.filter _)).2 fun n => ?_).length_eq
  simp only [List.mem_map, List.mem_filter, Bool.and_eq_true, List.mem_range]
  constructor
  · rintro ⟨e, ⟨he, hfe, hge⟩, rfl⟩
    exact ⟨(rosterWfFrom_mem hw he).2.1, hge, by rw [State.record_of_mem hw he]; exact hfe⟩
  · rintro ⟨-, hg, hfn⟩
    have hne : rosterGet s.roster n ≠ Record.vacant false := fun hv => by
      rw [State.record, hv, hf] at hfn
      nomatch hfn
    exact ⟨_, ⟨mem_of_rosterGet hne, hfn, hg⟩, rfl⟩

theorem occupied_ne_zero {s : State} (hw : rosterWf s.roster = true) (p : Fin 4) :
    occupied s p ≠ 0 ↔ ∃ n, (s.record n).nonVacant = true ∧ inFootprint s p n = true := by
  rw [occupied, ne_eq, List.length_eq_zero_iff, List.filter_eq_nil_iff]
  simp only [not_forall, not_not, Bool.and_eq_true]
  constructor
  · rintro ⟨e, he, hv, hin⟩
    exact ⟨e.1, by rwa [State.record_of_mem hw he], hin⟩
  · rintro ⟨n, hv, hin⟩
    exact ⟨_, State.mem_roster_of_nonVacant hv, hv, hin⟩

/-! ## SET_PLAN (R58, R59) -/

theorem planBusy_iff {s : State} {p : Fin 4} :
    planBusy s p = true ↔ (s.portal p).mode ≠ .halted ∨ (s.sweep p).running ≠ none := by
  simp [planBusy, Option.isSome_iff_ne_none]

theorem Plan.wf_eq_false {q : Plan} (h : q.stages ≠ 0) : q.wf = false ↔
    6 < q.stages ∨ q.rows = 0 ∨ 8 < q.rows ∨ q.positions = 0 ∨ 64 < q.positions ∨ 511 < q.base
      ∨ q.rowStride < q.positions ∨ q.stageStride < (q.rows - 1) * q.rowStride + q.positions
      ∨ 511 < q.base + (q.stages - 1) * q.stageStride + (q.rows - 1) * q.rowStride + (q.positions - 1) := by
  rw [← Bool.not_eq_true, Plan.wf_iff]
  omega

theorem overlapsOther_iff {s : State} {p : Fin 4} {q : Plan} (hw : q.wf = true) :
    overlapsOther s p q = true ↔ ∃ k n, k ≠ p ∧ q.names n ∧ inFootprint s k n = true := by
  have hholds : ∀ n, q.holds n = true ↔ q.names n := fun _ => Plan.holds_iff hw
  simp only [overlapsOther, List.any_eq_true, Bool.and_eq_true, bne_iff_ne, Option.any_eq_true, Plan.overlaps, List.mem_range,
    inFootprint_iff, hholds]
  constructor
  · rintro ⟨k, -, hk, r, hr, n, -, hq, hrn⟩
    exact ⟨k, n, hk, hq, r, hr, hrn⟩
  · rintro ⟨k, n, hk, hq, r, hr, hrn⟩
    exact ⟨k, mem_allPortals k, hk, r, hr, n, Plan.names_lt hw hq, hq, hrn⟩

theorem setPlanCommand_of_portal {portal : Byte} {p : Fin 4} (hp : p.val = portal.toNat) (stages rows positions : Byte)
    (base rowStride stageStride : Half) (s : State) :
    setPlanCommand portal stages rows positions base rowStride stageStride s =
      let q := planOf stages rows positions base rowStride stageStride
      if planBusy s p then refuse .portalRunning s
      else if occupied s p ≠ 0 then refuse .planOccupied s
      else if q.stages = 0 then done false (writePlan p none s)
      else if !q.wf then refuse .badPlan s
      else if overlapsOther s p q then refuse .planOverlap s
      else done false (writePlan p (some q) s) := by
  rw [setPlanCommand, portalOf_of_val hp]

/-- Settles O35. -/
theorem setPlanWritesOrRemovesAPlan : Obligations.SetPlanWritesOrRemovesAPlan := by
  intro s portal stages rows positions base rowStride stageStride hs hwf c q written
  have hc : exec c s = takeCommand 10 (setPlanCommand portal stages rows positions base rowStride stageStride) s := rfl
  have writes : ∀ p x, setPlanCommand portal stages rows positions base rowStride stageStride s = done false (writePlan p x s) →
      written p x := fun p x hw => by
    have short := onlyStageShort_evalStageShort p (s.setPlan p x)
    exact ⟨_, .of_done hc hs hw short.port, short, evalStageShort_stageShort ..⟩
  refine .cons (fun h => Refuses.of_work hc hs (by rw [setPlanCommand, portalOf_of_gt h])) fun _ => .nil fun p hp => ?_
  have hw := setPlanCommand_of_portal hp stages rows positions base rowStride stageStride s
  dsimp only at hw
  refine .cons (fun h => Refuses.of_work hc hs (hw.trans (if_pos (planBusy_iff.2 h)))) fun hidle => ?_
  replace hw := hw.trans (if_neg fun h => hidle (planBusy_iff.1 h))
  refine .cons (fun h => Refuses.of_work hc hs (hw.trans (if_pos ((occupied_ne_zero hwf p).2 h)))) fun hempty => .nil ?_
  replace hw := hw.trans (if_neg fun h => hempty ((occupied_ne_zero hwf p).1 h))
  have hzero : q.stages = 0 ↔ stages = 0 := ⟨fun e => BitVec.eq_of_toNat_eq e, fun e => by
    show stages.toNat = 0
    rw [e]; rfl⟩
  refine ⟨fun h => writes p none (hw.trans (if_pos (hzero.2 h))), fun hstages => ?_⟩
  have hstages : q.stages ≠ 0 := fun e => hstages (hzero.1 e)
  replace hw := hw.trans (if_neg hstages)
  have hbad : (!q.wf) = true ↔ _ := Bool.not_eq_true' .. |>.to_iff.trans (Plan.wf_eq_false hstages)
  refine .cons (fun h => Refuses.of_work hc hs (hw.trans (if_pos (hbad.2 h)))) fun hgood => ?_
  replace hw := hw.trans (if_neg fun h => hgood (hbad.1 h))
  have hqwf : q.wf = true := by
    rw [← Bool.not_eq_false]
    exact fun h => hgood ((Plan.wf_eq_false hstages).1 h)
  refine .cons (fun h => Refuses.of_work hc hs (hw.trans (if_pos ((overlapsOther_iff hqwf).2 h)))) fun hapart => .nil ?_
  exact writes p (some q) (hw.trans (if_neg fun h => hapart ((overlapsOther_iff hqwf).1 h)))

/-! ## The lengths of reply fields (R171) -/

theorem length_put1 (n : Nat) : (put1 n).length = 1 := rfl

theorem length_put2 (n : Nat) : (put2 n).length = 2 := rfl

theorem length_put3 (n : Nat) : (put3 n).length = 3 := rfl

theorem length_put6 (n : Nat) : (put6 n).length = 6 := rfl

theorem length_putFlag (b : Bool) : (putFlag b).length = 1 := by cases b <;> rfl

theorem length_putOpt {w : Nat} {put : Nat → List Byte} (h : ∀ n, (put n).length = w) (x : Option Nat) :
    (putOpt w put x).length = w + 1 := by
  cases x with
  | none => exact List.length_replicate
  | some n => rw [putOpt, List.length_append, h, length_put1, Nat.add_comm]

/-! ## READ_RECORD (R76) -/

theorem length_coordsBytes (s : State) (n : Nat) : (coordsBytes s n).length = 5 := by
  unfold coordsBytes
  split <;> rfl

theorem placeOfSlot_eq_none {s : State} {n : Nat} (h : ∀ p, inFootprint s p n = false) : placeOfSlot s n = none := by
  unfold placeOfSlot
  rw [portalOfSlot_eq_none.2 h]

theorem readRecordCommand_of_slot {slot : Half} (h : ¬ 511 < slot.toNat) (s : State) :
    readRecordCommand slot s
      = answer (recordBytes s slot.toNat) (s.setRecord slot.toNat { s.record slot.toNat with changed := false }) := by
  rw [readRecordCommand, slotOf_of_le h]

/-- Settles O40. -/
theorem readRecordReportsEveryFieldAndClearsTheMark : Obligations.ReadRecordReportsEveryFieldAndClearsTheMark := by
  intro s slot hs hroster c n r front
  have hc : exec c s = takeCommand 2 (readRecordCommand slot) s := rfl
  have ⟨hwf, _, _, hplans⟩ := hroster
  refine .cons (fun h => Refuses.of_work hc hs (by rw [readRecordCommand, slotOf_of_gt h])) fun hslot => .nil ?_
  have hbytes : recordBytes s n = front ++ coordsBytes s n := by
    have hflag : ∀ b : Bool, [if b then (1 : Byte) else 0] = putFlag b := fun b => by cases b <;> rfl
    simp only [front, recordBytes, hflag, bytesOf_one, bytesOf_two, bytesOf_six, optionalBytes_two, List.append_assoc]
    rw [show s.record n = r from rfl]
    clear_value r
    obtain ⟨state, place, uid, confirmed, m, override, capability, lmin, pinned, fault, misses, lastSent, lastAcked, changed⟩ := r
    obtain _ | q := place <;> obtain _ | _ | _ := capability <;> rfl
  have hlength : (recordBytes s n).length = 35 := by
    simp only [recordBytes, List.length_append, length_put1, length_put2, length_put6, length_putFlag,
      length_putOpt length_put2, length_coordsBytes]
  refine ⟨_, coordsBytes s n, Answers.of_work hc hs (hbytes ▸ readRecordCommand_of_slot hslot s) (by simp), hbytes ▸ hlength,
    recordWritten_setRecord hwf (by omega) _, setRecord_eq .., fun hnone => ?_, fun p q x hq hx => ?_⟩
  · rw [coordsBytes, placeOfSlot_eq_none hnone]
    rfl
  · rw [coordsBytes, placeOfSlot_eq hplans hq hx]
    simp only [bytesOf_one]
    rfl

/-! ## READ_PORTAL (R17, R33, R34, R54, R60) -/

theorem bytesOf_three (n : Nat) : bytesOf 3 n = put3 n := by
  simp [bytesOf, put3, put2, put1, List.range_succ]

theorem optionalBytes_three (x : Option Nat) : optionalBytes 3 x = putOpt 3 put3 x := by
  cases x with
  | none => rfl
  | some n => rw [optionalBytes, bytesOf_three]; rfl

theorem flatMap_six {α : Type} (f : Nat → List α) (v : Vector Nat 6) :
    v.toList.flatMap f = f v[0] ++ f v[1] ++ f v[2] ++ f v[3] ++ f v[4] ++ f v[5] := by
  rcases v with ⟨⟨l⟩, h⟩
  match l, h with
  | [_, _, _, _, _, _], _ => simp

theorem Profile.bytes_eq (v : Profile) : v.bytes = profileLayout v := by
  simp only [profileLayout, flatMap_six, List.flatMap_cons, List.flatMap_nil, List.append_nil, bytesOf_two, bytesOf_three,
    bytesOf_one, Profile.bytes, List.append_assoc]

theorem length_profileBytes (v : Profile) : v.bytes.length = 40 := by
  simp only [Profile.bytes, List.length_append, length_put1, length_put2, length_put3]

theorem profilePart_of_none {x : Portal} (h : x.pendingProfile = none) :
    profilePart x = profileLayout x.active ++ List.replicate 41 0 := by
  rw [profilePart, h, Profile.bytes_eq]

theorem profilePart_of_some {x : Portal} {v : Profile} (h : x.pendingProfile = some v) :
    profilePart x = profileLayout x.active ++ 1 :: profileLayout v := by
  rw [profilePart, h, Profile.bytes_eq]
  dsimp only
  rw [Profile.bytes_eq]
  rfl

theorem length_profilePart (x : Portal) : (profilePart x).length = 81 := by
  unfold profilePart
  rw [List.length_append, length_profileBytes]
  split
  · rfl
  · rw [List.length_append, length_profileBytes, length_put1]

theorem length_putSix (f : Fin 6 → Nat) : (putSix f).length = 12 := rfl

theorem length_computedPart (s : State) (p : Fin 4) : (computedPart s p).length = 17 := by
  simp only [computedPart, List.length_append, length_putOpt length_put3, length_putSix, length_put1]

theorem length_modePart (s : State) (p : Fin 4) : (modePart s p).length = 41 := by
  simp only [modePart, List.length_append, length_put1, length_put2, length_putFlag, length_putSix]

theorem length_planPart (s : State) (p : Fin 4) : (planPart s p).length = 14 := by
  unfold planPart
  rw [List.length_append, List.length_append, length_put2, length_put2]
  split <;> rfl

theorem length_reportBytes (r : MeterReport) : r.bytes.length = 8 := by
  simp only [MeterReport.bytes, List.length_append, length_put1, length_putOpt length_put2, length_putFlag]

theorem length_photoBytes (x : Photo) : x.bytes.length = 8 + 8 * x.reports.length := by
  simp only [Photo.bytes, List.length_append, length_put1, length_putOpt length_put2, List.length_flatMap,
    length_reportBytes, List.map_const', List.sum_replicate, smul_eq_mul]
  omega

theorem readPortal_of_portal {portal : Byte} {p : Fin 4} (hp : p.val = portal.toNat) (s : State) :
    readPortal portal s = answer (portalBytes s p) (clearReported (photoOf s p) s) := by
  rw [readPortal, portalOf_of_val hp]

/-- R10, R17: the sticky lost flags of a portal's own meters are cleared when they are reported. -/
theorem meter_clearReported_photoOf (s : State) (p : Fin 4) (m : Fin 8) :
    (clearReported (photoOf s p) s).meter m
      = if ∃ q, (s.meter m).site = some q ∧ q.portal = p then { s.meter m with lost := false } else s.meter m := by
  rw [clearReported_eq, meter_forEach_clearLost]
  by_cases hown : ∃ q, (s.meter m).site = some q ∧ q.portal = p
  · rw [if_pos hown]
    have hreport : ∀ b, (s.meter m).lost = b →
        ((∃ r, r ∈ (photoOf s p).reports ∧ r.meter = m ∧ r.lost = true) ↔ b = true) := by
      rintro b rfl
      constructor
      · rintro ⟨r, hr, rfl, hlost⟩
        obtain ⟨k, -, rfl⟩ := List.mem_map.1 hr
        exact hlost
      · exact fun hlost => ⟨meterReport s m, List.mem_map.2 ⟨m, mem_ownMeters.2 hown, rfl⟩, rfl, hlost⟩
    cases hlost : (s.meter m).lost
    · rw [if_neg ((hreport _ hlost).not.2 (by decide)), ← hlost]
    · rw [if_pos ((hreport _ hlost).2 rfl)]
  · rw [if_neg hown, if_neg]
    rintro ⟨r, hr, rfl, -⟩
    obtain ⟨k, hk, rfl⟩ := List.mem_map.1 hr
    exact hown (mem_ownMeters.1 hk)

/-- Settles O33. -/
theorem readPortalReportsAndClearsLostFlags : Obligations.ReadPortalReportsAndClearsLostFlags := by
  intro s portal hs hwf c
  have hc : exec c s = takeCommand 1 (readPortal portal) s := rfl
  refine .cons (fun h => Refuses.of_work hc hs (by rw [readPortal, portalOf_of_gt h])) fun _ => .nil fun p hp => ?_
  intro x held profile mode plan
  refine ⟨photoOf s p, x.lf.map (threshold x.active), (clearReported (photoOf s p) s).meters, ?_⟩
  intro computed reply
  have hprofile : profilePart x = profile := by
    cases hpending : x.pendingProfile with
    | none => simp only [profilePart_of_none hpending, profile, hpending]
    | some v => simp only [profilePart_of_some hpending, profile, hpending]
  have hcomputed : computedPart s p = computed := by
    have hsix : putSix x.target = (List.finRange 6).flatMap fun i => put2 (x.target i) := by
      rw [show List.finRange 6 = allStages by decide]
      rfl
    simp only [computed, optionalBytes_three, bytesOf_two, bytesOf_one, ← hsix]
    rfl
  have hmodeByte : ∀ m : Mode, put1 m.code = [modeByte m] := fun m => by cases m <;> rfl
  have hmode : modePart s p = mode := by
    have hreturn : put1 (modeCode (x.returnMode.map ReturnMode.mode)) = [(x.returnMode.map fun m => modeByte m.mode).getD 0] := by
      cases x.returnMode
      · rfl
      · exact hmodeByte _
    have hpending : put1 (modeCode (x.pendingMode.map RunMode.mode)) = [(x.pendingMode.map fun m => modeByte m.mode).getD 0] := by
      cases x.pendingMode
      · rfl
      · exact hmodeByte _
    have hpin : s.emergAsserted = decide (s.emergN = s.straps.getLsbD 3) := by
      rw [State.emergAsserted, beq_eq_decide]
    simp only [modePart, mode, hmodeByte, putSix_eq, putFlag_eq_flagByte, bytesOf_one, bytesOf_two, hpin, List.append_assoc]
    rw [hreturn, hpending]
    rfl
  have hplan : planPart s p = plan := by
    have hnon : occupied s p = held Record.nonVacant := length_filter_roster hwf rfl (inFootprint s p)
    have hactive : activeCount s p = held fun r => r.state == .active :=
      length_filter_roster (f := fun r => r.state == .active) hwf rfl (inFootprint s p)
    cases hq : s.plan p with
    | none => simp only [planPart, plan, hq, hnon, hactive, bytesOf_two]
    | some q => simp only [planPart, plan, hq, hnon, hactive, bytesOf_one, bytesOf_two] <;> rfl
  have hbytes : portalBytes s p = reply := by
    rw [portalBytes, Photo.bytes_eq, hcomputed, hmode, hplan, show profilePart (s.portal p) = profile from hprofile]
  have hlength : reply.length = 161 + 8 * (photoOf s p).reports.length := by
    rw [← hbytes, portalBytes]
    simp only [List.length_append, length_photoBytes, length_profilePart, length_computedPart, length_modePart, length_planPart]
    omega
  have hframe := clearReported_frame (photoOf s p) s
  refine ⟨photoShows_photoOf s p, fun h => ?_, fun lf h => ⟨threshold x.active lf, ?_, roundDiv_rounds (by decide)⟩, ?_, hlength,
    fun m => meter_clearReported_photoOf s p m⟩
  · rw [h]; rfl
  · rw [h]; rfl
  · have hport : (clearReported (photoOf s p) s).port = s.port := by rw [hframe]
    rw [← hframe]
    exact Answers.of_work hc hs (hbytes ▸ readPortal_of_portal hp s) hport

end Sys2Proof.Machine
end

section
/-! SUPPORT. The level of a luminaire: its neighbours, and each step of the chain (R82 to R95). -/

namespace Sys2Proof.Machine

/-! ## Neighbours (R90, R91) -/

/-- The first element that passes a test, going down, is marked: a marked one has nothing that passes above it. -/
theorem find?_down_any {α : Type} {P D : α → Bool} (hD : ∀ a, D a = true → P a = true) (g : Nat → α) (k : Nat) :
    ((((List.range k).reverse.map g).find? P).any D) = true ↔ ∃ j, j < k ∧ D (g j) = true ∧ ∀ i, j < i → i < k → P (g i) = false := by
  induction k with
  | zero => simp
  | succ k ih =>
    rw [List.range_succ, List.reverse_append, List.reverse_singleton, List.singleton_append, List.map_cons, List.find?_cons]
    cases hk : P (g k) with
    | true =>
      constructor
      · exact fun h => ⟨k, Nat.lt_succ_self k, h, fun i hi hik => by omega⟩
      · rintro ⟨j, hj, hd, hempty⟩
        obtain rfl | hlt := Nat.eq_or_lt_of_le (Nat.le_of_lt_succ hj)
        · exact hd
        · rw [hempty k hlt (Nat.lt_succ_self k)] at hk
          nomatch hk
    | false =>
      refine ih.trans ⟨fun ⟨j, hj, hd, hempty⟩ => ⟨j, by omega, hd, fun i hi hik => ?_⟩, fun ⟨j, hj, hd, hempty⟩ => ?_⟩
      · obtain rfl | hlt := Nat.eq_or_lt_of_le (Nat.le_of_lt_succ hik)
        · exact hk
        · exact hempty i hi hlt
      · have hjk : j ≠ k := by
          rintro rfl
          rw [hD _ hd] at hk
          nomatch hk
        exact ⟨j, by omega, hd, fun i hi hik => hempty i hi (by omega)⟩

/-- The same, going up from a position. -/
theorem find?_up_any {α : Type} {P D : α → Bool} (hD : ∀ a, D a = true → P a = true) (g : Nat → α) (m a : Nat) :
    ((((List.range' a m).map g).find? P).any D) = true
      ↔ ∃ j, a ≤ j ∧ j < a + m ∧ D (g j) = true ∧ ∀ i, a ≤ i → i < j → P (g i) = false := by
  induction m generalizing a with
  | zero => exact iff_of_false (by simp) fun ⟨j, hj, hlt, _⟩ => by omega
  | succ m ih =>
    rw [List.range'_succ, List.map_cons, List.find?_cons]
    cases ha : P (g a) with
    | true =>
      constructor
      · exact fun h => ⟨a, le_rfl, by omega, h, fun i hi hia => by omega⟩
      · rintro ⟨j, hj, -, hd, hempty⟩
        obtain rfl | hlt := Nat.eq_or_lt_of_le hj
        · exact hd
        · rw [hempty a le_rfl hlt] at ha
          nomatch ha
    | false =>
      refine (ih (a + 1)).trans ⟨fun ⟨j, hj, hjm, hd, hempty⟩ => ⟨j, by omega, by omega, hd, fun i hi hij => ?_⟩,
        fun ⟨j, hj, hjm, hd, hempty⟩ => ?_⟩
      · obtain rfl | hlt := Nat.eq_or_lt_of_le hi
        · exact ha
        · exact hempty i hlt hij
      · have hja : j ≠ a := by
          rintro rfl
          rw [hD _ hd] at ha
          nomatch ha
        exact ⟨j, by omega, by omega, hd, fun i hi hij => hempty i (by omega) hij⟩

theorem countsDark_iff {x : RecordState} : x.countsDark = true ↔ x = .dark ∨ x = .silent ∨ x = .retiring := by
  cases x <;> simp [RecordState.countsDark]

theorem nonVacant_eq_false {r : Record} : r.nonVacant = false ↔ r.state = .vacant := by
  simp [Record.nonVacant]

theorem hasDarkNeighbour_eq (s : State) (q : Plan) (c : Coords) :
    hasDarkNeighbour s q c
      = ((lowerNeighbour s q c).any (·.state.countsDark) || (upperNeighbour s q c).any (·.state.countsDark)) := by
  unfold hasDarkNeighbour
  cases lowerNeighbour s q c <;> cases upperNeighbour s q c <;> simp

theorem hasDarkNeighbour_iff {s : State} {q : Plan} {c : Coords} (hc : c.position < q.positions) :
    hasDarkNeighbour s q c = true ↔
      (∃ j, j < c.position ∧ (s.record (q.slotAt { c with position := j })).state.countsDark = true
          ∧ ∀ i, j < i → i < c.position → (s.record (q.slotAt { c with position := i })).state = .vacant)
      ∨ ∃ j, c.position < j ∧ j < q.positions ∧ (s.record (q.slotAt { c with position := j })).state.countsDark = true
          ∧ ∀ i, c.position < i → i < j → (s.record (q.slotAt { c with position := i })).state = .vacant := by
  have hD : ∀ r : Record, r.state.countsDark = true → r.nonVacant = true := fun r h => by
    rw [← Bool.not_eq_false, nonVacant_eq_false]
    intro hv
    rw [hv] at h
    nomatch h
  have hup : upperNeighbour s q c = ((List.range' (c.position + 1) (q.positions - (c.position + 1))).map fun j =>
      s.record (q.slotAt { c with position := j })).find? Record.nonVacant := by
    rw [List.range'_eq_map_range, List.map_map]
    rfl
  rw [hasDarkNeighbour_eq, Bool.or_eq_true, hup]
  refine or_congr ?_ ?_
  · refine (find?_down_any hD (fun j => s.record (q.slotAt { c with position := j })) c.position).trans ?_
    simp only [nonVacant_eq_false]
  · refine (find?_up_any hD (fun j => s.record (q.slotAt { c with position := j })) _ _).trans (exists_congr fun j => ?_)
    simp only [nonVacant_eq_false]
    rw [show c.position + 1 + (q.positions - (c.position + 1)) = q.positions by omega]
    exact Iff.rfl

/-! ## The chain (R83 to R89) -/

theorem levelOfSlot_of_coords {s : State} (h : FootprintLaw s) {p : Fin 4} {q : Plan} {n : Nat} {x : Coords}
    (hq : s.plan p = some q) (hx : q.coords n = some x) :
    levelOfSlot s n = levelChain (s.portal p).mode ((s.portal p).levels.toList.getD x.stage 0) (s.portal p).active.boost
      (s.record n) ((s.record n).boosted (hasDarkNeighbour s q x)) := by
  unfold levelOfSlot
  rw [placeOfSlot_eq h hq hx]
  dsimp only
  rw [hq]

theorem effectiveCapability_iff {r : Record} :
    r.effectiveCapability = true ↔ r.override = .forceOn ∨ r.override = .auto ∧ r.capability = some true := by
  unfold Record.effectiveCapability
  cases r.override <;> simp

theorem boosted_iff {r : Record} {dark : Bool} : r.boosted dark = true ↔ r.state = .active ∧ r.pinned = none
    ∧ (r.override = .forceOn ∨ r.override = .auto ∧ r.capability = some true) ∧ dark = true := by
  simp only [Record.boosted, Bool.and_eq_true, beq_iff_eq, Option.isNone_iff_eq_none, effectiveCapability_iff, and_assoc]

theorem levelChain_of_emergency {mode : Mode} (h : mode = .emergency) (level bp : Nat) (r : Record) (boost : Bool) :
    levelChain mode level bp r boost = 10000 := if_pos h

theorem levelChain_of_pinned {mode : Mode} (h : mode ≠ .emergency) (level bp : Nat) {r : Record} {pin : Nat}
    (hpin : r.pinned = some pin) (boost : Bool) :
    levelChain mode level bp r boost = if pin = 0 then 0 else max pin r.lmin := by
  unfold levelChain
  rw [if_neg h, hpin]

theorem levelChain_of_free {mode : Mode} (h : mode ≠ .emergency) (level bp : Nat) {r : Record} (hpin : r.pinned = none)
    (boost : Bool) : levelChain mode level bp r boost =
      if level = 0 then 0
      else max (if boost then boostedLevel bp (corrected level r.m) else corrected level r.m) r.lmin := by
  unfold levelChain
  rw [if_neg h, hpin]

theorem levelChain_lmin {mode : Mode} {level bp : Nat} {r : Record} (hr : r.lmin ≤ 10000) (boost : Bool) :
    levelChain mode level bp r boost = 0 ∨ r.lmin ≤ levelChain mode level bp r boost := by
  by_cases hmode : mode = .emergency
  · rw [levelChain_of_emergency hmode]
    exact .inr hr
  cases hpin : r.pinned with
  | some pin =>
    rw [levelChain_of_pinned hmode _ _ hpin]
    split
    · exact .inl rfl
    · exact .inr (le_max_right _ _)
  | none =>
    rw [levelChain_of_free hmode _ _ hpin]
    split
    · exact .inl rfl
    · exact .inr (le_max_right _ _)

/-- Settles O43. -/
theorem levelFollowsTheChain : Obligations.LevelFollowsTheChain := by
  intro s p q x n hplans hrange hq hx r level other counts darkNeighbour capable boosted
  obtain ⟨⟨hstage, hrow, hposition⟩, -⟩ := Plan.of_coords hx
  obtain ⟨-, -, -, hrecords, -⟩ := hrange
  have hrecord : r.inRange := hrecords n
  have hlevel := levelOfSlot_of_coords hplans hq hx
  have hdark : hasDarkNeighbour s q x = true ↔ darkNeighbour := by
    rw [hasDarkNeighbour_iff hposition]
    simp only [countsDark_iff]
    refine or_congr (exists_congr fun j => and_congr_right fun hj => and_congr_left fun _ => ?_) (exists_congr fun j => ?_)
    · exact (and_iff_right (show j < q.positions by omega)).symm
    · exact and_congr_right fun _ => and_assoc.symm
  have hboosted : r.boosted (hasDarkNeighbour s q x) = true ↔ boosted := by rw [boosted_iff, hdark]
  have hle : level ≤ 10000 := levelOfSlot_le hrecord
  obtain ⟨-, -, ⟨hm, -⟩, hlmin, -⟩ := hrecord
  refine ⟨fun hmode => hlevel.trans (levelChain_of_emergency hmode ..), fun hmode => ⟨fun pin hpin =>
    hlevel.trans (levelChain_of_pinned hmode _ _ hpin _), fun hpin i hi => ?_⟩, hle, ?_⟩
  · have hat : (s.portal p).levels.toList.getD x.stage 0 = (s.portal p).levels[i] := by
      rw [← hi, List.getD_eq_getElem _ _ (by simp), Vector.getElem_toList]
      rfl
    rw [hat, levelChain_of_free hmode _ _ hpin] at hlevel
    refine ⟨fun hzero => hlevel.trans (if_pos hzero), fun hlit => ?_⟩
    replace hlevel := hlevel.trans (if_neg hlit)
    refine ⟨_, _, corrected (s.portal p).levels[i] r.m,
      if r.boosted (hasDarkNeighbour s q x) then
        boostedLevel (s.portal p).active.boost (corrected (s.portal p).levels[i] r.m)
      else corrected (s.portal p).levels[i] r.m,
      roundDiv_rounds (by omega), rfl, roundDiv_rounds (by decide), fun hb => if_pos (hboosted.2 hb),
      fun hb => if_neg fun h => hb (hboosted.1 h), hlevel⟩
  · show levelOfSlot s n = 0 ∨ r.lmin ≤ levelOfSlot s n
    rw [hlevel]
    exact levelChain_lmin (show (s.record n).lmin ≤ 10000 from le_trans hlmin (by decide)) _

end Sys2Proof.Machine
end

section
/-! SUPPORT. The requests of a completion's request slot (R134 to R137). -/

namespace Sys2Proof.Machine

/-! ## The characters of a request (R134) -/

/-- The request that a marker spells. -/
def requestOf (marker : Byte) (a : Nat) : Option Request :=
  if marker = 0xE0 then some (.join false a)
  else if marker = 0xE1 then some (.join true a)
  else if marker = 0xE2 then some (.news false a)
  else if marker = 0xE3 then some (.news true a)
  else none

theorem requestOf_eq_some {marker : Byte} {a : Nat} {q : Request} :
    requestOf marker a = some q ↔ marker = 0xE0 ∧ q = .join false a ∨ marker = 0xE1 ∧ q = .join true a
      ∨ marker = 0xE2 ∧ q = .news false a ∨ marker = 0xE3 ∧ q = .news true a := by
  constructor
  · intro h
    unfold requestOf at h
    split_ifs at h with h0 h1 h2 h3 <;> cases h
    · exact .inl ⟨h0, rfl⟩
    · exact .inr (.inl ⟨h1, rfl⟩)
    · exact .inr (.inr (.inl ⟨h2, rfl⟩))
    · exact .inr (.inr (.inr ⟨h3, rfl⟩))
  · rintro (⟨rfl, rfl⟩ | ⟨rfl, rfl⟩ | ⟨rfl, rfl⟩ | ⟨rfl, rfl⟩) <;> rfl

theorem readRequest_eq_some {got : List Byte} {q : Request} :
    readRequest got = some q ↔ ∃ (a : Byte) (marker : Byte), a ≠ 0 ∧ a ≠ 255 ∧ got = [marker, a, crc8 [marker, a]]
      ∧ requestOf marker a.toNat = some q := by
  constructor
  · intro h
    unfold readRequest at h
    split at h
    next marker driver check =>
      by_cases hcheck : crc8 [marker, driver] = check
      swap
      · rw [if_pos hcheck] at h
        nomatch h
      rw [if_neg (not_not.2 hcheck)] at h
      by_cases ha : driver = 0 ∨ driver = 255
      · rw [addressOf_of_reserved ha] at h
        nomatch h
      · rw [addressOf_of_not_reserved ha] at h
        obtain ⟨h0, h255⟩ := not_or.1 ha
        exact ⟨driver, marker, h0, h255, by rw [hcheck], h⟩
    · nomatch h
  · rintro ⟨a, marker, h0, h255, rfl, h⟩
    unfold readRequest
    dsimp only
    rw [if_neg (not_not.2 rfl), addressOf_of_not_reserved (not_or.2 ⟨h0, h255⟩)]
    exact h

/-! ## The queues of a line (R138, R140) -/

theorem queuedIdentify_eq (admin : List AdminEntry) (a : Nat) : queuedIdentify admin a
    = if (⟨.identify, a⟩ : AdminEntry) ∈ admin ∨ 16 ≤ admin.length then admin else admin ++ [⟨.identify, a⟩] := by
  unfold queuedIdentify
  simp only [List.contains_iff_mem]
  rfl

theorem offered_eq (service : List Nat) (a : Nat) :
    offered service a = if a ∈ service ∨ 32 ≤ service.length then service else service ++ [a] := by
  unfold offered
  simp only [List.contains_iff_mem]
  rfl

/-! ## Each request (R135 to R137) -/

section

variable {s : State} {l : Line} {a : Nat}

theorem takeJoin_of_retiring {n : Nat} (hn : s.lookup l a = some n) (h : (s.record n).state = .retiring) :
    takeJoin l a s = s := by
  unfold takeJoin
  rw [hn]
  exact if_pos h

theorem takeJoin_of_standing {n : Nat} (hn : s.lookup l a = some n) (h : (s.record n).state ≠ .retiring) :
    takeJoin l a s = queueIdentify l a s := by
  unfold takeJoin
  rw [hn]
  exact if_neg h

theorem takeNews_of_retiring {n : Nat} (hn : s.lookup l a = some n) (h : (s.record n).state = .retiring) :
    takeNews l a s = s := by
  unfold takeNews
  rw [hn]
  exact if_pos h

theorem takeNews_of_standing {n : Nat} (hn : s.lookup l a = some n) (h : (s.record n).state ≠ .retiring) :
    takeNews l a s = offerService l a s := by
  unfold takeNews
  rw [hn]
  exact if_neg h

theorem takeNews_of_free (hn : s.lookup l a = none) : takeNews l a s = s := by
  unfold takeNews
  rw [hn]

theorem takeJoin_of_ignored (hn : s.lookup l a = none) (h : a ∈ (s.line l).ignored) : takeJoin l a s = s := by
  unfold takeJoin
  rw [hn]
  exact if_pos (by simpa using h)

theorem takeJoin_of_stray (hn : s.lookup l a = none) (hi : a ∉ (s.line l).ignored) (h : (s.line l).hasStray a = true) :
    takeJoin l a s = queueIdentify l a s := by
  unfold takeJoin
  rw [hn]
  dsimp only
  rw [if_neg (by simpa using hi), if_pos h]

theorem takeJoin_of_full (hn : s.lookup l a = none) (h : (s.line l).hasStray a = false) (hfull : 8 ≤ (s.line l).strays.length) :
    takeJoin l a s = s := by
  unfold takeJoin
  rw [hn]
  dsimp only
  rw [h, if_neg (show ¬ (s.line l).strays.length < Config.strayCapacity from Nat.not_lt.2 hfull)]
  simp

theorem takeJoin_of_new (hn : s.lookup l a = none) (hi : a ∉ (s.line l).ignored) (h : (s.line l).hasStray a = false)
    (hroom : (s.line l).strays.length < 8) : takeJoin l a s = queueIdentify l a (addStray l a s) := by
  unfold takeJoin
  rw [hn]
  dsimp only
  rw [if_neg (by simpa using hi), if_neg (by simp [h]), if_pos (show _ < Config.strayCapacity from hroom)]

/-- A state with a new stray entry and an IDENTIFY queued for it. -/
def withStray (l : Line) (a : Nat) (s : State) : State :=
  s.setLine l { s.line l with
    strays := (s.line l).strays ++ [.unfilled a]
    admin := queuedIdentify (s.line l).admin a }

theorem queueIdentify_addStray_of_told (h : (s.line l).strays ≠ [] ∨ (s.noticeClass (strayClass l)).holds = true) :
    queueIdentify l a (addStray l a s) = withStray l a s := by
  have hadd : addStray l a s = s.setLine l { s.line l with strays := (s.line l).strays ++ [.unfilled a] } := by
    unfold addStray
    dsimp only
    split
    next hempty =>
      have hholds := h.resolve_left (not_not.2 (List.isEmpty_iff.1 hempty))
      exact if_pos (by cases l <;> exact hholds)
    · rfl
  rw [hadd]
  cases l <;> rfl

theorem queueIdentify_addStray_of_first (h : (s.line l).strays = [])
    (hholds : (s.noticeClass (strayClass l)).holds = false) :
    queueIdentify l a (addStray l a s) = (withStray l a s).setNoticeClass (strayClass l)
      { s.noticeClass (strayClass l) with holds := true, pending := true } := by
  have hadd : addStray l a s =
      (s.setLine l { s.line l with strays := (s.line l).strays ++ [.unfilled a] }).setNoticeClass (strayClass l)
        { s.noticeClass (strayClass l) with holds := true, pending := true } := by
    unfold addStray
    dsimp only
    rw [if_pos (List.isEmpty_iff.2 h)]
    unfold handTrue
    rw [if_neg (by cases l <;> exact Bool.eq_false_iff.1 hholds)]
    cases l <;> rfl
  rw [hadd]
  cases l <;> rfl

end

/-! ## The completion (R118) -/

theorem exec_exchangeCompletion {s : State} {l : Line} {x : Exchange} {got asked : List Byte} (hs : s.resetN = true)
    (hx : (s.line l).state = .busy { x with phase := .slot got asked }) (chars : List Byte) :
    exec (.exchangeCompletion l chars) s = .next (complete l x got (asked ++ chars) s) := by
  have hc : exec (.exchangeCompletion l chars) s = event (exchangeCompletion l chars) s := rfl
  rw [hc, event_of_high hs, exchangeCompletion, hx]
  rfl

theorem strayClass_ne_sweepDoneClass (l : Line) (p : Fin 4) : strayClass l ≠ sweepDoneClass p := by
  cases l <;> revert p <;> decide

/-- What the steps of a completion after the request leave of it: sweeps apart, the line is freed. -/
theorem onlySweeps_complete (l : Line) (x : Exchange) (received request : List Byte) (s : State) :
    ∃ u, OnlySweeps (takeRequest l (readRequest request) (applyResult l x (acceptReply x.frame x.address received) s)) u
      ∧ OnlySweeps (freeLine l u) (complete l x received request s) :=
  ⟨_, onlySweeps_notifyOrigin l x.origin _, onlySweeps_settleSweeps _⟩

/-- Settles O54. -/
theorem requestsActOnTheLinesCollections : Obligations.RequestsActOnTheLinesCollections := by
  refine ⟨fun got q => ?_, ?_, ?_⟩
  · simp only [readRequest_eq_some, requestOf_eq_some]
  · intro s l a hlaw c entry queued join news isStray kept
    have hqueue : queueIdentify l a s = s.setLine l { c with admin := queued } := by
      unfold queueIdentify
      rw [queuedIdentify_eq]
    have hoffer : offerService l a s = s.setLine l { c with
        service := if a ∈ c.service ∨ 32 ≤ c.service.length then c.service else c.service ++ [a] } := by
      unfold offerService
      rw [offered_eq]
    have hadded : withStray l a s = s.setLine l { c with strays := c.strays ++ [⟨a, none, none, none⟩], admin := queued } := by
      unfold withStray
      rw [queuedIdentify_eq]
      rfl
    have hremoved : takeRequest l (some (.join false a)) s = _ := removeStray_eq l a s
    refine ⟨fun n hn => ?_, fun hfree => ?_, rfl, fun hlast hsome => ?_, fun hmore => ?_, rfl⟩
    · have hlookup := hlaw.lookup_eq_some.2 hn
      exact ⟨fun h => ⟨takeJoin_of_retiring hlookup h, takeNews_of_retiring hlookup h⟩,
        fun h => ⟨(takeJoin_of_standing hlookup h).trans hqueue, (takeNews_of_standing hlookup h).trans hoffer⟩⟩
    · have hlookup := (State.lookup_eq_none hlaw.1).2 hfree
      have hstray : ¬ isStray → (s.line l).hasStray a = false := fun h =>
        Bool.eq_false_iff.2 fun hhas => h (hasStray_iff.1 hhas)
      refine ⟨takeNews_of_free hlookup, takeJoin_of_ignored hlookup,
        fun hi h => (takeJoin_of_stray hlookup hi (hasStray_iff.2 h)).trans hqueue,
        fun _ h => takeJoin_of_full hlookup (hstray h), fun hi h hroom => ?_⟩
      intro added
      have hjoin : join = _ := takeJoin_of_new hlookup hi (hstray h) hroom
      refine ⟨fun htold => ?_, fun hfirst hholds => ?_⟩
      · rw [hjoin, queueIdentify_addStray_of_told htold, hadded]
      · rw [hjoin, queueIdentify_addStray_of_first hfirst hholds, hadded]
    · rw [hremoved, if_pos ⟨hlast, hsome⟩]
    · rw [hremoved, if_neg fun ⟨hlast, hsome⟩ => hmore.elim (· hlast) (hsome ·)]
  · intro s l x got asked chars hs hx
    refine ⟨_, exec_exchangeCompletion hs hx chars, ?_⟩
    intro applied after
    obtain ⟨u, htold, hsettled⟩ := onlySweeps_complete l x got (asked ++ chars) s
    refine ⟨?_, ?_, ?_⟩
    · rw [hsettled.line]
      unfold freeLine
      rw [State.line_setLine_self, htold.line]
    · rw [hsettled.roster]
      exact (State.setLine_roster ..).trans htold.roster
    · rw [hsettled.noticeClass_eq (strayClass_ne_sweepDoneClass l)]
      exact Eq.trans (by cases l <;> rfl) (htold.noticeClass_eq (strayClass_ne_sweepDoneClass l))

end Sys2Proof.Machine
end

section
/-! SUPPORT. SET_LINE and READ_LINE (R131, R132), and the sweeps that several slots ask for together (R98). -/

namespace Sys2Proof.Machine

/-! ## Several requests before one settling (R98) -/

theorem forEach_append {α : Type} (xs ys : List α) (f : α → State → State) (s : State) :
    forEach (xs ++ ys) f s = forEach ys f (forEach xs f s) := List.foldl_append ..

/-- A portal that has been asked for a sweep is asked again. -/
theorem SweepAsked.again {p : Fin 4} {s t : State} (h : SweepAsked p s t) (honly : OnlySweeps s t)
    (hw : rosterWf t.roster = true) (hmode : (s.portal p).mode ≠ .halted) : SweepAsked p s (requestSweep p t) := by
  have hmode' : (t.portal p).mode ≠ .halted := by rw [honly.mode]; exact hmode
  intro _
  by_cases hidle : (t.sweep p).running = none
  swap
  · rw [requestSweep_of_running hmode' hidle]
    refine .inl ⟨?_, ?_⟩ <;> rw [State.sweep_setSweep_self]
    exact hidle
  obtain ⟨hrun, -⟩ | ⟨hrun, -⟩ | ⟨hsweep, -, -, hnone⟩ := h hmode
  · exact absurd hidle hrun
  · exact absurd hidle hrun
  have howed : (t.sweep p).owed = false := by rw [hsweep]
  have hrequest := requestSweep_of_idle hmode' hidle
  obtain ⟨hbegun, -, hended⟩ := sweepStarted_startSweep hw hidle howed .normal
  obtain ⟨hsweep', hdone⟩ := hended fun l => ⟨fun ⟨w, hold, _⟩ => (nomatch hold), hnone l⟩
  rw [hrequest]
  refine .inr (.inr ⟨hsweep', by rw [hbegun, honly.portal], hdone, fun l n => ?_⟩)
  rw [(onlySweeps_startSweep .normal p t).eligibleAt]
  exact hnone l n

theorem SweepLawAt.owing {p : Fin 4} {t : State} (h : SweepLawAt t p) (hrun : (t.sweep p).running ≠ none) :
    SweepLawAt (t.setSweep p { t.sweep p with owed := true }) p := by
  obtain ⟨hrunning, -⟩ := h
  refine ⟨fun w hw => ?_, fun hidle => ?_⟩
  · rw [State.sweep_setSweep_self] at hw ⊢
    exact hrunning w hw
  · rw [State.sweep_setSweep_self] at hidle
    exact absurd hidle hrun

theorem RequestTaken.again {p : Fin 4} {s t : State} (h : RequestTaken p s t) (hw : rosterWf t.roster = true)
    (hmode : (s.portal p).mode ≠ .halted) : RequestTaken p s (requestSweep p t) := by
  obtain ⟨hasked, honly, hlaw⟩ := h
  have hmode' : (t.portal p).mode ≠ .halted := by rw [honly.mode]; exact hmode
  refine ⟨hasked.again honly hw hmode, honly.trans (onlySweeps_requestSweep p t), ?_⟩
  by_cases hidle : (t.sweep p).running = none
  · rw [requestSweep_of_idle hmode' hidle]
    exact .inl (sweepLawAt_startSweep ..)
  · rw [requestSweep_of_running hmode' hidle]
    refine hlaw.imp (·.owing hidle) fun ⟨hrunning, _⟩ => ?_
    rw [State.sweep_setSweep_self]
    exact ⟨hrunning, rfl⟩

/-- A request counts from any earlier state with the same sweep. -/
theorem RequestTaken.of_kept {p : Fin 4} {s t u : State} (h : RequestTaken p t u) (hkept : SweepKept p s t)
    (honly : OnlySweeps s t) : RequestTaken p s u := by
  obtain ⟨hasked, hsweeps, hlaw⟩ := h
  obtain ⟨hsweep, hportal, -⟩ := hkept
  rw [hsweep] at hlaw
  exact ⟨hasked.of_eq (by rw [hportal]) (by rw [hportal]) (by rw [hsweep]), honly.trans hsweeps, hlaw⟩

/-- The requests of several slots: a portal of one of them is asked. -/
theorem requestTaken_forEach_requestForSlot {p : Fin 4} {n : Nat} {slots : List Nat} (hn : n ∈ slots) {s : State}
    (hw : rosterWf s.roster = true) (hslot : portalOfSlot s n = some p) (hmode : (s.portal p).mode ≠ .halted) :
    RequestTaken p s (forEach slots requestForSlot s) := by
  have plans : ∀ {t}, OnlySweeps s t → ∀ k, portalOfSlot t k = portalOfSlot s k := fun ht k => portalOfSlot_congr ht.plans k
  have asks : ∀ {k t}, portalOfSlot t k = some p → SweepKept p s t → OnlySweeps s t → RequestTaken p s (requestForSlot k t) :=
    fun {k t} hk hkept honly => by
      rw [requestForSlot_eq hk]
      exact (requestTaken_requestSweep (by rw [honly.mode]; exact hmode)).of_kept hkept honly
  have later : ∀ k t, RequestTaken p s t → RequestTaken p s (requestForSlot k t) := fun k t ht => by
    have ⟨_, honly, _⟩ := ht
    by_cases hk : portalOfSlot t k = some p
    · rw [requestForSlot_eq hk]
      exact ht.again (by rw [honly.roster]; exact hw) hmode
    · exact ht.keep (sweepKept_requestForSlot hk) (onlySweeps_requestForSlot ..)
  obtain ⟨before, after, rfl⟩ := List.append_of_mem hn
  rw [forEach_append, forEach_cons]
  have first : (SweepKept p s (forEach before requestForSlot s) ∧ OnlySweeps s (forEach before requestForSlot s))
      ∨ RequestTaken p s (forEach before requestForSlot s) :=
    forEach_induction (P := fun t => (SweepKept p s t ∧ OnlySweeps s t) ∨ RequestTaken p s t) before
      (.inl ⟨.refl .., .refl _⟩) fun k _ t ht => by
        obtain ⟨hkept, honly⟩ | ht := ht
        · by_cases hk : portalOfSlot t k = some p
          · exact .inr (asks hk hkept honly)
          · exact .inl ⟨hkept.trans (sweepKept_requestForSlot hk), honly.trans (onlySweeps_requestForSlot ..)⟩
        · exact .inr (later k t ht)
  refine forEach_induction (P := RequestTaken p s) after ?_ fun k _ t ht => later k t ht
  obtain ⟨hkept, honly⟩ | ht := first
  · exact asks ((plans honly n).trans hslot) hkept honly
  · exact later n _ ht

/-! ## SET_LINE (R131) -/

/-- R131: the record falls SILENT under a new limit. -/
def Record.FallsUnder (limit : Nat) (r : Record) : Prop :=
  limit ≤ r.misses ∧ (r.state = .active ∨ r.state = .probation ∨ r.state = .dark)

theorem limited_of_falls {limit : Nat} {r : Record} (h : r.FallsUnder limit) :
    limited limit r = { r with misses := limit, state := .silent, changed := true } := by
  obtain ⟨hmisses, hstate⟩ := h
  unfold limited
  rw [Nat.min_eq_right hmisses]
  exact if_pos ⟨hstate, rfl⟩

theorem limited_of_stays {limit : Nat} {r : Record} (h : ¬ r.FallsUnder limit) :
    limited limit r = { r with misses := min r.misses limit } := by
  unfold limited
  exact if_neg fun ⟨hstate, hcount⟩ => h ⟨min_eq_right_iff.1 hcount, hstate⟩

theorem mem_silencedSlots {s : State} (hw : rosterWf s.roster = true) {l : Line} {limit n : Nat} :
    n ∈ silencedSlots s l limit ↔ ((s.record n).nonVacant = true ∧ (s.record n).onLine l = true)
      ∧ (s.record n).FallsUnder limit := by
  unfold silencedSlots
  rw [List.mem_filter, mem_slotsOfLine hw, Bool.and_eq_true, bne_iff_ne, beq_iff_eq]
  refine and_congr_right fun _ => ?_
  by_cases h : (s.record n).FallsUnder limit
  · rw [limited_of_falls h]
    refine iff_of_true ⟨fun hsilent => ?_, rfl⟩ h
    obtain ⟨-, hstate⟩ := h
    rw [hsilent] at hstate
    simp at hstate
  · rw [limited_of_stays h]
    exact iff_of_false (fun ⟨hne, he⟩ => hne he) h

/-- Records written in a loop change the roster and nothing else. -/
theorem forEach_setRecord_eq (g : Record → Record) (slots : List Nat) (s : State) :
    forEach slots (fun n t => t.setRecord n (g (t.record n))) s
      = { s with roster := (forEach slots (fun n t => t.setRecord n (g (t.record n))) s).roster } :=
  forEach_induction (P := fun t => t = { s with roster := t.roster }) slots rfl fun n _ t ht => by
    rw [setRecord_eq, ht]

/-- The state with the new limit and a roster. -/
def withLimit (l : Line) (limit : Nat) (roster : Roster) (s : State) : State :=
  ({ s with roster := roster } : State).setLine l { s.line l with missLimit := limit }

/-- The state in which the sweeps of a new limit are asked for. -/
def limitTold (l : Line) (limit : Nat) (roster : Roster) (s : State) : State :=
  if silencedSlots s l limit = [] then withLimit l limit roster s
  else (withLimit l limit roster s).setNoticeClass (lineEventClass l .silent)
    { s.noticeClass (lineEventClass l .silent) with pending := true }

theorem applyLimit_eq (l : Line) (limit : Nat) (s : State) :
    applyLimit l limit s = settleSweeps (forEach (silencedSlots s l limit) requestForSlot
      (limitTold l limit (applyLimit l limit s).roster s)) := by
  have written : forEach (slotsOfLine s l) (fun n t => t.setRecord n (limited limit (t.record n)))
      (s.setLine l { s.line l with missLimit := limit }) = withLimit l limit (applyLimit l limit s).roster s := by
    rw [forEach_setRecord_eq (limited limit), ← roster_applyLimit]
    generalize (applyLimit l limit s).roster = roster
    cases l <;> rfl
  conv_lhs => unfold applyLimit
  generalize (applyLimit l limit s).roster = roster at written ⊢
  unfold limitTold
  dsimp only
  rw [written]
  split
  next h => rw [if_pos (List.isEmpty_iff.1 h)]
  next h =>
    rw [if_neg fun hnil => h (List.isEmpty_iff.2 hnil)]
    cases l <;> rfl

theorem limitTold_tables (l : Line) (limit : Nat) (roster : Roster) (s : State) :
    (limitTold l limit roster s).plans = s.plans ∧ (limitTold l limit roster s).portals = s.portals
      ∧ (limitTold l limit roster s).sweeps = s.sweeps ∧ (limitTold l limit roster s).port = s.port
      ∧ (limitTold l limit roster s).roster = roster := by
  unfold limitTold withLimit
  cases l <;> split <;> exact ⟨rfl, rfl, rfl, rfl, rfl⟩

/-- R131: the portals of the records that fall SILENT are asked for a sweep. -/
theorem sweepAsked_applyLimit {s : State} (h : RosterLaw s) {l : Line} {limit n : Nat} (hn : n ∈ silencedSlots s l limit)
    {p : Fin 4} (hp : inFootprint s p n = true) : SweepAsked p s (applyLimit l limit s) := by
  obtain ⟨hplans, hportals, hsweeps, -, hroster⟩ := limitTold_tables l limit (applyLimit l limit s).roster s
  obtain ⟨hw, -, -, hfootprints⟩ := h
  obtain ⟨hin, hu⟩ := hfootprints.unique_of_plans hplans hp
  by_cases hm : (s.portal p).mode = .halted
  · exact fun hne => absurd hm hne
  rw [applyLimit_eq]
  refine (RequestTaken.settleSweeps ?_).of_tables hportals hsweeps
  refine requestTaken_forEach_requestForSlot hn ?_ (portalOfSlot_eq hin hu) ?_
  · rw [hroster, roster_applyLimit]
    exact rosterWf_forEach _ (by simpa using hw) fun n _ ht => rosterWf_setRecord ht n _
  · rwa [State.portal, hportals]

theorem setLineCommand_eq {line limit : Byte} {s : State} {l : Line} (h : presentLine s line = .ok l) :
    setLineCommand line limit s = done (outside 1 7 limit.toNat) (applyLimit l (clamp 1 7 limit.toNat) s) := by
  rw [setLineCommand, h]

/-! ## READ_LINE (R132) -/

theorem lineStateBytes_busy (x : Exchange) : lineStateBytes (.busy x)
    = [2] ++ bytesOf 1 x.frame.code ++ bytesOf 1 x.address ++ bytesOf 1 x.origin.code := by
  simp only [bytesOf_one]
  rfl

theorem lineBytes_eq (s : State) (l : Line) :
    lineBytes s l = [if l = .a then 1 else if s.straps.getLsbD 2 then 1 else 0,
        if s.straps.extractLsb' 0 2 = 1 then 1 else if s.straps.extractLsb' 0 2 = 2 then 2 else 0]
      ++ bytesOf 1 (s.line l).missLimit ++ lineStateBytes (s.line l).state
      ++ bytesOf 1 (s.line l).fairness ++ bytesOf 1 (s.line l).normalPointer.val ++ bytesOf 1 (s.line l).emergencyPointer.val
      ++ bytesOf 1 (s.line l).admin.length ++ bytesOf 1 (s.line l).service.length ++ bytesOf 1 (s.line l).strays.length
      ++ bytesOf 1 (s.line l).ignored.length := by
  have hpresent : putFlag (s.linePresent l) = [if l = .a then 1 else if s.straps.getLsbD 2 then 1 else 0] := by
    rw [putFlag_eq_flagByte]
    cases l <;> rfl
  simp only [lineBytes, bytesOf_one, put1_lineRate, hpresent, List.append_assoc, List.cons_append,
    List.nil_append]

/-- Settles O49. -/
theorem setLineSilencesAndReadLineReports : Obligations.SetLineSilencesAndReadLineReports := by
  refine ⟨fun s line limit hs hlaw => ?_, fun s line hs => ?_⟩
  · intro c k
    have hc : exec c s = takeCommand 2 (setLineCommand line limit) s := rfl
    refine checked_presentLine hc hs (fun a ha => by rw [setLineCommand, ha]) fun l hl hpresent => ?_
    intro stands falls
    have hfalls : ∀ n, falls n ↔ n ∈ silencedSlots s l k := fun n => (mem_silencedSlots hlaw.1).symm
    have hrecord := record_applyLimit hlaw.1 l k
    have honly : OnlySweeps (limitTold l k (applyLimit l k s).roster s) (applyLimit l k s) := by
      conv_rhs => rw [applyLimit_eq]
      exact (OnlySweeps.forEach _ onlySweeps_requestForSlot _).trans (onlySweeps_settleSweeps _)
    obtain ⟨-, -, -, hport, -⟩ := limitTold_tables l k (applyLimit l k s).roster s
    refine ⟨applyLimit l k s, ?_, fun n => ⟨fun h => ?_, fun h hnot => ?_, fun h => ?_⟩, ⟨fun hnone => ?_, fun ⟨n, h⟩ => ?_⟩,
      fun n p h hp => sweepAsked_applyLimit hlaw ((hfalls n).1 h) hp⟩
    · refine Answers.of_done_clamped hc hs ?_ (honly.port.trans hport) outside_eq
      rw [setLineCommand_eq hpresent, clamp_eq_within (by decide)]
    · obtain ⟨hstands, hf⟩ := h
      rw [hrecord, if_pos hstands, limited_of_falls hf]
    · rw [hrecord, if_pos h, limited_of_stays fun hf => hnot ⟨h, hf⟩]
    · rw [hrecord, if_neg h]
    · have hnil : silencedSlots s l k = [] := List.eq_nil_iff_forall_not_mem.2 fun n hn => hnone n ((hfalls n).2 hn)
      rwa [limitTold, if_pos hnil] at honly
    · rwa [limitTold, if_neg (List.ne_nil_of_mem ((hfalls n).1 h))] at honly
  · intro c
    have hc : exec c s = takeCommand 1 (readLineCommand line) s := rfl
    refine .cons (fun h => Refuses.of_work hc hs (by rw [readLineCommand, lineOf_eq_none.2 h])) fun _ => .nil fun l hl => ?_
    intro x
    have hread : readLineCommand line s = answer (lineBytes s l) s := by rw [readLineCommand, lineOf_eq_some.2 hl]
    rw [lineBytes_eq] at hread
    refine Answers.of_work hc hs (hread.trans ?_) rfl
    cases hx : x.state with
    | quiet => rfl
    | idle => rfl
    | busy y =>
      rw [lineStateBytes_busy]
      obtain ⟨frame, address, origin, phase⟩ := y
      cases frame <;> cases origin <;> simp only [LineFrame.code, Origin.code, bytesOf_one] <;> rfl

end Sys2Proof.Machine
end

section
/-! SUPPORT. Entries into EMERGENCY: the pin EMERG_N, its enable, and the sweeps that the entries start (R49 to R51, R99, R107). -/

namespace Sys2Proof.Machine

/-! ## The notice classes of an entry -/

theorem emergencyClass_ne_sweepDoneClass (p q : Fin 4) : emergencyClass p ≠ sweepDoneClass q := by revert p q; decide
theorem modeSettledClass_ne_sweepDoneClass (p q : Fin 4) : modeSettledClass p ≠ sweepDoneClass q := by revert p q; decide
theorem modeSettledClass_ne_emergencyClass (p q : Fin 4) : modeSettledClass p ≠ emergencyClass q := by revert p q; decide
theorem modeSettledClass_inj {p q : Fin 4} : modeSettledClass p = modeSettledClass q ↔ p = q := by revert p q; decide
theorem sweepDoneClass_inj {p q : Fin 4} : sweepDoneClass p = sweepDoneClass q ↔ p = q := by revert p q; decide

/-! ## What entries leave unchanged -/

section

variable {E F : Fin 4 → Prop} {s t u : State}

/-- Entries, said of the classes of the state they leave. -/
theorem onlyEmergency_iff : OnlyEmergency E s t ↔
    t = { s with portals := t.portals, sweeps := t.sweeps, notices := { s.notices with classes := t.notices.classes } }
      ∧ (∀ p, ¬ E p → t.portal p = s.portal p ∧ t.sweep p = s.sweep p)
      ∧ ∀ c, t.noticeClass c = { s.noticeClass c with
            pending := (t.noticeClass c).pending, holds := (t.noticeClass c).holds }
          ∧ ((∀ p, E p → c ≠ emergencyClass p) → (t.noticeClass c).holds = (s.noticeClass c).holds)
          ∧ ((∀ p, E p → c ≠ emergencyClass p ∧ c ≠ modeSettledClass p ∧ c ≠ sweepDoneClass p) →
            t.noticeClass c = s.noticeClass c) := by
  constructor
  · rintro ⟨ps, ws, cs, rfl, hkept, hclasses⟩
    exact ⟨rfl, hkept, hclasses⟩
  · exact fun ⟨ht, hkept, hclasses⟩ => ⟨_, _, _, ht, hkept, hclasses⟩

namespace OnlyEmergency

theorem mono (h : OnlyEmergency E s t) (hEF : ∀ p, E p → F p) : OnlyEmergency F s t := by
  rw [onlyEmergency_iff] at h ⊢
  obtain ⟨ht, hkept, hclasses⟩ := h
  refine ⟨ht, fun p hp => hkept p fun h => hp (hEF p h), fun c => ?_⟩
  obtain ⟨hc, hholds, hsame⟩ := hclasses c
  exact ⟨hc, fun h => hholds fun p hp => h p (hEF p hp), fun h => hsame fun p hp => h p (hEF p hp)⟩

theorem refl (s : State) : OnlyEmergency E s s :=
  onlyEmergency_iff.2 ⟨rfl, fun _ _ => ⟨rfl, rfl⟩, fun _ => ⟨rfl, fun _ => rfl, fun _ => rfl⟩⟩

theorem trans (h : OnlyEmergency E s t) (k : OnlyEmergency E t u) : OnlyEmergency E s u := by
  rw [onlyEmergency_iff] at h k ⊢
  obtain ⟨ht, hkept, hclasses⟩ := h
  obtain ⟨hu, kkept, kclasses⟩ := k
  refine ⟨by rw [hu, ht], fun p hp => ?_, fun c => ?_⟩
  · obtain ⟨hportal, hsweep⟩ := hkept p hp
    obtain ⟨kportal, ksweep⟩ := kkept p hp
    exact ⟨kportal.trans hportal, ksweep.trans hsweep⟩
  · obtain ⟨hc, hholds, hsame⟩ := hclasses c
    obtain ⟨kc, kholds, ksame⟩ := kclasses c
    exact ⟨by rw [kc, hc], fun h => (kholds h).trans (hholds h), fun h => (ksame h).trans (hsame h)⟩

theorem portal (h : OnlyEmergency E s t) {p : Fin 4} (hp : ¬ E p) : t.portal p = s.portal p := by
  obtain ⟨-, hkept, -⟩ := onlyEmergency_iff.1 h
  exact (hkept p hp).1

theorem sweep (h : OnlyEmergency E s t) {p : Fin 4} (hp : ¬ E p) : t.sweep p = s.sweep p := by
  obtain ⟨-, hkept, -⟩ := onlyEmergency_iff.1 h
  exact (hkept p hp).2

theorem roster (h : OnlyEmergency E s t) : t.roster = s.roster := by
  obtain ⟨ht, -, -⟩ := onlyEmergency_iff.1 h
  rw [ht]

theorem plans (h : OnlyEmergency E s t) : t.plans = s.plans := by
  obtain ⟨ht, -, -⟩ := onlyEmergency_iff.1 h
  rw [ht]

theorem port (h : OnlyEmergency E s t) : t.port = s.port := by
  obtain ⟨ht, -, -⟩ := onlyEmergency_iff.1 h
  rw [ht]

/-- The classes of a portal that does not enter are kept. -/
theorem noticeClass (h : OnlyEmergency E s t) {p : Fin 4} (hp : ¬ E p) {c : Fin 32}
    (hc : c = emergencyClass p ∨ c = modeSettledClass p ∨ c = sweepDoneClass p) : t.noticeClass c = s.noticeClass c := by
  obtain ⟨-, -, hclasses⟩ := onlyEmergency_iff.1 h
  obtain ⟨-, -, hsame⟩ := hclasses c
  refine hsame fun q hq => ?_
  have hpq : p ≠ q := fun e => hp (e ▸ hq)
  obtain rfl | rfl | rfl := hc
  · exact ⟨fun e => hpq (emergencyClass_inj.1 e), fun e => modeSettledClass_ne_emergencyClass _ _ e.symm,
      emergencyClass_ne_sweepDoneClass _ _⟩
  · exact ⟨modeSettledClass_ne_emergencyClass _ _, fun e => hpq (modeSettledClass_inj.1 e),
      modeSettledClass_ne_sweepDoneClass _ _⟩
  · exact ⟨fun e => emergencyClass_ne_sweepDoneClass _ _ e.symm, fun e => modeSettledClass_ne_sweepDoneClass _ _ e.symm,
      fun e => hpq (sweepDoneClass_inj.1 e)⟩

/-! ## The parts of an entry -/

theorem of_setPortal (p : Fin 4) (x : Portal) (s : State) : OnlyEmergency (· = p) s (s.setPortal p x) :=
  onlyEmergency_iff.2 ⟨rfl, fun _ hq => ⟨State.portal_setPortal_of_ne _ _ _ _ hq, rfl⟩,
    fun _ => ⟨rfl, fun _ => rfl, fun _ => rfl⟩⟩

theorem of_onlySweeps {p : Fin 4} (h : OnlySweeps s t) (hkept : ∀ q, q ≠ p → SweepKept q s t) :
    OnlyEmergency (· = p) s t := by
  obtain ⟨ps, ws, cs, ht, -, hclasses⟩ := h
  have hcs : ∀ c, t.noticeClass c = cs[c] := fun c => by
    rw [ht]
    rfl
  refine onlyEmergency_iff.2 ⟨by rw [ht], fun q hq => ⟨(hkept q hq).2.1, (hkept q hq).1⟩, fun c => ?_⟩
  obtain ⟨hc, hsame⟩ := hclasses c
  rw [← hcs] at hc hsame
  have hholds : (t.noticeClass c).holds = (s.noticeClass c).holds := by rw [hc]
  refine ⟨by rw [hholds]; exact hc, fun _ => hholds, fun hother => ?_⟩
  · by_cases hdone : ∃ q, c = sweepDoneClass q
    · obtain ⟨q, rfl⟩ := hdone
      obtain ⟨-, -, hkeptDone⟩ := hkept q fun e => (hother p rfl).2.2 (e ▸ rfl)
      exact hkeptDone
    · exact hsame fun q hq => hdone ⟨q, hq⟩

theorem of_setNoticeClass {p : Fin 4} {c : Fin 32} (hc : c = emergencyClass p ∨ c = modeSettledClass p) {x : NoticeClass}
    (hx : x = { s.noticeClass c with pending := x.pending, holds := x.holds })
    (hholds : c = modeSettledClass p → x.holds = (s.noticeClass c).holds) :
    OnlyEmergency (· = p) s (s.setNoticeClass c x) := by
  refine onlyEmergency_iff.2 ⟨rfl, fun _ _ => ⟨rfl, rfl⟩, fun k => ?_⟩
  by_cases hk : k = c
  · subst hk
    rw [State.noticeClass_setNoticeClass_self]
    refine ⟨hx, fun h => hholds (hc.resolve_left (h p rfl)), fun h => ?_⟩
    obtain ⟨hemergency, hsettled, -⟩ := h p rfl
    exact absurd hc (not_or.2 ⟨hemergency, hsettled⟩)
  · rw [State.noticeClass_setNoticeClass_of_ne _ _ _ _ hk]
    exact ⟨rfl, fun _ => rfl, fun _ => rfl⟩

end OnlyEmergency

end

/-! ## One entry (R51) -/

theorem onlyEmergency_enterEmergency (p : Fin 4) (s : State) : OnlyEmergency (· = p) s (enterEmergency p s) := by
  have swept := (OnlyEmergency.of_setPortal p (s.portal p).inEmergency s).trans
    (.of_onlySweeps (onlySweeps_requestEmergencySweep p _) fun q hq => sweepKept_requestEmergencySweep hq _)
  unfold enterEmergency handEvent
  rw [handTrue_cases]
  refine (swept.trans (.of_setNoticeClass (.inl rfl) rfl fun e => ?_)).trans (.of_setNoticeClass (.inr rfl) rfl fun _ => rfl)
  exact absurd e.symm (modeSettledClass_ne_emergencyClass p p)

theorem sweepPlaced_requestEmergencySweep {p : Fin 4} {s : State} (hw : rosterWf s.roster = true) (hlaw : SweepLawAt s p) :
    SweepPlaced p .emergency (s.sweep p).running s (requestEmergencySweep p s) := by
  unfold requestEmergencySweep
  split
  next hidle =>
    obtain ⟨-, hplaced⟩ := sweepStarted_startSweep hw hidle (hlaw.2 hidle) .emergency
    rwa [hidle]
  next w hw' =>
    have hplaced := sweepPlaced_beginSweep (s := s.setSweep p { s.sweep p with owed := false }) (p := p)
      (by simpa using hw) (by rw [State.sweep_setSweep_self]) .emergency
    rw [State.sweep_setSweep_self] at hplaced
    exact hw' ▸ hplaced.of_eq rfl rfl

/-- What the placing of a sweep says of the state after it. -/
theorem SweepPlaced.of_after {p : Fin 4} {cls : SweepClass} {old : Option Walk} {s t u : State}
    (h : SweepPlaced p cls old s t) (hsweep : u.sweep p = t.sweep p) (hroster : u.roster = t.roster)
    (hplans : u.plans = t.plans) (hdone : u.noticeClass (sweepDoneClass p) = t.noticeClass (sweepDoneClass p)) :
    SweepPlaced p cls old s u := by
  unfold SweepPlaced at h ⊢
  simp only [hsweep, hdone, waitingSlot_congr hroster (show u.plan p = t.plan p by rw [State.plan, hplans, State.plan])]
  exact h

theorem emergencyOf_of_mode {x : Portal} {back : ReturnMode} (h : x.mode = back.mode) :
    x.entered = x.emergencyOf back := by
  have hback : x.mode.asReturn = some back := by
    rw [h]
    cases back <;> rfl
  rw [Portal.entered, Portal.inEmergency, hback]
  rfl

theorem entersEmergency_enterEmergency {p : Fin 4} {s : State} (hw : rosterWf s.roster = true) (hlaw : SweepLawAt s p) :
    EntersEmergency p s (enterEmergency p s) := by
  have hplaced : SweepPlaced p .emergency (s.sweep p).running (s.setPortal p (s.portal p).inEmergency) _ :=
    sweepPlaced_requestEmergencySweep (s := s.setPortal p (s.portal p).inEmergency) hw (hlaw.of_kept rfl rfl rfl)
  have hclass := (onlySweeps_requestEmergencySweep p (s.setPortal p (s.portal p).inEmergency)).noticeClass_eq
    (emergencyClass_ne_sweepDoneClass p)
  have hportal := portal_enterEmergency p s
  unfold enterEmergency handEvent at hportal ⊢
  rw [handTrue_cases, hclass] at hportal ⊢
  have hmark := State.noticeClass_setNoticeClass_of_ne (requestEmergencySweep p (s.setPortal p (s.portal p).inEmergency))
    (emergencyClass p)
  refine ⟨fun back hback => hportal.trans (emergencyOf_of_mode hback), ?_, fun hfalse => ?_, ?_, ?_⟩
  · rw [State.noticeClass_setNoticeClass_of_ne _ _ _ _ (modeSettledClass_ne_emergencyClass p p).symm,
      State.noticeClass_setNoticeClass_self]
  · rw [State.noticeClass_setNoticeClass_of_ne _ _ _ _ (modeSettledClass_ne_emergencyClass p p).symm,
      State.noticeClass_setNoticeClass_self]
    have hholds : ((s.setPortal p (s.portal p).inEmergency).noticeClass (emergencyClass p)).holds = false := hfalse
    rw [hholds]
    exact Bool.or_true _
  · rw [State.noticeClass_setNoticeClass_self]
  · refine (hplaced.of_eq (s' := s) rfl rfl).of_after rfl rfl rfl ?_
    rw [State.noticeClass_setNoticeClass_of_ne _ _ _ _ (modeSettledClass_ne_sweepDoneClass p p).symm,
      State.noticeClass_setNoticeClass_of_ne _ _ _ _ (emergencyClass_ne_sweepDoneClass p p).symm]

/-! ## Every entry (R49) -/

/-- Entries of other portals, before and after. -/
theorem EntersEmergency.among {p : Fin 4} {E F : Fin 4 → Prop} {s t u v : State} (h : EntersEmergency p t u)
    (before : OnlyEmergency E s t) (hE : ¬ E p) (after : OnlyEmergency F u v) (hF : ¬ F p) : EntersEmergency p s v := by
  obtain ⟨hportal, hholds, hpending, hsettled, hplaced⟩ := h
  have old := before.noticeClass hE (.inl rfl)
  have new := fun {c} hc => after.noticeClass hF (c := c) hc
  rw [before.portal hE] at hportal
  rw [old] at hpending
  refine ⟨fun back hback => (after.portal hF).trans (hportal back hback), by rw [new (.inl rfl), hholds], fun hfalse => ?_, ?_, ?_⟩
  · rw [new (.inl rfl), hpending hfalse]
  · rw [new (.inr (.inl rfl)), hsettled]
  · rw [before.sweep hE] at hplaced
    exact (hplaced.of_eq before.roster.symm before.plans.symm).of_after (after.sweep hF) after.roster after.plans
      (new (.inr (.inr rfl)))

theorem onlyEmergency_enterIfEnabled (p : Fin 4) (s : State) : OnlyEmergency (· = p) s (enterIfEnabled p s) := by
  by_cases h : (s.portal p).enters
  · rw [enterIfEnabled_of_enters h]
    exact onlyEmergency_enterEmergency p s
  · rw [enterIfEnabled_of_not_enters h]
    exact .refl s

theorem onlyEmergency_enterAll (s : State) : OnlyEmergency (fun p => (s.portal p).enters) s (enterAll s) :=
  forEach_induction (P := OnlyEmergency (fun p => (s.portal p).enters) s) allPortals (.refl s) fun p _ t ht => by
    by_cases h : (s.portal p).enters
    · exact ht.trans ((onlyEmergency_enterIfEnabled p t).mono fun q hq => by rw [hq]; exact h)
    · rw [← ht.portal h] at h
      rw [enterIfEnabled_of_not_enters h]
      exact ht

theorem entersEmergency_enterAll {s : State} (hw : rosterWf s.roster = true) (hlaw : SweepsLawful s) {p : Fin 4}
    (h : (s.portal p).enters) : EntersEmergency p s (enterAll s) := by
  refine forEach_each (P := fun t q => OnlyEmergency (· ≠ q) s t)
    (Q := fun t q => (s.portal q).enters → EntersEmergency q s t) (f := enterIfEnabled) allPortals nodup_allPortals
    (fun q t ht hq => ?_) (fun q k t hk ht => ht.trans ((onlyEmergency_enterIfEnabled q t).mono fun j hj => ?_))
    (fun q k t hk ht hent => ?_) (fun q _ => .refl s) p (mem_allPortals p) h
  · have hnot : ¬ q ≠ q := fun e => e rfl
    rw [← ht.portal hnot] at hq
    rw [enterIfEnabled_of_enters hq]
    have hentered := entersEmergency_enterEmergency (p := q) (s := t) (by rw [ht.roster]; exact hw)
      ((hlaw q).of_kept (ht.sweep hnot) ht.roster (by rw [State.plan, ht.plans, State.plan]))
    exact hentered.among ht hnot (.refl (E := fun _ => False) _) id
  · rw [hj]; exact hk.symm
  · exact (ht hent).among (.refl (E := fun _ => False) _) id (onlyEmergency_enterIfEnabled q t) hk

/-! ## EMERG_N and SET_EMERGENCY_ENABLE (R49, R50) -/

theorem emergAsserted_iff {s : State} : s.emergAsserted = true ↔ s.emergN = s.straps.getLsbD 3 := beq_iff_eq

theorem setEmergencyEnable_of_operands {portal setting : Byte} {p : Fin 4} (hp : p.val = portal.toNat)
    (h : ¬ 1 < setting.toNat) (s : State) :
    setEmergencyEnable portal setting s =
      done false (if setting = 1 ∧ s.emergN = s.straps.getLsbD 3 ∧ (s.portal p).mode ≠ .emergency then
        enterEmergency p (s.setPortal p { s.portal p with emergencyEnable := decide (setting = 1) })
      else s.setPortal p { s.portal p with emergencyEnable := decide (setting = 1) }) := by
  have hcond : decide (setting = 1) = true
      ∧ (s.setPortal p { s.portal p with emergencyEnable := decide (setting = 1) }).emergAsserted = true
      ∧ ((s.setPortal p { s.portal p with emergencyEnable := decide (setting = 1) }).portal p).mode ≠ .emergency
      ↔ setting = 1 ∧ s.emergN = s.straps.getLsbD 3 ∧ (s.portal p).mode ≠ .emergency := by
    rw [State.portal_setPortal_self, emergAsserted_iff, decide_eq_true_iff]
    rfl
  rw [setEmergencyEnable, portalOf_of_val hp, switchOf_of_le h]
  dsimp only
  rw [if_congr hcond rfl rfl]

/-- Settles O29. -/
theorem emergencyPinAndEnableActAtOnce : Obligations.EmergencyPinAndEnableActAtOnce := by
  refine ⟨fun s hs => ⟨fun hw hlaw hpin => ?_, fun hpin => ?_, event_of_high hs _⟩, fun s portal setting hs hw hlaw => ?_⟩
  · intro enters
    have hassert : exec .emergNAssertion s = .next (emergNAsserted s) := event_of_high hs _
    rw [emergNAsserted, if_neg (emergAsserted_iff.not.2 hpin)] at hassert
    have hswept : SweepsLawful { s with emergN := s.straps.getLsbD 3 } := (sweepLaw_iff s).1 hlaw
    refine ⟨_, hassert, onlyEmergency_enterAll _, fun p hp => ?_⟩
    exact entersEmergency_enterAll (s := { s with emergN := s.straps.getLsbD 3 }) hw hswept hp
  · refine (event_of_high hs _).trans ?_
    rw [emergNAsserted, if_pos (emergAsserted_iff.2 hpin)]
  · intro c
    have hc : exec c s = takeCommand 2 (setEmergencyEnable portal setting) s := rfl
    refine .cons (fun h => Refuses.of_work hc hs ?_) fun h => .nil fun p hp => ?_
    · rw [setEmergencyEnable]
      obtain h | h := h
      · rw [portalOf_of_gt h]
      · rw [switchOf_of_gt h]
        cases portalOf portal <;> rfl
    · intro written
      obtain ⟨-, hsetting⟩ := not_or.1 h
      have hwork := setEmergencyEnable_of_operands hp hsetting s
      refine ⟨fun hacts => ?_, fun hnot => ?_⟩
      · rw [if_pos hacts] at hwork
        have honly := onlyEmergency_enterEmergency p written
        exact ⟨_, Answers.of_done hc hs hwork honly.port, honly,
          entersEmergency_enterEmergency (s := written) hw (((sweepLaw_iff s).1 hlaw p).of_kept rfl rfl rfl)⟩
      · rw [if_neg hnot] at hwork
        exact Answers.of_done hc hs hwork rfl

end Sys2Proof.Machine
end

section
/-! SUPPORT. A ramp expiry: what the phases of one portal write, and the portals that an expiry carries (R39 to R48). -/

namespace Sys2Proof.Machine

/-! ## The notices of an operation -/

/-- Operations of the sweep unit lose no mark: SWEEP_DONE of a portal pends on, or is not touched. -/
theorem NoticesKept.of_onlySweeps {touched : Fin 32 → Prop} {s t : State} (h : OnlySweeps s t)
    (each : ∀ p, SweepKept p s t ∨ touched (sweepDoneClass p) ∧ SweepPending p s t) : NoticesKept touched s t := by
  obtain ⟨ps, ws, cs, ht, -, hclasses⟩ := h
  have hcs : ∀ c, t.noticeClass c = cs[c] := fun c => by
    rw [ht]
    rfl
  refine ⟨by rw [ht], fun c => ?_⟩
  obtain ⟨hc, hsame⟩ := hclasses c
  rw [← hcs] at hc hsame
  by_cases hdone : ∃ p, c = sweepDoneClass p
  · obtain ⟨p, rfl⟩ := hdone
    refine ⟨by rw [hc], by rw [hc], fun _ => ⟨by rw [hc], fun hpending => ?_⟩, fun hnot => ?_⟩
    · obtain ⟨-, -, hkept⟩ | ⟨-, -, hpends, -⟩ := each p
      · rw [hkept]; exact hpending
      · exact hpends hpending
    · obtain ⟨-, -, hkept⟩ | ⟨htouched, -⟩ := each p
      · exact hkept
      · exact absurd htouched hnot
  · have hkept := hsame fun p hp => hdone ⟨p, hp⟩
    rw [hkept]
    exact ⟨rfl, rfl, fun _ => ⟨rfl, id⟩, fun _ => rfl⟩

theorem NoticesKept.of_setNoticeClass {touched : Fin 32 → Prop} {s : State} {c : Fin 32} {x : NoticeClass}
    (hpriority : x.priority = (s.noticeClass c).priority) (hmasked : x.masked = (s.noticeClass c).masked)
    (hevent : isCondition c = false → x.holds = (s.noticeClass c).holds ∧ ((s.noticeClass c).pending = true → x.pending = true))
    (htouched : ¬ touched c → x = s.noticeClass c) : NoticesKept touched s (s.setNoticeClass c x) := by
  refine ⟨rfl, fun k => ?_⟩
  by_cases hk : k = c
  · subst hk
    rw [State.noticeClass_setNoticeClass_self]
    exact ⟨hpriority, hmasked, hevent, htouched⟩
  · rw [State.noticeClass_setNoticeClass_of_ne _ _ _ _ hk]
    exact ⟨rfl, rfl, fun _ => ⟨rfl, id⟩, fun _ => rfl⟩

theorem NoticesKept.of_notices {touched : Fin 32 → Prop} {s t : State} (h : t.notices = s.notices) : NoticesKept touched s t := by
  have hclass : ∀ c, t.noticeClass c = s.noticeClass c := fun c => by rw [State.noticeClass, State.noticeClass, h]
  refine ⟨by rw [h], fun c => ?_⟩
  rw [hclass]
  exact ⟨rfl, rfl, fun _ => ⟨rfl, id⟩, fun _ => rfl⟩

theorem NoticesKept.noticeClass {touched : Fin 32 → Prop} {s t : State} (h : NoticesKept touched s t) {c : Fin 32}
    (hc : ¬ touched c) : t.noticeClass c = s.noticeClass c := by
  obtain ⟨-, hclasses⟩ := h
  exact (hclasses c).2.2.2 hc

theorem State.setNoticeClass_self (s : State) (c : Fin 32) : s.setNoticeClass c (s.noticeClass c) = s := by
  have hset : s.notices.classes.set c (s.noticeClass c) = s.notices.classes := Vector.set_getElem_self ..
  rw [State.setNoticeClass, hset]

theorem NoticeClass.handed_settings (b : Bool) (x : NoticeClass) :
    (x.handed b).priority = x.priority ∧ (x.handed b).masked = x.masked := by
  unfold NoticeClass.handed
  split
  · split <;> exact ⟨rfl, rfl⟩
  · exact ⟨rfl, rfl⟩

theorem handCondition_handed (c : Fin 32) (b : Bool) (s : State) :
    handCondition c b s = s.setNoticeClass c ((s.noticeClass c).handed b) := by
  cases b with
  | false => rfl
  | true =>
    show handTrue c s = _
    unfold handTrue NoticeClass.handed
    by_cases h : (s.noticeClass c).holds = true
    · rw [if_pos h, if_pos rfl, if_pos h]
      exact (State.setNoticeClass_self s c).symm
    · rw [if_neg h, if_pos rfl, if_neg h]

theorem modeSettledClass_ne_stageShortClass (p q : Fin 4) : modeSettledClass p ≠ stageShortClass q := by revert p q; decide
theorem sweepDoneClass_ne_stageShortClass (p q : Fin 4) : sweepDoneClass p ≠ stageShortClass q := by revert p q; decide

/-! ## What the phases of one portal write (R40) -/

/-- The STAGE_SHORT result of a portal after its commit. -/
def shortAfter (p : Fin 4) (s : State) : Bool :=
  if (s.portal p).pendingProfile = none then (s.portal p).stageShort
  else shortHolds (s.setPortal p (s.portal p).expired) p

/-- The STAGE_SHORT class of a portal after its commit. -/
def shortClassAfter (p : Fin 4) (s : State) : NoticeClass :=
  if shortAfter p s = (s.portal p).stageShort then s.noticeClass (stageShortClass p)
  else (s.noticeClass (stageShortClass p)).handed (shortAfter p s)

/-- A portal after its phases, before a sweep is asked for. -/
def rampWritten (p : Fin 4) (s : State) : State :=
  ((s.setPortal p { (s.portal p).expired with stageShort := shortAfter p s }).setNoticeClass (stageShortClass p)
      (shortClassAfter p s)).setNoticeClass (modeSettledClass p)
    { s.noticeClass (modeSettledClass p) with
      pending := (s.noticeClass (modeSettledClass p)).pending || (s.portal p).pendingMode.isSome }

theorem shortHolds_setPortal {p : Fin 4} {s : State} {x y : Portal} (ha : x.active = y.active) (hl : x.lf = y.lf) :
    shortHolds (s.setPortal p x) p = shortHolds (s.setPortal p y) p :=
  shortHolds_congr p rfl (by simpa using ha) (by simpa using hl)

theorem Portal.expired_active (x : Portal) : x.expired.active = x.pendingProfile.getD x.active := by
  cases h : x.pendingMode with
  | none => rw [Portal.expired_of_none h]; rfl
  | some m => rw [Portal.expired_of_some h]; rfl

theorem Portal.expired_lf (x : Portal) : x.expired.lf = x.lf := by
  cases h : x.pendingMode with
  | none => rw [Portal.expired_of_none h]; rfl
  | some m => rw [Portal.expired_of_some h]; rfl

/-- R40 phase 1, with the ramp timer started again. -/
theorem commitProfile_renewed (p : Fin 4) (s : State) :
    commitProfile p (s.setPortal p { s.portal p with rampTimer := some (s.portal p).ramp.steps })
      = (s.setPortal p { (s.portal p).renewed with stageShort := shortAfter p s }).setNoticeClass (stageShortClass p)
          (shortClassAfter p s) := by
  cases hv : (s.portal p).pendingProfile with
  | none =>
    have hafter : shortAfter p s = (s.portal p).stageShort := if_pos hv
    have hclass : shortClassAfter p s = s.noticeClass (stageShortClass p) := if_pos hafter
    have hrenewed : (s.portal p).renewed = { s.portal p with rampTimer := some (s.portal p).ramp.steps } := by
      rw [Portal.renewed, hv, Option.getD_none, ← hv]
    rw [commitProfile_of_none (by rw [State.portal_setPortal_self]; exact hv), hclass, hafter, hrenewed]
    exact (State.setNoticeClass_self _ _).symm
  | some v =>
    have hafter : shortAfter p s = shortHolds (s.setPortal p (s.portal p).expired) p := if_neg (by rw [hv]; nofun)
    have hrenewed : (s.portal p).renewed
        = { s.portal p with rampTimer := some (s.portal p).ramp.steps, active := v, pendingProfile := none } := by
      rw [Portal.renewed, hv]
      rfl
    rw [commitProfile_of_some (v := v) (by rw [State.portal_setPortal_self]; exact hv), State.portal_setPortal_self,
      State.setPortal_setPortal, ← hrenewed]
    have hnow : shortHolds (s.setPortal p (s.portal p).renewed) p = shortAfter p s := by
      rw [hafter]
      exact shortHolds_setPortal (s.portal p).expired_active.symm (s.portal p).expired_lf.symm
    unfold evalStageShort shortClassAfter
    dsimp only
    rw [hnow, State.portal_setPortal_self, State.setPortal_setPortal]
    by_cases h : shortAfter p s = (s.portal p).stageShort
    · rw [if_pos (show _ = (s.portal p).renewed.stageShort from h), if_pos h, h]
      exact (State.setNoticeClass_self _ _).symm
    · rw [if_neg (show ¬ _ = (s.portal p).renewed.stageShort from h), if_neg h, handCondition_handed]
      rfl

/-- R40: a portal before its levels step. -/
def Portal.poised (x : Portal) : Portal := { x.expired with levels := x.levels }

theorem Portal.steppedLevels_poised (x : Portal) : x.poised.steppedLevels = x.expired.levels := by
  cases h : x.pendingMode with
  | none =>
    rw [Portal.poised, Portal.expired_of_none h]
    rfl
  | some m =>
    rw [Portal.poised, Portal.expired_of_some h]
    rfl

/-- R44: a mode request that takes effect in a portal's phases. -/
theorem takeModeRequest_renewed (p : Fin 4) (b : Bool) (x : NoticeClass) (s : State) :
    takeModeRequest p ((s.setPortal p { (s.portal p).renewed with stageShort := b }).setNoticeClass (stageShortClass p) x)
      = ((s.setPortal p { (s.portal p).poised with stageShort := b }).setNoticeClass (stageShortClass p) x).setNoticeClass
          (modeSettledClass p)
          { s.noticeClass (modeSettledClass p) with
            pending := (s.noticeClass (modeSettledClass p)).pending || (s.portal p).pendingMode.isSome } := by
  have hclass : ∀ y, ((s.setPortal p y).setNoticeClass (stageShortClass p) x).noticeClass (modeSettledClass p)
      = s.noticeClass (modeSettledClass p) := fun y =>
    State.noticeClass_setNoticeClass_of_ne _ _ _ _ (modeSettledClass_ne_stageShortClass p p)
  have hportal : ((s.setPortal p { (s.portal p).renewed with stageShort := b }).setNoticeClass (stageShortClass p) x).portal p
      = { (s.portal p).renewed with stageShort := b } := State.portal_setPortal_self ..
  cases hm : (s.portal p).pendingMode with
  | none =>
    have hpoised : (s.portal p).poised = (s.portal p).renewed := by
      rw [Portal.poised, Portal.expired_of_none hm]
      rfl
    rw [takeModeRequest_of_none (by rw [hportal]; exact hm), hpoised, Option.isSome_none, Bool.or_false]
    conv_lhs => rw [← State.setNoticeClass_self (State.setNoticeClass _ _ _) (modeSettledClass p)]
    rw [hclass]
  | some m =>
    have hpoised : (s.portal p).poised = (s.portal p).renewed.modeTaken m := by
      rw [Portal.poised, Portal.expired_of_some hm]
      rfl
    rw [takeModeRequest_of_some (m := m) (by rw [hportal]; exact hm), hportal, hpoised, Option.isSome_some, Bool.or_true]
    unfold handEvent
    rw [show (((s.setPortal p { (s.portal p).renewed with stageShort := b }).setNoticeClass (stageShortClass p) x).setPortal p
        (Portal.modeTaken { (s.portal p).renewed with stageShort := b } m)).noticeClass (modeSettledClass p)
          = s.noticeClass (modeSettledClass p) from hclass _]
    rw [show ((s.setPortal p { (s.portal p).renewed with stageShort := b }).setNoticeClass (stageShortClass p) x).setPortal p
        (Portal.modeTaken { (s.portal p).renewed with stageShort := b } m)
          = (s.setPortal p { (s.portal p).renewed.modeTaken m with stageShort := b }).setNoticeClass (stageShortClass p) x from
        congrArg (State.setNoticeClass · (stageShortClass p) x) (State.setPortal_setPortal ..)]

theorem rampPhases_eq (p : Fin 4) (s : State) : rampPhases p s =
    if (s.portal p).expired.levels = (s.portal p).levels then rampWritten p s else requestSweep p (rampWritten p s) := by
  have hset : ∀ (y : Portal) (x z : NoticeClass) (w : Portal),
      (((s.setPortal p y).setNoticeClass (stageShortClass p) x).setNoticeClass (modeSettledClass p) z).setPortal p w
        = ((s.setPortal p w).setNoticeClass (stageShortClass p) x).setNoticeClass (modeSettledClass p) z := fun y x z w =>
    congrArg (fun t : State => (t.setNoticeClass (stageShortClass p) x).setNoticeClass (modeSettledClass p) z)
      (State.setPortal_setPortal ..)
  unfold rampPhases stepStages
  rw [commitProfile_renewed, takeModeRequest_renewed]
  have hportal : ∀ (y : Portal) (x z : NoticeClass), (((s.setPortal p y).setNoticeClass (stageShortClass p) x).setNoticeClass
      (modeSettledClass p) z).portal p = y := fun y _ _ => State.portal_setPortal_self ..
  dsimp only
  rw [hportal, hset]
  have hstepped : Portal.steppedLevels { (s.portal p).poised with stageShort := shortAfter p s } = (s.portal p).expired.levels :=
    (s.portal p).steppedLevels_poised
  rw [hstepped]
  by_cases h : (s.portal p).expired.levels = (s.portal p).levels
  · refine (if_pos h).trans (Eq.trans ?_ (if_pos h).symm)
    rw [rampWritten, Portal.poised, ← h]
  · refine (if_neg h).trans (Eq.trans ?_ (if_neg h).symm)
    rfl

/-! ## What the phases of one portal leave -/

/-- The notice classes that a portal's phases may touch. -/
def Portal.RampTouches (q : Fin 4) (x : Portal) (c : Fin 32) : Prop :=
  c = modeSettledClass q ∧ x.pendingMode ≠ none ∨ c = stageShortClass q ∧ x.pendingProfile ≠ none
    ∨ c = sweepDoneClass q ∧ x.expired.levels ≠ x.levels

theorem noticesKept_rampWritten (q : Fin 4) (s : State) : NoticesKept ((s.portal q).RampTouches q) s (rampWritten q s) := by
  have short : NoticesKept ((s.portal q).RampTouches q) (s.setPortal q { (s.portal q).expired with stageShort := shortAfter q s })
      ((s.setPortal q { (s.portal q).expired with stageShort := shortAfter q s }).setNoticeClass (stageShortClass q)
        (shortClassAfter q s)) := by
    have hcls : (shortClassAfter q s).priority = (s.noticeClass (stageShortClass q)).priority
        ∧ (shortClassAfter q s).masked = (s.noticeClass (stageShortClass q)).masked := by
      unfold shortClassAfter
      split
      · exact ⟨rfl, rfl⟩
      · exact NoticeClass.handed_settings ..
    refine .of_setNoticeClass hcls.1 hcls.2 (fun h => ?_) fun h => ?_
    · rw [isCondition_stageShortClass] at h
      nomatch h
    · have hnone : (s.portal q).pendingProfile = none := by
        by_contra hsome
        exact h (.inr (.inl ⟨rfl, hsome⟩))
      rw [shortClassAfter, shortAfter, if_pos hnone, if_pos rfl]
      rfl
  have hsettled : ((s.setPortal q { (s.portal q).expired with stageShort := shortAfter q s }).setNoticeClass (stageShortClass q)
      (shortClassAfter q s)).noticeClass (modeSettledClass q) = s.noticeClass (modeSettledClass q) :=
    State.noticeClass_setNoticeClass_of_ne _ _ _ _ (modeSettledClass_ne_stageShortClass q q)
  refine ((NoticesKept.of_notices rfl).trans short).trans (.of_setNoticeClass ?_ ?_ (fun _ => ?_) fun h => ?_)
  · rw [hsettled]
  · rw [hsettled]
  · rw [hsettled]
    exact ⟨rfl, fun hpending => by rw [hpending, Bool.true_or]⟩
  · have hnone : (s.portal q).pendingMode = none := by
      by_contra hsome
      exact h (.inl ⟨rfl, hsome⟩)
    rw [hsettled, hnone, Option.isSome_none, Bool.or_false]

theorem noticesKept_rampPhases (q : Fin 4) (s : State) : NoticesKept ((s.portal q).RampTouches q) s (rampPhases q s) := by
  have written := noticesKept_rampWritten q s
  rw [rampPhases_eq]
  split
  · exact written
  next hlevels =>
    refine written.trans (.of_onlySweeps (onlySweeps_requestSweep q _) fun k => ?_)
    by_cases hk : k = q
    · subst hk
      exact .inr ⟨.inr (.inr ⟨rfl, hlevels⟩), sweepPending_requestSweep k _⟩
    · exact .inl (sweepKept_requestSweep hk _)

theorem rampPhases_frame (q : Fin 4) (s : State) :
    rampPhases q s = { s with
      portals := (rampPhases q s).portals, sweeps := (rampPhases q s).sweeps, notices := (rampPhases q s).notices } := by
  rw [rampPhases_eq]
  split
  · rfl
  · obtain ⟨ps, ws, cs, h, -⟩ := onlySweeps_requestSweep q (rampWritten q s)
    rw [h]
    rfl

/-- What a portal's phases leave of it. -/
structure PhasesDone (q : Fin 4) (s t : State) : Prop where
  portal : t.portal q = { (s.portal q).expired with
    refreshTimer := (t.portal q).refreshTimer
    stageShort := if (s.portal q).pendingProfile = none then (s.portal q).stageShort else shortHolds t q }
  short : t.noticeClass (stageShortClass q) = if (t.portal q).stageShort = (s.portal q).stageShort then
    s.noticeClass (stageShortClass q) else (s.noticeClass (stageShortClass q)).handed (shortHolds t q)
  settled : (s.portal q).pendingMode ≠ none → (t.noticeClass (modeSettledClass q)).pending = true
  asked : (s.portal q).expired.levels ≠ (s.portal q).levels → SweepAsked q s t
  still : (s.portal q).expired.levels = (s.portal q).levels →
    t.sweep q = s.sweep q ∧ (t.portal q).refreshTimer = (s.portal q).refreshTimer

/-- A portal that operations pass over. -/
structure PortalKept (q : Fin 4) (s t : State) : Prop where
  portal : t.portal q = s.portal q
  sweep : t.sweep q = s.sweep q
  classes : ∀ c, c = modeSettledClass q ∨ c = stageShortClass q ∨ c = sweepDoneClass q → t.noticeClass c = s.noticeClass c
  roster : t.roster = s.roster
  plans : t.plans = s.plans

theorem PortalKept.refl (q : Fin 4) (s : State) : PortalKept q s s := ⟨rfl, rfl, fun _ _ => rfl, rfl, rfl⟩

theorem PortalKept.trans {q : Fin 4} {s t u : State} (h : PortalKept q s t) (k : PortalKept q t u) : PortalKept q s u :=
  ⟨k.portal.trans h.portal, k.sweep.trans h.sweep, fun c hc => (k.classes c hc).trans (h.classes c hc),
    k.roster.trans h.roster, k.plans.trans h.plans⟩

/-- What is asked of a sweep is seen in any later state with the same portal, sweep and roster. -/
theorem SweepAsked.of_after {p : Fin 4} {s t u : State} (h : SweepAsked p s t) (hportal : u.portal p = t.portal p)
    (hsweep : u.sweep p = t.sweep p) (hdone : u.noticeClass (sweepDoneClass p) = t.noticeClass (sweepDoneClass p))
    (hroster : u.roster = t.roster) (hplans : u.plans = t.plans) : SweepAsked p s u := by
  have heligible := fun l n => eligibleAt_congr hroster hplans (p := p) (l := l) (n := n)
  unfold SweepAsked WalkOver at h ⊢
  simp only [hportal, hsweep, hdone, heligible]
  exact h

theorem PhasesDone.of_kept {q : Fin 4} {s t u v : State} (h : PhasesDone q t u) (before : PortalKept q s t)
    (after : PortalKept q u v) : PhasesDone q s v := by
  obtain ⟨hportal, hshort, hsettled, hasked, hstill⟩ := h
  have hnow : shortHolds v q = shortHolds u q :=
    shortHolds_congr q (by rw [State.plan, after.plans, State.plan]) (by rw [after.portal]) (by rw [after.portal])
  rw [before.portal] at hportal hshort hsettled hasked hstill
  rw [before.classes _ (.inr (.inl rfl))] at hshort
  rw [before.sweep] at hstill
  refine ⟨?_, ?_, fun hm => ?_, fun hl => ?_, fun hl => ?_⟩
  · rw [after.portal, hnow]
    exact hportal
  · rw [after.classes _ (.inr (.inl rfl)), after.portal, hnow]
    exact hshort
  · rw [after.classes _ (.inl rfl)]
    exact hsettled hm
  · refine ((hasked hl).of_after after.portal after.sweep (after.classes _ (.inr (.inr rfl))) after.roster after.plans).of_eq
      ?_ ?_ ?_
    · rw [before.portal]
    · rw [before.portal]
    · rw [before.sweep]
  · rw [after.portal, after.sweep]
    exact hstill hl

theorem Portal.mode_of_expired_halted {x : Portal} (h : x.expired.mode = .halted) : x.mode = .halted := by
  cases hm : x.pendingMode with
  | none =>
    rw [Portal.expired_of_none hm] at h
    exact h
  | some m =>
    rw [Portal.expired_of_some hm] at h
    cases m <;> nomatch h

theorem Portal.expired_ramp (x : Portal) : x.expired.ramp = x.ramp := by
  cases hm : x.pendingMode with
  | none => rw [Portal.expired_of_none hm]; rfl
  | some m => rw [Portal.expired_of_some hm]; rfl

theorem Portal.expired_refreshTimer (x : Portal) : x.expired.refreshTimer = x.refreshTimer := by
  cases hm : x.pendingMode with
  | none => rw [Portal.expired_of_none hm]; rfl
  | some m => rw [Portal.expired_of_some hm]; rfl

theorem portal_rampWritten (q : Fin 4) (s : State) :
    (rampWritten q s).portal q = { (s.portal q).expired with stageShort := shortAfter q s } := State.portal_setPortal_self ..

theorem rampWritten_short (q : Fin 4) (s : State) : (rampWritten q s).noticeClass (stageShortClass q) = shortClassAfter q s :=
  (State.noticeClass_setNoticeClass_of_ne _ _ _ _ (modeSettledClass_ne_stageShortClass q q).symm).trans
    (State.noticeClass_setNoticeClass_self ..)

theorem rampWritten_settled (q : Fin 4) (s : State) : (rampWritten q s).noticeClass (modeSettledClass q)
    = { s.noticeClass (modeSettledClass q) with
        pending := (s.noticeClass (modeSettledClass q)).pending || (s.portal q).pendingMode.isSome } :=
  State.noticeClass_setNoticeClass_self ..

theorem onlySweeps_rampPhases (q : Fin 4) (s : State) : OnlySweeps (rampWritten q s) (rampPhases q s) := by
  rw [rampPhases_eq]
  split
  · exact .refl _
  · exact onlySweeps_requestSweep ..

theorem phasesDone_rampPhases {q : Fin 4} {s : State} (hmode : (s.portal q).mode ≠ .halted) :
    PhasesDone q s (rampPhases q s) := by
  have honly := onlySweeps_rampPhases q s
  have hphases := rampPhases_eq q s
  generalize rampPhases q s = t at honly hphases ⊢
  have hportal := honly.portal q
  rw [portal_rampWritten] at hportal
  have hstage : (t.portal q).stageShort = shortAfter q s := by rw [hportal]
  have hnow : shortHolds t q = shortHolds (s.setPortal q (s.portal q).expired) q := by
    refine shortHolds_congr q ?_ ?_ ?_
    · rw [State.plan, honly.plans]
      rfl
    · rw [hportal, State.portal_setPortal_self]
    · rw [hportal, State.portal_setPortal_self]
  have hafter : shortAfter q s = if (s.portal q).pendingProfile = none then (s.portal q).stageShort else shortHolds t q := by
    rw [hnow, shortAfter]
  refine ⟨by rw [← hafter]; exact hportal, ?_, fun hm => ?_, fun hl => ?_, fun hl => ?_⟩
  · rw [honly.noticeClass_eq fun k => (sweepDoneClass_ne_stageShortClass k q).symm, rampWritten_short, shortClassAfter, hstage]
    by_cases hsame : shortAfter q s = (s.portal q).stageShort
    · rw [if_pos hsame, if_pos hsame]
    · have hpending : ¬ (s.portal q).pendingProfile = none := fun hnone => hsame (if_pos hnone)
      rw [if_neg hsame, if_neg hsame, hafter, if_neg hpending]
  · rw [honly.noticeClass_eq fun k => modeSettledClass_ne_sweepDoneClass q k, rampWritten_settled]
    show (_ || (s.portal q).pendingMode.isSome) = true
    rw [Option.isSome_iff_ne_none.2 hm, Bool.or_true]
  · rw [if_neg hl] at hphases
    have hasked := sweepAsked_requestSweep q (rampWritten q s)
    rw [← hphases] at hasked
    have hwritten := portal_rampWritten q s
    have hnot : ((rampWritten q s).portal q).mode ≠ .halted := by
      rw [hwritten]
      exact fun h => hmode (Portal.mode_of_expired_halted h)
    have hramp : ((rampWritten q s).portal q).ramp = (s.portal q).ramp := by
      rw [hwritten]
      exact (s.portal q).expired_ramp
    intro _
    have h := hasked hnot
    rw [hramp] at h
    exact h
  · rw [if_pos hl] at hphases
    rw [hphases, portal_rampWritten]
    exact ⟨rfl, (s.portal q).expired_refreshTimer⟩

/-! ## The portals that an expiry carries (R48) -/

theorem portalKept_rampPhases {q k : Fin 4} (h : k ≠ q) (s : State) : PortalKept k s (rampPhases q s) := by
  have notices := noticesKept_rampPhases q s
  have honly := onlySweeps_rampPhases q s
  refine ⟨portal_rampPhases_of_ne h s, ?_, fun c hc => notices.noticeClass ?_, honly.roster, honly.plans⟩
  · rw [rampPhases_eq]
    split
    · rfl
    · obtain ⟨hsweep, -⟩ := sweepKept_requestSweep h (rampWritten q s)
      exact hsweep
  · rintro (⟨rfl, -⟩ | ⟨rfl, -⟩ | ⟨rfl, -⟩)
    · obtain hc | hc | hc := hc
      · exact h (modeSettledClass_inj.1 hc).symm
      · exact modeSettledClass_ne_stageShortClass _ _ hc
      · exact modeSettledClass_ne_sweepDoneClass _ _ hc
    · obtain hc | hc | hc := hc
      · exact modeSettledClass_ne_stageShortClass _ _ hc.symm
      · exact h (stageShortClass_inj.1 hc).symm
      · exact sweepDoneClass_ne_stageShortClass _ _ hc.symm
    · obtain hc | hc | hc := hc
      · exact modeSettledClass_ne_sweepDoneClass _ _ hc.symm
      · exact sweepDoneClass_ne_stageShortClass _ _ hc
      · exact h (sweepDoneClass_inj.1 hc).symm

theorem portalKept_followerExpiry {q k : Fin 4} (h : k ≠ q) (s : State) : PortalKept k s (followerExpiry q s) := by
  unfold followerExpiry
  split
  · exact portalKept_rampPhases h s
  · exact .refl k s

theorem Portal.not_halted_of_running {x : Portal} (h : x.mode = .auto ∨ x.mode = .manual) : x.mode ≠ .halted := by
  obtain h | h := h <;> rw [h] <;> nofun

/-- What an expiry leaves of a portal that it carries through the phases, and of one that it does not. -/
theorem rampExpired_each {s : State} (h : CouplingLaw s) {p : Fin 4} (ht : (s.portal p).rampTimer ≠ none)
    (hr : (s.portal p).mode = .auto ∨ (s.portal p).mode = .manual) (q : Fin 4) :
    (ExpiresWith s p q → PhasesDone q s (rampExpired p s)) ∧ (¬ ExpiresWith s p q → PortalKept q s (rampExpired p s)) := by
  rw [rampExpired_of_running ht hr]
  by_cases hq : (s.portal q).leader = some p
  · have hne := h.ne_of_leader hq
    have each := forEach_each (P := fun t k => PortalKept k s t)
      (Q := fun t k => ((s.portal k).running = true → PhasesDone k s t)
        ∧ (¬ (s.portal k).running = true → PortalKept k s t)) (f := followerExpiry) (followers s p) (nodup_followers s p)
      (fun k t hk => by
        unfold followerExpiry
        rw [hk.portal]
        refine ⟨fun hruns => ?_, fun hnot => by rwa [if_neg hnot]⟩
        rw [if_pos hruns]
        refine (phasesDone_rampPhases ?_).of_kept hk (.refl k _)
        rw [hk.portal]
        exact Portal.not_halted_of_running (Portal.running_iff.1 hruns))
      (fun k j t hj hk => hk.trans (portalKept_followerExpiry hj t))
      (fun k j t hj hk => ⟨fun hruns => (hk.1 hruns).of_kept (.refl j s) (portalKept_followerExpiry hj t),
        fun hnot => (hk.2 hnot).trans (portalKept_followerExpiry hj t)⟩)
      (fun k hk => portalKept_rampPhases (h.ne_of_leader (mem_followers.1 hk)) s) q (mem_followers.2 hq)
    rw [Portal.running_iff] at each
    exact ⟨fun hw => each.1 (hw.resolve_left hne).2, fun hw => each.2 fun hm => hw (.inr ⟨hq, hm⟩)⟩
  · have kept : PortalKept q (rampPhases p s) (forEach (followers s p) followerExpiry (rampPhases p s)) :=
      forEach_induction (P := PortalKept q (rampPhases p s)) _ (.refl ..) fun k hk t hkept =>
        hkept.trans (portalKept_followerExpiry (by rintro rfl; exact hq (mem_followers.1 hk)) t)
    by_cases e : q = p
    · subst e
      exact ⟨fun _ => (phasesDone_rampPhases (Portal.not_halted_of_running hr)).of_kept (.refl ..) kept,
        fun hw => absurd (.inl rfl) hw⟩
    · exact ⟨fun hw => absurd (hw.resolve_left e).1 hq, fun _ => (portalKept_rampPhases e s).trans kept⟩

/-! ## The notices of an expiry (R150 to R153) -/

/-- Portals whose phases are still to run hand over what they would have handed over at first. -/
theorem noticesKept_forEach_followerExpiry {T : Fin 32 → Prop} (x : Fin 4 → Portal) (qs : List (Fin 4)) (hn : qs.Nodup)
    (hT : ∀ q ∈ qs, (x q).running = true → ∀ c, (x q).RampTouches q c → T c) {t : State}
    (hx : ∀ q ∈ qs, t.portal q = x q) : NoticesKept T t (forEach qs followerExpiry t) := by
  induction qs generalizing t with
  | nil => exact .refl ..
  | cons q qs ih =>
    obtain ⟨hq, hn⟩ := List.nodup_cons.1 hn
    rw [forEach_cons]
    have first : NoticesKept T t (followerExpiry q t) := by
      unfold followerExpiry
      split
      next hruns =>
        rw [hx q List.mem_cons_self] at hruns
        have phases := noticesKept_rampPhases q t
        rw [hx q List.mem_cons_self] at phases
        exact phases.mono (hT q List.mem_cons_self hruns)
      · exact .refl ..
    refine first.trans (ih hn (fun k hk => hT k (List.mem_cons_of_mem _ hk)) fun k hk => ?_)
    rw [portal_followerExpiry_of_ne (by rintro rfl; exact hq hk)]
    exact hx k (List.mem_cons_of_mem _ hk)

theorem rampExpired_frame {s : State} {p : Fin 4} (ht : (s.portal p).rampTimer ≠ none)
    (hr : (s.portal p).mode = .auto ∨ (s.portal p).mode = .manual) :
    rampExpired p s = { s with
      portals := (rampExpired p s).portals, sweeps := (rampExpired p s).sweeps, notices := (rampExpired p s).notices } := by
  rw [rampExpired_of_running ht hr]
  refine forEach_induction (P := fun t => t = { s with portals := t.portals, sweeps := t.sweeps, notices := t.notices })
    _ (rampPhases_frame p s) fun q _ t hframe => ?_
  unfold followerExpiry
  split
  · have hphases := rampPhases_frame q t
    rw [hphases, hframe]
  · exact hframe

/-- Settles O25. -/
theorem rampExpiryRunsThePhases : Obligations.RampExpiryRunsThePhases := by
  intro s p hs hcoupling ht hr taken
  have hexec : exec (.rampExpiry p) s = .next (rampExpired p s) := event_of_high hs _
  refine ⟨_, hexec, rampExpired_frame ht hr, ?_, fun q => ?_⟩
  · rw [rampExpired_of_running ht hr]
    refine ((noticesKept_rampPhases p s).mono fun c hc => ⟨p, .inl rfl, hc⟩).trans
      (noticesKept_forEach_followerExpiry s.portal _ (nodup_followers s p) (fun q hq hruns c hc => ?_) fun q hq => ?_)
    · exact ⟨q, .inr ⟨mem_followers.1 hq, Portal.running_iff.1 hruns⟩, hc⟩
    · exact portal_rampPhases_of_ne (hcoupling.ne_of_leader (mem_followers.1 hq)) s
  · intro before now
    obtain ⟨hdone, hkept⟩ := rampExpired_each hcoupling ht hr q
    refine ⟨fun h => ?_, fun h => ⟨(hkept h).portal, (hkept h).sweep⟩⟩
    obtain ⟨hportal, hshort, hsettled, hasked, hstill⟩ := hdone h
    exact ⟨hportal, hshort, hsettled, hasked, hstill⟩

end Sys2Proof.Machine
end

section
/-! SUPPORT. What a completion makes of each portal's sweep: the request of its record, the cursor that it moves, and the end
of a walk that both cursors have passed (R97, R98, R100, R103, R106). -/

namespace Sys2Proof.Machine

/-! ## The cursor that a completion moves (R103, R107) -/

/-- The cursor of a line after the completion of its exchange, before its phase is found. -/
def movedCursor (s : State) (p : Fin 4) (c : Cursor) : Cursor :=
  match c.phase with
  | .onLine slot => .from (nextPosition s p slot)
  | .onLineRestarted => .from c.position
  | .waiting => c
  | .passed => c

theorem movedCursor_of_onLine {s : State} {p : Fin 4} {c : Cursor} {slot : Nat} (h : c.phase = .onLine slot) :
    movedCursor s p c = .from (nextPosition s p slot) := by
  unfold movedCursor
  rw [h]

theorem movedCursor_of_restarted {s : State} {p : Fin 4} {c : Cursor} (h : c.phase = .onLineRestarted) :
    movedCursor s p c = .from c.position := by
  unfold movedCursor
  rw [h]

theorem movedCursor_of_waiting {s : State} {p : Fin 4} {c : Cursor} (h : c.phase = .waiting) : movedCursor s p c = c := by
  unfold movedCursor
  rw [h]

theorem movedCursor_of_passed {s : State} {p : Fin 4} {c : Cursor} (h : c.phase = .passed) : movedCursor s p c = c := by
  unfold movedCursor
  rw [h]

theorem movedCursor_congr {s t : State} (h : t.plans = s.plans) (p : Fin 4) (c : Cursor) :
    movedCursor t p c = movedCursor s p c := by
  unfold movedCursor nextPosition
  simp only [inFootprint_congr h]

theorem Walk.cursor_setCursor (w : Walk) (l : Line) (c : Cursor) : (w.setCursor l c).cursor l = c := by
  cases l <;> rfl

theorem Walk.cursor_setCursor_of_ne {w : Walk} {l k : Line} (h : k ≠ l) (c : Cursor) :
    (w.setCursor l c).cursor k = w.cursor k := by
  cases l with
  | a =>
    cases k with
    | a => exact absurd rfl h
    | b => rfl
  | b =>
    cases k with
    | a => rfl
    | b => exact absurd rfl h

theorem Walk.setCursor_self (w : Walk) (l : Line) : w.setCursor l (w.cursor l) = w := by
  cases l <;> rfl

theorem Walk.cls_setCursor (w : Walk) (l : Line) (c : Cursor) : (w.setCursor l c).cls = w.cls := by
  cases l <;> rfl

/-- The walk of a portal after the completion of an exchange. -/
def movedWalk (s : State) (p : Fin 4) (l : Line) (o : Origin) (w : Walk) : Walk :=
  if o = .cursor p then w.setCursor l (movedCursor s p (w.cursor l)) else w

theorem cursorCompleted_of_idle {p : Fin 4} {l : Line} {s : State} (h : (s.sweep p).running = none) :
    cursorCompleted p l s = s := by
  unfold cursorCompleted
  rw [h]

theorem cursorCompleted_of_running {p : Fin 4} {l : Line} {s : State} {w : Walk} (h : (s.sweep p).running = some w) :
    cursorCompleted p l s
      = s.setSweep p { s.sweep p with running := some (w.setCursor l (movedCursor s p (w.cursor l))) } := by
  have hself : s.setSweep p { s.sweep p with running := some w } = s := by
    rw [← h]
    exact State.setSweep_self s p
  unfold cursorCompleted
  rw [h]
  dsimp only
  cases hp : (w.cursor l).phase with
  | onLine slot => rw [movedCursor_of_onLine hp]
  | onLineRestarted => rw [movedCursor_of_restarted hp]
  | waiting => rw [movedCursor_of_waiting hp, Walk.setCursor_self, hself]
  | passed => rw [movedCursor_of_passed hp, Walk.setCursor_self, hself]

/-! ## Cursors found again (R100) -/

theorem looksFrom_settledCursor (t : State) (p : Fin 4) (l : Line) (position : Option Nat) :
    LooksFrom t p l position (settledCursor t p l (.from position)) := by
  cases position with
  | none => exact ⟨fun k n hk => (nomatch hk), fun _ => rfl⟩
  | some k =>
    rw [settledCursor_from_some]
    refine ⟨fun j n hj hwait => ?_, fun h => ?_⟩
    · obtain rfl := Option.some.inj hj
      rw [hwait]
      rfl
    · rw [h k rfl]
      rfl

theorem cursor_from_of_waiting {c : Cursor} (h : c.phase = .waiting) {t : State} {p : Fin 4} {l : Line} :
    settledCursor t p l c = settledCursor t p l (.from c.position) := by
  obtain ⟨position, phase⟩ := c
  obtain rfl : phase = .waiting := h
  cases position <;> rfl

theorem cursorFollows_settledCursor (t : State) (p : Fin 4) (l : Line) (c : Cursor) :
    CursorFollows t p l c (settledCursor t p l c) := by
  unfold CursorFollows
  split
  next hp =>
    rw [cursor_from_of_waiting hp]
    exact looksFrom_settledCursor ..
  all_goals
    next hp =>
      unfold settledCursor
      rw [hp]

theorem cursorCompletes_settledCursor (s t : State) (p : Fin 4) (l : Line) (c : Cursor) :
    CursorCompletes s t p l c (settledCursor t p l (movedCursor s p c)) := by
  unfold CursorCompletes
  split
  next slot hp =>
    rw [movedCursor_of_onLine hp]
    exact looksFrom_settledCursor ..
  next hp =>
    rw [movedCursor_of_restarted hp]
    exact looksFrom_settledCursor ..
  next hp =>
    rw [movedCursor_of_waiting hp, cursor_from_of_waiting hp]
    exact looksFrom_settledCursor ..
  next hp =>
    rw [movedCursor_of_passed hp]
    unfold settledCursor
    rw [hp]

/-! ## A sweep as a completion finds it -/

/-- A walk whose cursors have been found again. -/
def settledWalk (t : State) (p : Fin 4) (w : Walk) : Walk :=
  { w with cursorA := settledCursor t p .a w.cursorA, cursorB := settledCursor t p .b w.cursorB }

theorem settledWalk_cursor (t : State) (p : Fin 4) (w : Walk) (l : Line) :
    (settledWalk t p w).cursor l = settledCursor t p l (w.cursor l) := by
  cases l <;> rfl

/-- What a portal's sweep is before the settling that ends a completion: as it was, where it is IDLE and no sweep is asked
for; started, where it is IDLE and one is; and RUNNING with its walk moved, and owing another where one is asked for. -/
structure Arrives (p : Fin 4) (asked : Prop) (move : Walk → Walk) (s u : State) : Prop where
  idle : (s.sweep p).running = none → ¬ asked → SweepKept p s u
  started : (s.sweep p).running = none → asked → SweepAsked p s u ∧ SweepLawAt u p
    ∧ ∀ w, (u.sweep p).running = some w → ∀ l, ¬ w.onLine l
  runs : ∀ w, (s.sweep p).running = some w → u.portal p = s.portal p
    ∧ u.noticeClass (sweepDoneClass p) = s.noticeClass (sweepDoneClass p)
    ∧ ∃ o, (o = true ↔ (s.sweep p).owed = true ∨ asked)
      ∧ u.sweep p = { s.sweep p with running := some (move w), owed := o }

theorem PortalKept.of_sweepKept {p : Fin 4} {s t : State} (h : SweepKept p s t) (honly : OnlySweeps s t) : PortalKept p s t := by
  obtain ⟨hsweep, hportal, hdone⟩ := h
  refine ⟨hportal, hsweep, fun c hc => ?_, honly.roster, honly.plans⟩
  obtain rfl | rfl | rfl := hc
  · exact honly.noticeClass_eq fun k => modeSettledClass_ne_sweepDoneClass p k
  · exact honly.noticeClass_eq fun k => (sweepDoneClass_ne_stageShortClass k p).symm
  · exact hdone

namespace Arrives

variable {p : Fin 4} {asked : Prop} {move : Walk → Walk} {s u v : State}

theorem of_kept (h : SweepKept p s u) (hnot : ¬ asked) : Arrives p asked id s u where
  idle _ _ := h
  started _ hasked := absurd hasked hnot
  runs w hw := by
    obtain ⟨hsweep, hportal, hdone⟩ := h
    refine ⟨hportal, hdone, (s.sweep p).owed, by simp [hnot], ?_⟩
    rw [hsweep, id, ← hw]

theorem keep (h : Arrives p asked move s u) (hkept : PortalKept p u v) : Arrives p asked move s v := by
  have hdone := hkept.classes _ (.inr (.inr rfl))
  refine ⟨fun hidle hnot => ?_, fun hidle hasked => ?_, fun w hw => ?_⟩
  · obtain ⟨hsweep, hportal, hmark⟩ := h.idle hidle hnot
    exact ⟨hkept.sweep.trans hsweep, hkept.portal.trans hportal, hdone.trans hmark⟩
  · obtain ⟨hsweep, hlaw, hoff⟩ := h.started hidle hasked
    refine ⟨hsweep.of_after hkept.portal hkept.sweep hdone hkept.roster hkept.plans,
      hlaw.of_kept hkept.sweep hkept.roster (by rw [State.plan, hkept.plans, State.plan]), ?_⟩
    rw [hkept.sweep]
    exact hoff
  · obtain ⟨hportal, hmark, o, ho, hsweep⟩ := h.runs w hw
    exact ⟨hkept.portal.trans hportal, hdone.trans hmark, o, ho, hkept.sweep.trans hsweep⟩

theorem keep_kept (h : Arrives p asked move s u) (hkept : SweepKept p u v) (honly : OnlySweeps u v) :
    Arrives p asked move s v := h.keep (.of_sweepKept hkept honly)

/-- An arrival is seen from any earlier state with the same portal and sweep. -/
theorem of_before {r : State} (h : Arrives p asked move s u) (hkept : SweepKept p r s) : Arrives p asked move r u := by
  obtain ⟨hsweep, hportal, hdone⟩ := hkept
  refine ⟨fun hidle hnot => ?_, fun hidle hasked => ?_, fun w hw => ?_⟩
  · exact SweepKept.trans ⟨hsweep, hportal, hdone⟩ (h.idle (by rw [hsweep]; exact hidle) hnot)
  · obtain ⟨hswept, hlaw, hoff⟩ := h.started (by rw [hsweep]; exact hidle) hasked
    exact ⟨hswept.of_eq (by rw [hportal]) (by rw [hportal]) (by rw [hsweep]), hlaw, hoff⟩
  · rw [← hsweep] at hw
    have := h.runs w hw
    rwa [hsweep, hportal, hdone] at this

end Arrives

/-! ## The request of a record (R97, R98) -/

theorem not_onLine_of_beginSweep {cls : SweepClass} {p : Fin 4} {s : State} (hidle : (s.sweep p).running = none) {w : Walk}
    (hw : ((beginSweep cls p s).sweep p).running = some w) (l : Line) : ¬ w.onLine l := by
  rw [sweep_beginSweep, hidle] at hw
  obtain rfl := Option.some.inj hw
  have hcursor := placedWalk_of_not_onLine (cls := cls) (p := p) (old := none) (s := s) (l := l) fun ⟨_, hnone, _⟩ => nomatch hnone
  unfold Walk.onLine
  rw [hcursor]
  cases firstPosition s p with
  | none => rintro (⟨n, h⟩ | h) <;> nomatch h
  | some k =>
    rw [settledCursor_from_some]
    split <;> rintro (⟨n, h⟩ | h) <;> nomatch h

theorem not_onLine_of_startSweep {cls : SweepClass} {p : Fin 4} {s : State} (hidle : (s.sweep p).running = none) {w : Walk}
    (hw : ((startSweep cls p s).sweep p).running = some w) (l : Line) : ¬ w.onLine l := by
  unfold startSweep endIfPassed at hw
  split at hw
  swap
  · exact not_onLine_of_beginSweep hidle hw l
  have hclosed : ((closeSweep p (beginSweep cls p s)).sweep p).running = none := by rw [sweep_closeSweep]
  unfold startOwed at hw
  split at hw
  swap
  · rw [hclosed] at hw
    nomatch hw
  dsimp only at hw
  split at hw
  · rw [State.sweep_setSweep_self, hclosed] at hw
    nomatch hw
  unfold closeIfPassed at hw
  split at hw
  · rw [sweep_closeSweep] at hw
    nomatch hw
  · refine not_onLine_of_beginSweep ?_ hw l
    rw [State.sweep_setSweep_self, hclosed]

theorem arrives_requestSweep {p : Fin 4} {s : State} {asked : Prop} (hasked : asked) (hmode : (s.portal p).mode ≠ .halted) :
    Arrives p asked id s (requestSweep p s) where
  idle _ hnot := absurd hasked hnot
  started hidle _ := by
    refine ⟨sweepAsked_requestSweep p s, ?_⟩
    rw [requestSweep_of_idle hmode hidle]
    exact ⟨sweepLawAt_startSweep .., fun w hw l => not_onLine_of_startSweep hidle hw l⟩
  runs w hw := by
    rw [requestSweep_of_running hmode (by rw [hw]; nofun)]
    refine ⟨rfl, rfl, true, by simp [hasked], ?_⟩
    rw [State.sweep_setSweep_self, id, ← hw]

/-- The portal whose footprint holds the slot is asked, unless it is HALTED, and no other portal is. -/
theorem arrives_requestForSlot {s : State} {n : Nat} (hu : ∀ p, inFootprint s p n = true → ∀ k, inFootprint s k n = true → k = p)
    (p : Fin 4) :
    Arrives p (inFootprint s p n = true ∧ (s.portal p).mode ≠ .halted) id s (requestForSlot n s) := by
  by_cases hp : inFootprint s p n = true
  · have hslot := portalOfSlot_eq hp (hu p hp)
    rw [requestForSlot_eq hslot]
    by_cases hmode : (s.portal p).mode = .halted
    · refine .of_kept ?_ fun h => h.2 hmode
      rw [requestSweep, if_pos hmode]
      exact .refl ..
    · exact arrives_requestSweep ⟨hp, hmode⟩ hmode
  · refine .of_kept (sweepKept_requestForSlot fun hslot => hp ?_) fun h => hp h.1
    exact List.find?_some (p := fun k => inFootprint s k n) hslot

/-! ## The completion told to its origin (R118 step 4) -/

theorem movedWalk_of_ne {s : State} {p : Fin 4} {l : Line} {o : Origin} (h : o ≠ .cursor p) : movedWalk s p l o = id := by
  funext w
  exact if_neg h

theorem movedCursor_of_not_onLine {s : State} {p : Fin 4} {w : Walk} {l : Line} (h : ¬ w.onLine l) :
    movedCursor s p (w.cursor l) = w.cursor l := by
  cases hp : (w.cursor l).phase with
  | onLine slot => exact absurd (.inl ⟨slot, hp⟩) h
  | onLineRestarted => exact absurd (.inr hp) h
  | waiting => exact movedCursor_of_waiting hp
  | passed => exact movedCursor_of_passed hp

/-- A cursor that is not ON_LINE is not moved. -/
theorem cursorCompleted_of_not_onLine {p : Fin 4} {l : Line} {s : State}
    (h : ∀ w, (s.sweep p).running = some w → ¬ w.onLine l) : cursorCompleted p l s = s := by
  cases hw : (s.sweep p).running with
  | none => exact cursorCompleted_of_idle hw
  | some w =>
    rw [cursorCompleted_of_running hw, movedCursor_of_not_onLine (h w hw), Walk.setCursor_self, ← hw]
    exact State.setSweep_self s p

theorem sweepKept_cursorCompleted {p k : Fin 4} (h : k ≠ p) (l : Line) (s : State) : SweepKept k s (cursorCompleted p l s) := by
  cases hw : (s.sweep p).running with
  | none =>
    rw [cursorCompleted_of_idle hw]
    exact .refl ..
  | some w =>
    rw [cursorCompleted_of_running hw]
    exact .of_setSweep h ..

namespace Arrives

theorem cursorCompleted {p : Fin 4} {asked : Prop} {s u : State} (h : Arrives p asked id s u) (l : Line)
    (hplans : u.plans = s.plans) : Arrives p asked (movedWalk s p l (.cursor p)) s (cursorCompleted p l u) := by
  refine ⟨fun hidle hnot => ?_, fun hidle hasked => ?_, fun w hw => ?_⟩
  · have hkept := h.idle hidle hnot
    rwa [cursorCompleted_of_idle (by rw [hkept.1]; exact hidle)]
  · have hstarted := h.started hidle hasked
    have ⟨_, _, hoff⟩ := hstarted
    rwa [cursorCompleted_of_not_onLine fun w hw => hoff w hw l]
  · obtain ⟨hportal, hdone, o, ho, hsweep⟩ := h.runs w hw
    have hrunning : (u.sweep p).running = some w := by rw [hsweep, id]
    rw [cursorCompleted_of_running hrunning]
    refine ⟨hportal, hdone, o, ho, ?_⟩
    rw [State.sweep_setSweep_self, hsweep, movedCursor_congr hplans, movedWalk, if_pos rfl]

theorem notifyOrigin {p : Fin 4} {asked : Prop} {s u : State} (h : Arrives p asked id s u) (l : Line) (o : Origin)
    (hplans : u.plans = s.plans) : Arrives p asked (movedWalk s p l o) s (notifyOrigin l o u) := by
  cases o with
  | cursor k =>
    by_cases hk : k = p
    · subst hk
      exact h.cursorCompleted l hplans
    · rw [movedWalk_of_ne fun e => hk (Origin.cursor.inj e)]
      exact h.keep_kept (sweepKept_cursorCompleted (Ne.symm hk) l u) (onlySweeps_cursorCompleted ..)
  | admin =>
    rw [movedWalk_of_ne (show Origin.admin ≠ .cursor p by nofun)]
    exact h
  | service =>
    rw [movedWalk_of_ne (show Origin.service ≠ .cursor p by nofun)]
    exact h

end Arrives

/-! ## The settling that ends a completion (R100, R106) -/

/-- What the settling leaves of a sweep that ran: its walk, with the owed flag as a request left it; or, with both cursors
PASSED, its end and what follows it. -/
structure SweepRan (p : Fin 4) (v : Walk) (owed : Bool) (s t : State) : Prop where
  on : (∃ l, (v.cursor l).phase ≠ .passed) → t.sweep p = { s.sweep p with running := some v, owed := owed }
    ∧ t.portal p = s.portal p ∧ t.noticeClass (sweepDoneClass p) = s.noticeClass (sweepDoneClass p)
  done : (∀ l, (v.cursor l).phase = .passed) → (t.noticeClass (sweepDoneClass p)).pending = true
  ended : (∀ l, (v.cursor l).phase = .passed) → (s.portal p).mode = .halted ∨ owed = false →
    t.sweep p = { running := none, owed := false, done := true } ∧ t.portal p = s.portal p
  again : (∀ l, (v.cursor l).phase = .passed) → (s.portal p).mode ≠ .halted → owed = true →
    SweepStarted p .normal { s with roster := t.roster } t

theorem settledWalk_congr {s t : State} (hroster : t.roster = s.roster) (hplans : t.plans = s.plans) (p : Fin 4) (w : Walk) :
    settledWalk t p w = settledWalk s p w := by
  unfold settledWalk
  rw [settledCursor_congr hroster hplans, settledCursor_congr hroster hplans]

theorem sweep_settleCursors {p : Fin 4} {s : State} {w : Walk} (h : (s.sweep p).running = some w) :
    (settleCursors p s).sweep p = { s.sweep p with running := some (settledWalk s p w) } := by
  unfold settleCursors
  rw [h]
  exact State.sweep_setSweep_self ..

theorem SweepStarted.of_eq {p : Fin 4} {cls : SweepClass} {s s' t : State} (h : SweepStarted p cls s t)
    (hrefresh : (s'.portal p).ramp.refresh = (s.portal p).ramp.refresh) (hroster : s'.roster = s.roster)
    (hplans : s'.plans = s.plans) : SweepStarted p cls s' t := by
  obtain ⟨hbegun, hplaced⟩ := h
  exact ⟨by rw [hbegun, hrefresh], hplaced.of_eq hroster hplans⟩

/-- R106: the end of a sweep that owes another, on a portal that is not HALTED, starts it. -/
theorem sweepStarted_endIfPassed {p : Fin 4} {s : State} (hw : rosterWf s.roster = true) (hmode : (s.portal p).mode ≠ .halted)
    (hpassed : bothPassed s p = true) (howed : (s.sweep p).owed = true) :
    SweepStarted p .normal s (endIfPassed p s) := by
  have hclosed := sweep_closeSweep p s
  unfold endIfPassed startOwed
  rw [if_pos hpassed, if_pos (by rw [hclosed]; exact howed)]
  dsimp only
  rw [if_neg (show ¬ ((closeSweep p s).portal p).mode = .halted from hmode)]
  have hstarted := sweepStarted_startSweep (p := p)
    (s := (closeSweep p s).setSweep p { (closeSweep p s).sweep p with owed := false }) hw
    (by rw [State.sweep_setSweep_self, hclosed]) (by rw [State.sweep_setSweep_self]) .normal
  rw [startSweep, endIfPassed_of_not_owed (by rw [sweep_beginSweep, State.sweep_setSweep_self])] at hstarted
  exact hstarted.of_eq rfl rfl rfl

/-- R106: the end of a sweep that starts no other. -/
theorem endIfPassed_ends {p : Fin 4} {s : State} (hpassed : bothPassed s p = true)
    (h : (s.portal p).mode = .halted ∨ (s.sweep p).owed = false) :
    (endIfPassed p s).sweep p = { running := none, owed := false, done := true } ∧ (endIfPassed p s).portal p = s.portal p := by
  have hclosed := sweep_closeSweep p s
  unfold endIfPassed startOwed
  rw [if_pos hpassed]
  cases howed : (s.sweep p).owed with
  | false =>
    rw [if_neg (by rw [hclosed, howed]; nofun), hclosed]
    exact ⟨congrArg (fun o => ({ running := none, owed := o, done := true } : Sweep)) howed, rfl⟩
  | true =>
    have hmode : ((closeSweep p s).portal p).mode = .halted := h.resolve_right (by rw [howed]; nofun)
    rw [if_pos (by rw [hclosed, howed])]
    dsimp only
    rw [if_pos hmode, State.sweep_setSweep_self, hclosed]
    exact ⟨rfl, rfl⟩

namespace SweepRan

variable {p : Fin 4} {v : Walk} {owed : Bool} {s t u : State}

theorem keep (h : SweepRan p v owed s t) (hkept : PortalKept p t u) : SweepRan p v owed s u := by
  have hdone := hkept.classes _ (.inr (.inr rfl))
  refine ⟨fun hl => ?_, fun hl => ?_, fun hl hends => ?_, fun hl hmode howed => ?_⟩
  · rw [hkept.sweep, hkept.portal, hdone]
    exact h.on hl
  · rw [hdone]
    exact h.done hl
  · rw [hkept.sweep, hkept.portal]
    exact h.ended hl hends
  · obtain ⟨hbegun, hplaced⟩ := h.again hl hmode howed
    rw [hkept.roster]
    exact ⟨by rw [hkept.portal]; exact hbegun, hplaced.of_after hkept.sweep hkept.roster hkept.plans hdone⟩

/-- One portal's part of a settling. -/
theorem of_settle {w : Walk} (hw : rosterWf t.roster = true) (hplans : t.plans = s.plans) (hportal : t.portal p = s.portal p)
    (hdone : t.noticeClass (sweepDoneClass p) = s.noticeClass (sweepDoneClass p))
    (hsweep : t.sweep p = { s.sweep p with running := some w, owed := owed }) :
    SweepRan p (settledWalk t p w) owed s (endIfPassed p (settleCursors p t)) := by
  have hsettled := sweep_settleCursors (p := p) (s := t) (w := w) (by rw [hsweep])
  rw [hsweep] at hsettled
  have honly := onlySweeps_settleCursors p t
  have hpassed : bothPassed (settleCursors p t) p = true ↔ ∀ l, ((settledWalk t p w).cursor l).phase = .passed :=
    bothPassed_iff (by rw [hsettled])
  have hportal' : (settleCursors p t).portal p = s.portal p := (settleCursors_portal p p t).trans hportal
  refine ⟨fun ⟨l, hl⟩ => ?_, fun hl => ?_, fun hl hends => ?_, fun hl hmode howed => ?_⟩
  · unfold endIfPassed
    rw [if_neg fun h => hl (hpassed.1 h l)]
    exact ⟨hsettled, hportal', (settleCursors_noticeClass p t _).trans hdone⟩
  · unfold endIfPassed
    rw [if_pos (hpassed.2 hl)]
    exact startOwed_pending (closeSweep_pending p _)
  · rw [← hportal'] at hends ⊢
    exact endIfPassed_ends (hpassed.2 hl) (hends.imp_right fun h => by rw [hsettled]; exact h)
  · have hstarted := sweepStarted_endIfPassed (p := p) (s := settleCursors p t) (by rw [honly.roster]; exact hw)
      (by rw [hportal']; exact hmode) (hpassed.2 hl) (by rw [hsettled]; exact howed)
    refine hstarted.of_eq ?_ ?_ ?_
    · rw [hportal']
      rfl
    · exact (onlySweeps_endIfPassed p _).roster
    · exact hplans.symm.trans honly.plans.symm

end SweepRan

namespace Arrives

variable {p : Fin 4} {asked : Prop} {move : Walk → Walk} {s u : State}

/-- What a settling shows of a portal: its own part, between the others'. -/
theorem settleSweeps_view {B : State → Prop} (own : ∀ v, PortalKept p u v → B (endIfPassed p (settleCursors p v)))
    (keeps : ∀ v t, PortalKept p v t → B v → B t) : B (settleSweeps u) :=
  settleSweeps_at (A := PortalKept p u) p own (fun _ _ hkept honly h => h.trans (.of_sweepKept hkept honly))
    (fun _ _ hkept honly h => keeps _ _ (.of_sweepKept hkept honly) h) (.refl p u)

theorem settled_idle (h : Arrives p asked move s u) (hidle : (s.sweep p).running = none) (hnot : ¬ asked) :
    SweepKept p s (settleSweeps u) := by
  have hkept := h.idle hidle hnot
  refine settleSweeps_view (B := SweepKept p s) (fun v hv => ?_) fun v t hvt hsv =>
    hsv.trans ⟨hvt.sweep, hvt.portal, hvt.classes _ (.inr (.inr rfl))⟩
  have hrunning : (v.sweep p).running = none := by rw [hv.sweep, hkept.1]; exact hidle
  have hstill : settleCursors p v = v := by
    unfold settleCursors
    rw [hrunning]
  have hnotPassed : ¬ bothPassed v p = true := by
    unfold bothPassed
    rw [hrunning]
    nofun
  rw [hstill, endIfPassed, if_neg hnotPassed]
  exact hkept.trans ⟨hv.sweep, hv.portal, hv.classes _ (.inr (.inr rfl))⟩

theorem settled_started (h : Arrives p asked move s u) (hidle : (s.sweep p).running = none) (hasked : asked) :
    SweepAsked p s (settleSweeps u) := by
  obtain ⟨hswept, hlaw, -⟩ := h.started hidle hasked
  refine settleSweeps_view (B := SweepAsked p s) (fun v hv => ?_) fun v t hvt hsv =>
    hsv.of_after hvt.portal hvt.sweep (hvt.classes _ (.inr (.inr rfl))) hvt.roster hvt.plans
  rw [settle_of_law (hlaw.of_kept hv.sweep hv.roster (by rw [State.plan, hv.plans, State.plan]))]
  exact hswept.of_after hv.portal hv.sweep (hv.classes _ (.inr (.inr rfl))) hv.roster hv.plans

theorem settled_runs (h : Arrives p asked move s u) (hw : rosterWf u.roster = true) (hplans : u.plans = s.plans) {w : Walk}
    (hrunning : (s.sweep p).running = some w) : ∃ o, (o = true ↔ (s.sweep p).owed = true ∨ asked)
      ∧ SweepRan p (settledWalk (settleSweeps u) p (move w)) o s (settleSweeps u) := by
  obtain ⟨hportal, hdone, o, ho, hsweep⟩ := h.runs w hrunning
  refine ⟨o, ho, settleSweeps_view (p := p) (B := fun t => SweepRan p (settledWalk t p (move w)) o s t) (fun v hv => ?_)
    fun v t hvt hran => ?_⟩
  · have hran := SweepRan.of_settle (p := p) (s := s) (t := v) (w := move w) (owed := o) (by rw [hv.roster]; exact hw)
      (hv.plans.trans hplans) (hv.portal.trans hportal) ((hv.classes _ (.inr (.inr rfl))).trans hdone) (hv.sweep.trans hsweep)
    have honly := onlySweeps_settle p v
    rwa [← settledWalk_congr honly.roster honly.plans] at hran
  · rw [settledWalk_congr hvt.roster hvt.plans]
    exact hran.keep hvt

theorem sweepNotAsked (h : Arrives p asked move s u) (hw : rosterWf u.roster = true) (hplans : u.plans = s.plans)
    (hnot : ¬ asked) : SweepNotAsked p s (settleSweeps u) := by
  refine ⟨fun howed => ?_, fun hidle => h.settled_idle hidle hnot⟩
  cases hrunning : (s.sweep p).running with
  | none =>
    obtain ⟨hsweep, hportal, -⟩ := h.settled_idle hrunning hnot
    exact ⟨by rw [hsweep]; exact howed, hportal⟩
  | some w =>
    obtain ⟨o, ho, hran⟩ := h.settled_runs hw hplans hrunning
    have hfalse : o = false := Bool.eq_false_iff.2 fun htrue => (ho.1 htrue).elim (by rw [howed]; nofun) hnot
    by_cases hl : ∃ l, ((settledWalk (settleSweeps u) p (move w)).cursor l).phase ≠ .passed
    · obtain ⟨hsweep, hportal, -⟩ := hran.on hl
      exact ⟨by rw [hsweep]; exact hfalse, hportal⟩
    · push Not at hl
      obtain ⟨hsweep, hportal⟩ := hran.ended hl (.inr hfalse)
      exact ⟨by rw [hsweep], hportal⟩

theorem sweepAsked (h : Arrives p asked move s u) (hw : rosterWf u.roster = true) (hplans : u.plans = s.plans)
    (hover : ∀ w, (s.sweep p).running = some w →
      (∀ l, ((settledWalk (settleSweeps u) p (move w)).cursor l).phase = .passed) → WalkOver p w (settleSweeps u))
    (hasked : asked) : SweepAsked p s (settleSweeps u) := by
  cases hrunning : (s.sweep p).running with
  | none => exact h.settled_started hrunning hasked
  | some w =>
    obtain ⟨o, ho, hran⟩ := h.settled_runs hw hplans hrunning
    have htrue : o = true := ho.2 (.inr hasked)
    intro hmode
    by_cases hl : ∃ l, ((settledWalk (settleSweeps u) p (move w)).cursor l).phase ≠ .passed
    · obtain ⟨hsweep, -⟩ := hran.on hl
      rw [hsweep]
      exact .inl ⟨nofun, htrue⟩
    push Not at hl
    have hdone := hran.done hl
    obtain ⟨hbegun, hon, hended⟩ := hran.again hl hmode htrue
    have htables := hplans.symm.trans (onlySweeps_settleSweeps u).plans.symm
    generalize settleSweeps u = t at hbegun hon hended hdone hl hover htables ⊢
    have heligible : ∀ l n, EligibleAt { s with roster := t.roster } p l n ↔ EligibleAt t p l n := fun l n =>
      eligibleAt_congr (s := t) (t := { s with roster := t.roster }) rfl htables
    by_cases hany : ∃ l n, EligibleAt t p l n
    · obtain ⟨l, n, hn⟩ := hany
      obtain ⟨v, hsweep, -⟩ := hon ⟨l, .inr ⟨n, (heligible l n).2 hn⟩⟩
      refine .inr (.inl ⟨by rw [hsweep]; nofun, hbegun, .inr ⟨hdone, w, hrunning, hover w hrunning hl⟩⟩)
    · push Not at hany
      obtain ⟨hsweep, -⟩ := hended fun l => ⟨fun ⟨w, hold, _⟩ => (nomatch hold), fun n hn => hany l n ((heligible l n).1 hn)⟩
      exact .inr (.inr ⟨hsweep, hbegun, hdone, hany⟩)

end Arrives

/-! ## A walk that is over (R100, R103) -/

theorem phase_settledCursor_passed {t : State} {p : Fin 4} {l : Line} {position : Option Nat}
    (h : (settledCursor t p l (.from position)).phase = .passed) {n : Nat} (hn : EligibleAt t p l n) :
    ∀ k, position = some k → n < k := by
  rintro k rfl
  rw [settledCursor_from_some] at h
  split at h
  · nomatch h
  next hnone => exact lt_of_waitingSlot_eq_none (by simpa using hnone) hn

theorem le_of_nextPosition {s : State} (h : FootprintLaw s) {p : Fin 4} {slot n : Nat} (hn : inFootprint s p n = true)
    (hnext : ∀ k, nextPosition s p slot = some k → n < k) : n ≤ slot := by
  by_contra hlt
  have hbound : n < 512 := by
    obtain ⟨q, hq, hholds⟩ := inFootprint_iff.1 hn
    have hwf := h.1 p q hq
    exact Plan.names_lt hwf ((Plan.holds_iff hwf).1 hholds)
  cases hk : nextPosition s p slot with
  | none =>
    unfold nextPosition at hk
    rw [List.find?_eq_none] at hk
    exact hk n (List.mem_range.2 hbound) (by simp [hn, Nat.lt_of_not_le hlt])
  | some k =>
    have hlast := hnext k hk
    unfold nextPosition at hk
    rw [List.find?_range_eq_some] at hk
    obtain ⟨-, -, hfirst⟩ := hk
    have := hfirst n hlast
    simp [hn, Nat.lt_of_not_le hlt] at this

theorem movedWalk_cursor (s : State) (p : Fin 4) (l : Line) (o : Origin) (w : Walk) (k : Line) :
    (movedWalk s p l o w).cursor k = if o = .cursor p ∧ k = l then movedCursor s p (w.cursor k) else w.cursor k := by
  unfold movedWalk
  by_cases ho : o = .cursor p
  · rw [if_pos ho]
    by_cases hk : k = l
    · subst hk
      rw [Walk.cursor_setCursor, if_pos ⟨ho, rfl⟩]
    · rw [Walk.cursor_setCursor_of_ne hk, if_neg fun h => hk h.2]
  · rw [if_neg ho, if_neg fun h => ho h.1]

theorem movedWalk_cls (s : State) (p : Fin 4) (l : Line) (o : Origin) (w : Walk) : (movedWalk s p l o w).cls = w.cls := by
  unfold movedWalk
  split
  · exact Walk.cls_setCursor ..
  · rfl

/-- A walk that both cursors have passed once the completion has moved one has nothing left. -/
theorem walkOver_of_movedWalk {s t : State} (h : FootprintLaw s) (hplans : t.plans = s.plans) {p : Fin 4} {l : Line}
    {o : Origin} {w : Walk} (hpassed : ∀ k, ((settledWalk t p (movedWalk s p l o w)).cursor k).phase = .passed) :
    WalkOver p w t := by
  intro k n hn
  have hk := hpassed k
  rw [settledWalk_cursor, movedWalk_cursor] at hk
  split
  next hp =>
    rw [movedCursor_of_waiting hp, ite_self, cursor_from_of_waiting hp] at hk
    exact phase_settledCursor_passed hk hn
  next slot hp =>
    rw [movedCursor_of_onLine hp] at hk
    split at hk
    · have hin : inFootprint s p n = true := by
        obtain ⟨-, hin⟩ := hn
        rwa [inFootprint_congr hplans] at hin
      exact le_of_nextPosition h hin (phase_settledCursor_passed hk hn)
    · unfold settledCursor at hk
      rw [hp] at hk
      rw [hp] at hk
      nomatch hk
  next hp =>
    rw [movedCursor_of_restarted hp] at hk
    split at hk
    · exact phase_settledCursor_passed hk hn
    · unfold settledCursor at hk
      rw [hp] at hk
      rw [hp] at hk
      nomatch hk
  · trivial

end Sys2Proof.Machine
end

section
/-! SUPPORT. The completion of an exchange as a whole: the result applied, the request taken, the origin told, the line freed
and the sweeps settled (R118, R127). -/

namespace Sys2Proof.Machine

/-! ## The notices of a completion (R127, R143) -/

theorem lineEventClass_ne_sweepDoneClass (l : Line) (e : LineEvent) (p : Fin 4) : lineEventClass l e ≠ sweepDoneClass p := by
  cases l <;> cases e <;> revert p <;> decide

theorem lineEventClass_ne_modeSettledClass (l : Line) (e : LineEvent) (p : Fin 4) : lineEventClass l e ≠ modeSettledClass p := by
  cases l <;> cases e <;> revert p <;> decide

theorem strayClass_ne_modeSettledClass (l : Line) (p : Fin 4) : strayClass l ≠ modeSettledClass p := by
  cases l <;> revert p <;> decide

theorem noticesKept_handCondition {touched : Fin 32 → Prop} {c : Fin 32} (hc : isCondition c = true) (htouched : touched c)
    (b : Bool) (s : State) : NoticesKept touched s (handCondition c b s) := by
  obtain ⟨hpriority, hmasked⟩ := (s.noticeClass c).handed_settings b
  rw [handCondition_handed]
  exact .of_setNoticeClass hpriority hmasked (fun h => by rw [hc] at h; nomatch h) fun h => absurd htouched h

theorem noticesKept_handEvent {touched : Fin 32 → Prop} {c : Fin 32} (htouched : touched c) (s : State) :
    NoticesKept touched s (handEvent c s) :=
  .of_setNoticeClass rfl rfl (fun _ => ⟨rfl, fun _ => rfl⟩) fun h => absurd htouched h

theorem noticesKept_addStray (l : Line) (a : Nat) (s : State) : NoticesKept (· = strayClass l) s (addStray l a s) := by
  unfold addStray
  dsimp only
  split
  · exact (NoticesKept.of_notices (State.setLine_notices ..)).trans
      (noticesKept_handCondition (touched := (· = strayClass l)) (isCondition_strayClass l) rfl true _)
  · exact .of_notices (State.setLine_notices ..)

theorem noticesKept_takeJoin (l : Line) (a : Nat) (s : State) : NoticesKept (· = strayClass l) s (takeJoin l a s) := by
  have queued : ∀ t, NoticesKept (· = strayClass l) t (queueIdentify l a t) := fun t => .of_notices (State.setLine_notices ..)
  unfold takeJoin
  split
  · split
    · exact .refl ..
    · exact queued s
  · split
    · exact .refl ..
    split
    · exact queued s
    split
    · exact (noticesKept_addStray l a s).trans (queued _)
    · exact .refl ..

/-- R134 to R137: a request touches STRAY of its line at most. -/
theorem noticesKept_takeRequest (l : Line) (q : Option Request) (s : State) :
    NoticesKept (fun c => c = strayClass l ∧ q ≠ none) s (takeRequest l q s) := by
  cases q with
  | none => exact .refl ..
  | some q =>
    refine NoticesKept.mono (few := (· = strayClass l)) ?_ fun c hc => ⟨hc, nofun⟩
    cases q with
    | join act a =>
      cases act with
      | true => exact noticesKept_takeJoin l a s
      | false =>
        show NoticesKept _ s (removeStray l a s)
        unfold removeStray
        dsimp only
        split
        · exact (NoticesKept.of_notices (State.setLine_notices ..)).trans
            (noticesKept_handCondition (touched := (· = strayClass l)) (isCondition_strayClass l) rfl false _)
        · exact .of_notices (State.setLine_notices ..)
    | news act a =>
      cases act with
      | true =>
        show NoticesKept _ s (takeNews l a s)
        unfold takeNews
        split
        · split
          · exact .refl ..
          · exact .of_notices (State.setLine_notices ..)
        · exact .refl ..
      | false => exact .of_notices (State.setLine_notices ..)

/-! ## The frame of a completion (R118) -/

theorem State.eq_of_writes {s t : State} {l : Line} (h : Writes [.roster, .lines, .portals, .sweeps, .notices] s t)
    (hothers : ∀ k, k ≠ l → t.line k = s.line k) :
    t = ({ s with portals := t.portals, sweeps := t.sweeps, notices := t.notices, roster := t.roster }).setLine l
      (t.line l) := by
  obtain ⟨⟨hreset, hstraps, hport, hpending⟩, hkept⟩ := h
  have hemerg := hkept .emergN (by decide)
  have hmeters := hkept .meters (by decide)
  have hpolls := hkept .polls (by decide)
  have hplans := hkept .plans (by decide)
  have hsnapshots := hkept .snapshots (by decide)
  obtain ⟨hlast, hpoll⟩ := Prod.mk.inj hpolls
  cases t
  cases l with
  | a =>
    have hline := hothers .b nofun
    exact State.mk.injEq .. ▸ ⟨hreset, hstraps, hemerg, hmeters, hlast, hpoll, rfl, hplans, rfl, rfl, rfl, hline, rfl,
      hsnapshots, hport, hpending⟩
  | b =>
    have hline := hothers .a nofun
    exact State.mk.injEq .. ▸ ⟨hreset, hstraps, hemerg, hmeters, hlast, hpoll, rfl, hplans, rfl, rfl, hline, rfl, rfl,
      hsnapshots, hport, hpending⟩

/-- What a result leaves: the sweeps that it asks for, and the notices of its event. -/
structure ResultApplied (l : Line) (event : Option LineEvent) (asked : Fin 4 → Prop) (s u : State) : Prop where
  wf : rosterWf u.roster = true
  plans : u.plans = s.plans
  portals : ∀ p, u.portal p = { s.portal p with refreshTimer := (u.portal p).refreshTimer }
  notices : NoticesKept (fun c => (∃ e, event = some e ∧ c = lineEventClass l e) ∨ ∃ p, c = sweepDoneClass p) s u
  pends : ∀ e, event = some e → (u.noticeClass (lineEventClass l e)).pending = true
  arrives : ∀ p, Arrives p (asked p) id s u

namespace ResultApplied

variable {l : Line} {event : Option LineEvent} {asked : Fin 4 → Prop} {s u : State}

theorem unchanged (hw : rosterWf s.roster = true) (l : Line) : ResultApplied l none (fun _ => False) s s where
  wf := hw
  plans := rfl
  portals _ := rfl
  notices := .refl ..
  pends _ h := nomatch h
  arrives _ := .of_kept (.refl ..) id

theorem setLine (h : ResultApplied l event asked s u) (c : LineCtl) : ResultApplied l event asked s (u.setLine l c) where
  wf := by simpa using h.wf
  plans := (State.setLine_plans ..).trans h.plans
  portals := by simpa using h.portals
  notices := h.notices.trans (.of_notices (State.setLine_notices ..))
  pends := by simpa using h.pends
  arrives p := (h.arrives p).keep ⟨by simp, by simp, by simp, by simp, by simp⟩

end ResultApplied

theorem portalKept_takeRequest (p : Fin 4) (l : Line) (q : Option Request) (s : State) :
    PortalKept p s (takeRequest l q s) := by
  have hwrites := writes_takeRequest l q s
  have hnotices := noticesKept_takeRequest l q s
  refine ⟨?_, ?_, fun c hc => hnotices.noticeClass fun ⟨h, _⟩ => ?_, hwrites.roster, hwrites.plans⟩
  · rw [State.portal, hwrites.portals, State.portal]
  · rw [State.sweep, hwrites.sweeps, State.sweep]
  · subst h
    obtain hc | hc | hc := hc
    · exact strayClass_ne_modeSettledClass _ _ hc
    · exact strayClass_ne_stageShortClass _ _ hc
    · exact strayClass_ne_sweepDoneClass _ _ hc

theorem notices_notifyOrigin (l : Line) (o : Origin) (s : State) : (notifyOrigin l o s).notices = s.notices := by
  cases o with
  | cursor p =>
    show (cursorCompleted p l s).notices = s.notices
    cases hw : (s.sweep p).running with
    | none => rw [cursorCompleted_of_idle hw]
    | some w =>
      rw [cursorCompleted_of_running hw]
      rfl
  | admin => rfl
  | service => rfl

/-- What the whole completion leaves. -/
structure Completed (s : State) (l : Line) (x : Exchange) (asked chars : List Byte) (event : Option LineEvent)
    (asks : Fin 4 → Prop) (u t : State) : Prop where
  frame : CompletionFrame s l asked chars event t
  roster : t.roster = u.roster
  line : readRequest (asked ++ chars) = none → t.line l = { u.line l with state := .idle }
  asked : ∀ p, asks p → SweepAsked p s t
  notAsked : ∀ p, ¬ asks p → SweepNotAsked p s t
  ran : ∀ p w, (s.sweep p).running = some w → ∃ o, (o = true ↔ (s.sweep p).owed = true ∨ asks p)
    ∧ SweepRan p (settledWalk t p (movedWalk s p l x.origin w)) o s t

theorem ResultApplied.completed {s : State} {l : Line} {x : Exchange} {got asked : List Byte} (hs : s.resetN = true)
    (hfootprints : FootprintLaw s) (hx : (s.line l).state = .busy { x with phase := .slot got asked }) (chars : List Byte)
    {event : Option LineEvent} {asks : Fin 4 → Prop} {u : State}
    (hu : applyResult l x (acceptReply x.frame x.address got) s = u) (h : ResultApplied l event asks s u) :
    ∃ t, Completed s l x asked chars event asks u t := by
  have hexec := exec_exchangeCompletion hs hx chars
  have hwrites := writes_complete l x got (asked ++ chars) s
  have hothers : KeepsToLine l s (complete l x got (asked ++ chars) s) :=
    ((((KeepsToLine.applyResult ..).trans (.takeRequest ..)).trans (.onlySweeps (onlySweeps_notifyOrigin ..))).trans
      (.freeLine ..)).trans (.onlySweeps (onlySweeps_settleSweeps _))
  have hparts : complete l x got (asked ++ chars) s
      = settleSweeps (freeLine l (notifyOrigin l x.origin (takeRequest l (readRequest (asked ++ chars)) u))) := by
    rw [← hu]
    rfl
  generalize complete l x got (asked ++ chars) s = t at hexec hwrites hothers hparts
  have htaken := portalKept_takeRequest (l := l) (q := readRequest (asked ++ chars)) (s := u)
  have hrequest := noticesKept_takeRequest l (readRequest (asked ++ chars)) u
  have hnone : readRequest (asked ++ chars) = none → takeRequest l (readRequest (asked ++ chars)) u = u := fun h => by
    rw [h]
    rfl
  generalize takeRequest l (readRequest (asked ++ chars)) u = u₁ at hparts htaken hrequest hnone
  have htold := onlySweeps_notifyOrigin l x.origin u₁
  have hmarks := notices_notifyOrigin l x.origin u₁
  have harrives : ∀ p, Arrives p (asks p) (movedWalk s p l x.origin) s (freeLine l (notifyOrigin l x.origin u₁)) := fun p =>
    (((h.arrives p).keep (htaken p)).notifyOrigin l x.origin ((htaken p).plans.trans h.plans)).keep
      ⟨by simp [freeLine], by simp [freeLine], by simp [freeLine], by simp [freeLine], by simp [freeLine]⟩
  have hroster : (freeLine l (notifyOrigin l x.origin u₁)).roster = u.roster :=
    (State.setLine_roster ..).trans (htold.roster.trans (htaken 0).roster)
  have hplans : (freeLine l (notifyOrigin l x.origin u₁)).plans = s.plans :=
    (State.setLine_plans ..).trans (htold.plans.trans ((htaken 0).plans.trans h.plans))
  have hfreed : (freeLine l (notifyOrigin l x.origin u₁)).line l = { u₁.line l with state := .idle } := by
    unfold freeLine
    rw [State.line_setLine_self, htold.line]
  have hfreedPortal : ∀ p, (freeLine l (notifyOrigin l x.origin u₁)).portal p = (notifyOrigin l x.origin u₁).portal p := fun p => by
    simp [freeLine]
  have hfreedNotices : (freeLine l (notifyOrigin l x.origin u₁)).notices = u₁.notices := (State.setLine_notices ..).trans hmarks
  generalize freeLine l (notifyOrigin l x.origin u₁) = u₃ at hparts harrives hroster hplans hfreed hfreedPortal hfreedNotices
  have hsettled := onlySweeps_settleSweeps u₃
  have hmarksSettled : NoticesKept (fun c => ∃ p, c = sweepDoneClass p) u₃ (settleSweeps u₃) :=
    .of_onlySweeps hsettled fun p => .inr ⟨⟨p, rfl⟩, sweepPending_settleSweeps p u₃⟩
  have hw : rosterWf u₃.roster = true := by rw [hroster]; exact h.wf
  have hruns := fun p w (hrunning : (s.sweep p).running = some w) => (harrives p).settled_runs hw hplans hrunning
  have hasked := fun p => (harrives p).sweepAsked hw hplans fun w _ hpassed =>
    walkOver_of_movedWalk hfootprints (hsettled.plans.trans hplans) hpassed
  have hnotAsked := fun p => (harrives p).sweepNotAsked hw hplans
  rw [← hparts] at hsettled hmarksSettled hruns hasked hnotAsked
  have hline : t.line l = { u₁.line l with state := .idle } := (hsettled.line l).trans hfreed
  have tail : NoticesKept (fun c => c = strayClass l ∧ readRequest (asked ++ chars) ≠ none ∨ ∃ p, c = sweepDoneClass p) u t :=
    ((hrequest.mono fun c hc => .inl hc).trans (.of_notices hfreedNotices)).trans (hmarksSettled.mono fun c hc => .inr hc)
  refine ⟨t, ⟨hexec, ?_, State.eq_of_writes hwrites hothers.others, fun p => ?_, ?_, fun e he => ?_⟩, hsettled.roster.trans hroster,
    fun hq => ?_, hasked, hnotAsked, hruns⟩
  · rw [hline]
  · have hportal : t.portal p = { u.portal p with refreshTimer := (t.portal p).refreshTimer } := by
      have := hsettled.portal p
      rw [hfreedPortal, htold.portal, (htaken p).portal] at this
      exact this
    exact hportal.trans (by rw [h.portals p])
  · refine (h.notices.mono fun c hc => ?_).trans (tail.mono fun c hc => .inr hc)
    exact hc.imp_right .inr
  · obtain ⟨-, hclasses⟩ := tail
    obtain ⟨-, -, hevent, -⟩ := hclasses (lineEventClass l e)
    exact (hevent (isCondition_lineEventClass l e)).2 (h.pends e he)
  · rw [hline, hnone hq]

/-! ## A record's result committed (R118, R127) -/

/-- The state after a record's result, before a sweep is asked for. -/
def committed (l : Line) (n : Nat) (r : Record) (event : Option LineEvent) (s : State) : State :=
  match event with
  | none => s.setRecord n r
  | some e => handEvent (lineEventClass l e) (s.setRecord n r)

theorem commitApplied_eq (l : Line) (n : Nat) (r : Record) (event : Option LineEvent) (sweep : Bool) (s : State) :
    commitApplied l n { record := r, events := event.toList, sweep := sweep } s
      = if sweep then requestForSlot n (committed l n r event s) else committed l n r event s := by
  cases event <;> rfl

theorem committed_kept (l : Line) (n : Nat) (r : Record) (event : Option LineEvent) (s : State) (p : Fin 4) :
    SweepKept p s (committed l n r event s) ∧ (committed l n r event s).plans = s.plans
      ∧ (committed l n r event s).roster = (s.setRecord n r).roster := by
  cases event with
  | none => exact ⟨⟨by simp [committed], by simp [committed], by simp [committed]⟩, by simp [committed], rfl⟩
  | some e =>
    refine ⟨⟨by simp [committed, handEvent], by simp [committed, handEvent], ?_⟩, by simp [committed, handEvent], rfl⟩
    exact (State.noticeClass_setNoticeClass_of_ne _ _ _ _ (lineEventClass_ne_sweepDoneClass l e p).symm).trans (by simp)

theorem noticesKept_committed (l : Line) (n : Nat) (r : Record) (event : Option LineEvent) (s : State) :
    NoticesKept (fun c => ∃ e, event = some e ∧ c = lineEventClass l e) s (committed l n r event s) := by
  have written : (s.setRecord n r).notices = s.notices := by rw [setRecord_eq]
  cases event with
  | none => exact .of_notices written
  | some e => exact (NoticesKept.of_notices written).trans (noticesKept_handEvent ⟨e, rfl, rfl⟩ _)

theorem committed_pends {l : Line} {n : Nat} {r : Record} {event : Option LineEvent} {s : State} {e : LineEvent}
    (he : event = some e) : ((committed l n r event s).noticeClass (lineEventClass l e)).pending = true := by
  subst he
  show ((handEvent (lineEventClass l e) (s.setRecord n r)).noticeClass (lineEventClass l e)).pending = true
  unfold handEvent
  rw [State.noticeClass_setNoticeClass_self]

theorem ResultApplied.commit {s : State} (hlaw : RosterLaw s) (l : Line) (n : Nat) (r : Record) (event : Option LineEvent)
    (sweep : Bool) :
    ResultApplied l event (fun p => sweep = true ∧ inFootprint s p n = true ∧ (s.portal p).mode ≠ .halted) s
      (commitApplied l n { record := r, events := event.toList, sweep := sweep } s) := by
  obtain ⟨hw, -, -, hfootprints⟩ := hlaw
  have hkept := committed_kept l n r event s
  have hnotices := noticesKept_committed l n r event s
  have hpends := fun {e} he => committed_pends (l := l) (n := n) (r := r) (event := event) (s := s) (e := e) he
  have hwf : rosterWf (committed l n r event s).roster = true := by
    obtain ⟨-, -, hroster⟩ := hkept 0
    rw [hroster]
    exact rosterWf_setRecord hw n r
  rw [commitApplied_eq]
  generalize committed l n r event s = b at hkept hnotices hpends hwf ⊢
  have hportal : ∀ p, b.portal p = s.portal p := fun p => (hkept p).1.2.1
  have hplans : b.plans = s.plans := (hkept 0).2.1
  cases sweep with
  | false =>
    exact ⟨hwf, hplans, fun p => by rw [if_neg nofun, hportal], hnotices.mono fun c hc => .inl hc, fun e => hpends,
      fun p => .of_kept (hkept p).1 fun h => nomatch h.1⟩
  | true =>
    rw [if_pos rfl]
    have honly := onlySweeps_requestForSlot n b
    have hasked : ∀ p, Arrives p (inFootprint b p n = true ∧ (b.portal p).mode ≠ .halted) id b (requestForSlot n b) :=
      arrives_requestForSlot fun p hp => by
        rw [inFootprint_congr hplans] at hp
        exact (hfootprints.unique_of_plans hplans hp).2
    have hrequest : NoticesKept (fun c => ∃ p, c = sweepDoneClass p) b (requestForSlot n b) :=
      .of_onlySweeps honly fun p => .inr ⟨⟨p, rfl⟩, sweepPending_requestForSlot p n b⟩
    refine ⟨by rw [honly.roster]; exact hwf, honly.plans.trans hplans, fun p => ?_,
      (hnotices.mono fun c hc => .inl hc).trans (hrequest.mono fun c hc => .inr hc), fun e he => ?_, fun p => ?_⟩
    · rw [← hportal]
      exact honly.portal p
    · obtain ⟨-, hclasses⟩ := hrequest
      obtain ⟨-, -, hevent, -⟩ := hclasses (lineEventClass l e)
      exact (hevent (isCondition_lineEventClass l e)).2 (hpends he)
    · have harrives := (hasked p).of_before (hkept p).1
      rw [inFootprint_congr hplans, hportal] at harrives
      rwa [eq_self, true_and]

theorem applyResult_of_none {s : State} {l : Line} {x : Exchange} (h : s.lookup l x.address = none) (reply : Option DriverReply) :
    applyResult l x reply s = if x.frame = .identify then strayIdent l x.address reply s else s := by
  unfold applyResult
  rw [h]

theorem applyResult_of_forget {s : State} {l : Line} {x : Exchange} {n : Nat} (h : s.lookup l x.address = some n)
    (hf : x.frame = .forget) (reply : Option DriverReply) :
    applyResult l x reply s = if (s.record n).state = .retiring then commitApplied l n applyForgotten s else s := by
  unfold applyResult
  rw [h]
  exact if_pos hf

theorem applyResult_of_retiring {s : State} {l : Line} {x : Exchange} {n : Nat} (h : s.lookup l x.address = some n)
    (hf : x.frame ≠ .forget) (hr : (s.record n).state = .retiring) (reply : Option DriverReply) :
    applyResult l x reply s = s := by
  unfold applyResult
  rw [h]
  dsimp only
  rw [if_neg hf, if_pos hr]

theorem applyResult_of_standing {s : State} {l : Line} {x : Exchange} {n : Nat} (h : s.lookup l x.address = some n)
    (hf : x.frame ≠ .forget) (hr : (s.record n).state ≠ .retiring) (reply : Option DriverReply) :
    applyResult l x reply s =
      if reply.any returnsToService then
        offerService l x.address
          (commitApplied l n (applyReply (s.line l).missLimit (s.uidElsewhere n) x.frame reply (s.record n)) s)
      else commitApplied l n (applyReply (s.line l).missLimit (s.uidElsewhere n) x.frame reply (s.record n)) s := by
  unfold applyResult
  rw [h]
  dsimp only
  rw [if_neg hf, if_neg hr]

/-- What a completion leaves once its result has been committed to the record of a slot. -/
theorem Completed.completes {s : State} {l : Line} {x : Exchange} {asked chars : List Byte} {event : Option LineEvent} {n : Nat}
    {r : Record} {asks : Prop} {u t : State}
    (h : Completed s l x asked chars event (fun p => asks ∧ inFootprint s p n = true ∧ (s.portal p).mode ≠ .halted) u t)
    (hrecord : RecordWritten n r s u) : Completes s l asked chars n r event asks t :=
  ⟨h.frame, hrecord.of_roster h.roster, fun p => ⟨h.asked p, h.notAsked p⟩⟩

theorem ResultApplied.congr {l : Line} {event : Option LineEvent} {asked asked' : Fin 4 → Prop} {s u : State}
    (h : ResultApplied l event asked s u) (heq : ∀ p, asked p ↔ asked' p) : ResultApplied l event asked' s u := by
  rwa [show asked' = asked from funext fun p => propext (heq p).symm]

/-- The result of an exchange whose record stands. -/
theorem resultApplied_of_standing {s : State} (hlaw : RosterLaw s) {l : Line} {x : Exchange} {n : Nat}
    (hat : (s.record n).at l x.address = true) (hf : x.frame ≠ .forget) (hr : (s.record n).state ≠ .retiring)
    {reply : Option DriverReply} {r : Record} {event : Option LineEvent} {sweep : Bool}
    (happly : applyReply (s.line l).missLimit (s.uidElsewhere n) x.frame reply (s.record n)
      = { record := r, events := event.toList, sweep := sweep }) :
    ResultApplied l event (fun p => sweep = true ∧ inFootprint s p n = true ∧ (s.portal p).mode ≠ .halted) s
        (applyResult l x reply s)
      ∧ RecordWritten n r s (applyResult l x reply s)
      ∧ (applyResult l x reply s).line l = if reply.any returnsToService then
          { s.line l with service := offered (s.line l).service x.address } else s.line l := by
  have hn := State.lt_of_nonVacant hlaw.1 (Record.at_iff.1 hat).1
  have hcommit := ResultApplied.commit hlaw l n r event sweep
  have hroster := roster_commitApplied l n { record := r, events := event.toList, sweep := sweep } s
  have hwritten := (recordWritten_setRecord hlaw.1 hn r).of_roster hroster
  have hline := line_commitApplied l n { record := r, events := event.toList, sweep := sweep } s l
  rw [applyResult_of_standing (hlaw.lookup_eq_some.2 hat) hf hr, happly]
  split
  · unfold offerService
    refine ⟨hcommit.setLine _, hwritten.of_roster (State.setLine_roster ..), ?_⟩
    rw [State.line_setLine_self, hline]
  · exact ⟨hcommit, hwritten, hline⟩

/-- A completion that commits a record's result. -/
theorem completes_of_standing {s : State} {l : Line} {x : Exchange} {got asked : List Byte} {n : Nat}
    (hfound : FoundAt s l x got asked n) (hf : x.frame ≠ .forget) (hr : (s.record n).state ≠ .retiring) (chars : List Byte)
    {r : Record} {event : Option LineEvent} {sweep : Bool} {asks : Prop}
    (happly : applyReply (s.line l).missLimit (s.uidElsewhere n) x.frame (acceptReply x.frame x.address got) (s.record n)
      = { record := r, events := event.toList, sweep := sweep })
    (hasks : sweep = true ↔ asks) : ∃ t, Completes s l asked chars n r event asks t := by
  obtain ⟨hs, hlaw, hx, hat⟩ := hfound
  obtain ⟨-, -, -, hfootprints⟩ := id hlaw
  obtain ⟨happlied, hwritten, -⟩ := resultApplied_of_standing hlaw hat hf hr happly
  obtain ⟨t, h⟩ := (happlied.congr fun p => and_congr_left fun _ => hasks).completed hs hfootprints hx chars rfl
  exact ⟨t, h.completes hwritten⟩

end Sys2Proof.Machine
end

section
/-! SUPPORT. What each reply and each miss makes of a record, its event and its sweep request (R119 to R127). -/

namespace Sys2Proof.Machine

/-! ## Outcomes (R64, R97, R127) -/

section

variable {r x : Record}

theorem marked_of_same (hstate : x.state = r.state) (hfault : x.fault = r.fault) (huid : x.uid = r.uid) : marked r x = x :=
  if_pos ⟨hstate.symm, hfault.symm, huid.symm⟩

theorem marked_of_changed (h : x.state ≠ r.state ∨ x.fault ≠ r.fault ∨ x.uid ≠ r.uid) :
    marked r x = { x with changed := true } := by
  refine if_neg fun ⟨hstate, hfault, huid⟩ => ?_
  obtain h | h | h := h
  · exact h hstate.symm
  · exact h hfault.symm
  · exact h huid.symm

/-- A record whose shown fields stay asks for no sweep. -/
theorem outcome_of_same (hstate : x.state = r.state) (hfault : x.fault = r.fault) (huid : x.uid = r.uid)
    (hcapability : x.capability = r.capability) (hlmin : x.lmin = r.lmin) :
    outcome r x [] = { record := x, events := [], sweep := false } := by
  have hasks : asksSweep r x (([] : List LineEvent).contains .replaced) = false := by
    simp [asksSweep, stateAsks, reasonAsks, identAsks, hstate, hfault, hcapability, hlmin]
  rw [outcome, marked_of_same hstate hfault huid, hasks]

/-- A record whose state changes into or out of DARK, SILENT or RETIRING asks for a sweep. -/
theorem outcome_of_state (hstate : x.state ≠ r.state) (hdark : r.state.countsDark = true ∨ x.state.countsDark = true)
    (events : List LineEvent) : outcome r x events = { record := { x with changed := true }, events := events, sweep := true } := by
  have hasks : asksSweep r x (events.contains .replaced) = true := by
    have hstateAsks : stateAsks r.state x.state = true := by
      unfold stateAsks
      obtain h | h := hdark
      · simp [h, Ne.symm hstate]
      · simp [h, Ne.symm hstate]
    rw [asksSweep, hstateAsks]
    rfl
  rw [outcome, marked_of_changed (.inl hstate), hasks]

end

/-! ## Misses (R119) -/

section

variable {limit : Nat} {r : Record}

theorem applyMiss_of_falls (h : r.misses + 1 = limit) (hstate : r.state = .active ∨ r.state = .probation ∨ r.state = .dark) :
    applyMiss limit r
      = { record := { r with misses := limit, state := .silent, changed := true }, events := [.silent], sweep := true } := by
  unfold applyMiss
  rw [if_pos (by omega), if_pos ⟨h, hstate⟩]
  refine outcome_of_state (x := { r with misses := limit, state := .silent }) ?_ (.inr rfl) _
  obtain h | h | h := hstate <;> rw [h] <;> nofun

theorem applyMiss_of_stays (hle : r.misses ≤ limit)
    (h : ¬ (r.misses + 1 = limit ∧ (r.state = .active ∨ r.state = .probation ∨ r.state = .dark))) :
    applyMiss limit r = { record := { r with misses := min limit (r.misses + 1) }, events := [], sweep := false } := by
  unfold applyMiss
  by_cases hlt : r.misses < limit
  · rw [if_pos hlt, if_neg h, Nat.min_eq_right hlt]
    exact outcome_of_same rfl rfl rfl rfl rfl
  · obtain rfl : r.misses = limit := by omega
    rw [if_neg hlt, Nat.min_eq_left (Nat.le_succ _)]
    exact outcome_of_same rfl rfl rfl rfl rfl

/-! ## Acknowledgements and recoveries (R120, R125) -/

/-- R120: what returns a record to service when its driver answers. -/
def Record.Leaves (r : Record) : Prop :=
  r.state = .silent ∨ r.state = .dark ∧ (r.fault = some .thermal ∨ r.fault = some .supply)

theorem recovered_of_leaves (h : r.Leaves) :
    recovered r = { r with misses := 0, state := if r.confirmed then .active else .probation, fault := none } := by
  unfold recovered
  obtain h | ⟨h, hf | hf⟩ := h
  · rw [h]
    rfl
  · rw [h, hf]
    rfl
  · rw [h, hf]
    rfl

theorem recovered_of_not_leaves (h : ¬ r.Leaves) : recovered r = { r with misses := 0 } := by
  unfold recovered
  split
  next hs => exact absurd (.inl hs) h
  next hs =>
    split
    next hf => exact absurd (.inr ⟨hs, .inl hf⟩) h
    next hf => exact absurd (.inr ⟨hs, .inr hf⟩) h
    all_goals rfl
  all_goals rfl

theorem Record.Leaves.countsDark (h : r.Leaves) : r.state.countsDark = true := by
  obtain h | ⟨h, -⟩ := h <;> rw [h] <;> rfl

theorem Record.Leaves.state_ne (h : r.Leaves) : (if r.confirmed then RecordState.active else .probation) ≠ r.state := by
  have hdark := h.countsDark
  intro he
  rw [← he] at hdark
  cases hc : r.confirmed <;> simp [hc, RecordState.countsDark] at hdark

/-- The record of a driver that has answered from DARK or SILENT, with the level that its ACK acknowledges. -/
theorem outcome_of_leaves (h : r.Leaves) (acked : Option Nat) :
    outcome r { recovered r with lastAcked := acked } []
      = { record := { r with
            misses := 0, fault := none, state := if r.confirmed then .active else .probation, changed := true
            lastAcked := acked }
          events := [], sweep := true } := by
  rw [recovered_of_leaves h]
  exact outcome_of_state (x := { r with
    misses := 0, state := if r.confirmed then .active else .probation, fault := none, lastAcked := acked })
    h.state_ne (.inl h.countsDark) _

theorem outcome_of_not_leaves (h : ¬ r.Leaves) (acked : Option Nat) :
    outcome r { recovered r with lastAcked := acked } []
      = { record := { r with misses := 0, lastAcked := acked }, events := [], sweep := false } := by
  rw [recovered_of_not_leaves h]
  exact outcome_of_same rfl rfl rfl rfl rfl

theorem lastAcked_recovered (r : Record) : { recovered r with lastAcked := r.lastAcked } = recovered r := by
  obtain h | h := recovered_cases r <;> rw [h]

theorem applyRecovered_of_leaves (h : r.Leaves) : applyRecovered r
    = { record := { r with
          misses := 0, fault := none, state := if r.confirmed then .active else .probation, changed := true }
        events := [], sweep := true } := by
  have := outcome_of_leaves h r.lastAcked
  rwa [lastAcked_recovered] at this

theorem applyRecovered_of_not_leaves (h : ¬ r.Leaves) :
    applyRecovered r = { record := { r with misses := 0 }, events := [], sweep := false } := by
  have := outcome_of_not_leaves h r.lastAcked
  rwa [lastAcked_recovered] at this

/-! ## Faults (R121) -/

theorem applyFault_of_new (k : FaultReason) (h : r.state ≠ .dark) : applyFault k r
    = { record := { r with misses := 0, state := .dark, fault := some k, changed := true }, events := [.fault], sweep := true } := by
  unfold applyFault
  rw [if_neg fun hdark => h hdark.1]
  exact outcome_of_state (x := { r with misses := 0, state := .dark, fault := some k }) (Ne.symm h) (.inr rfl) _

theorem applyFault_of_other {k : FaultReason} (h : r.state = .dark) (hk : r.fault ≠ some k) : applyFault k r
    = { record := { r with misses := 0, fault := some k, changed := true }, events := [.fault]
        sweep := r.fault.map FaultReason.lasting != some k.lasting } := by
  unfold applyFault
  rw [if_neg fun hdark => hk hdark.2, outcome, marked_of_changed (.inr (.inl (Ne.symm hk)))]
  simp [asksSweep, stateAsks, reasonAsks, identAsks, h]

theorem applyFault_of_same {k : FaultReason} (h : r.state = .dark) (hk : r.fault = some k) : applyFault k r
    = { record := { r with misses := 0 }, events := [], sweep := false } := by
  have hsame : ({ r with misses := 0, state := .dark, fault := some k } : Record) = { r with misses := 0 } := by rw [← h, ← hk]
  unfold applyFault
  rw [if_pos ⟨h, hk⟩, hsame]
  exact outcome_of_same rfl rfl rfl rfl rfl

/-! ## NOTHING (R125) -/

theorem applyNothing_of_silent (h : r.state = .silent) (hconfirmed : r.confirmed = false) : applyNothing r
    = { record := { r with misses := 0, state := .probation, changed := true }, events := [], sweep := true } := by
  unfold applyNothing
  rw [if_pos ⟨h, by rw [hconfirmed]; rfl⟩]
  exact outcome_of_state (x := { r with misses := 0, state := .probation }) (by rw [h]; nofun) (.inl (by rw [h]; rfl)) _

theorem applyNothing_of_other (h : ¬ (r.state = .silent ∧ r.confirmed = false)) : applyNothing r
    = { record := { r with misses := 0 }, events := [], sweep := false } := by
  unfold applyNothing
  rw [if_neg fun ⟨hs, hc⟩ => h ⟨hs, by simpa using hc⟩]
  exact outcome_of_same rfl rfl rfl rfl rfl

end

/-- Settles O50: each reply's outcome, committed by the completion. -/
theorem missesAcknowledgementsAndNewsReachTheRecord : Obligations.MissesAcknowledgementsAndNewsReachTheRecord := by
  intro s l x got asked chars n hfound hmiss hr hf r limit reply leaves lasting becomes relit
  have ⟨_, hlaw, _, hat⟩ := hfound
  obtain ⟨hnonVacant, hplace⟩ := Record.at_iff.1 hat
  obtain ⟨hle, -⟩ := hmiss n _ hplace
  have hv : r.state ≠ .vacant := Record.nonVacant_iff.1 hnonVacant
  have falls : r.state ≠ .silent ↔ r.state = .active ∨ r.state = .probation ∨ r.state = .dark := by
    have hv' := hv
    have hr' : r.state ≠ .retiring := hr
    cases hstate : r.state <;> simp_all
  have commits : ∀ (a : Applied) (event : Option LineEvent) (asks : Prop),
      applyReply limit (s.uidElsewhere n) x.frame reply r = a → a.events = event.toList → (a.sweep = true ↔ asks) →
      becomes a.record event asks := by
    rintro ⟨r', events, sweep⟩ event asks happly rfl hasks
    exact completes_of_standing hfound hf hr chars happly hasks
  have hmissed : reply = none → applyReply limit (s.uidElsewhere n) x.frame reply r = applyMiss limit r := fun h => by
    rw [h]
    rfl
  have hrecovered : ∀ {more}, reply = some (.news more .recovered) →
      applyReply limit (s.uidElsewhere n) x.frame reply r = applyRecovered r := fun h => by
    rw [h]
    rfl
  have hnothing : reply = some .nothing → applyReply limit (s.uidElsewhere n) x.frame reply r = applyNothing r := fun h => by
    rw [h]
    rfl
  have hack : ∀ {v}, x.frame = .level v → reply = some .ack ∨ reply = some .ackMore →
      applyReply limit (s.uidElsewhere n) x.frame reply r = applyAck v r := fun hv hreply => by
    rw [hv]
    obtain h | h := hreply <;> rw [h] <;> rfl
  have hfault : ∀ {k}, reply = some (.fault k) ∨ (∃ more, reply = some (.news more (.fault k))) →
      applyReply limit (s.uidElsewhere n) x.frame reply r = applyFault k r := fun hreply => by
    obtain h | ⟨more, h⟩ := hreply <;> rw [h] <;> rfl
  refine ⟨fun hnone => ⟨fun h hs => ?_, fun h => ?_⟩, fun v hv hreply => ⟨fun h => ?_, fun h => ?_⟩,
    fun more hreply => ⟨fun h => ?_, fun h => ?_⟩, fun k hreply => ⟨fun h => ?_, fun h hk => ?_, fun h hk => ?_⟩,
    fun hreply => ⟨fun h hc => ?_, fun h => ?_⟩⟩
  · exact commits _ (some .silent) True ((hmissed hnone).trans (applyMiss_of_falls h (falls.1 hs))) rfl
      (iff_of_true rfl trivial)
  · exact commits _ none False ((hmissed hnone).trans (applyMiss_of_stays hle fun ⟨hm, hs⟩ => h ⟨hm, falls.2 hs⟩)) rfl
      (iff_of_false nofun id)
  · exact commits _ none True ((hack hv hreply).trans (outcome_of_leaves h _)) rfl (iff_of_true rfl trivial)
  · exact commits _ none False ((hack hv hreply).trans (outcome_of_not_leaves h _)) rfl (iff_of_false nofun id)
  · exact commits _ none True ((hrecovered hreply).trans (applyRecovered_of_leaves h)) rfl (iff_of_true rfl trivial)
  · exact commits _ none False ((hrecovered hreply).trans (applyRecovered_of_not_leaves h)) rfl (iff_of_false nofun id)
  · exact commits _ (some .fault) True ((hfault hreply).trans (applyFault_of_new k h)) rfl (iff_of_true rfl trivial)
  · refine commits _ (some .fault) _ ((hfault hreply).trans (applyFault_of_other h hk)) rfl ?_
    have hsome : r.fault ≠ none := by
      obtain ⟨-, hrecords, -⟩ := hlaw
      obtain ⟨-, -, -, hdark⟩ := hrecords n
      exact hdark h
    obtain ⟨j, hj⟩ := Option.ne_none_iff_exists'.1 hsome
    have hlasting : ∀ i : FaultReason, i.lasting = true ↔ lasting i := by
      intro i
      cases i <;> simp [lasting, FaultReason.lasting]
    rw [hj, Option.map_some, bne_iff_ne, Ne, Option.some.injEq, Bool.eq_iff_iff, hlasting, hlasting]
    exact ⟨fun hne => ⟨j, rfl, hne⟩, fun ⟨i, hi, hne⟩ => Option.some.inj hi ▸ hne⟩
  · exact commits _ none False ((hfault hreply).trans (applyFault_of_same h hk)) rfl (iff_of_false nofun id)
  · exact commits _ none True ((hnothing hreply).trans (applyNothing_of_silent h hc)) rfl (iff_of_true rfl trivial)
  · exact commits _ none False ((hnothing hreply).trans (applyNothing_of_other h)) rfl (iff_of_false nofun id)

end Sys2Proof.Machine
end

section
/-! SUPPORT. IDENT replies (R122 to R124), FORGET, discarded completions, and the line that a completion frees (R118, R126,
R142). -/

namespace Sys2Proof.Machine

/-! ## IDENT replies (R122 to R124) -/

section

variable {limit uid lmin : Nat} {can : Bool} {r : Record}

theorem applyConflict_of_falls (h : r.state ≠ .silent) : applyConflict limit r
    = { record := { r with misses := limit, state := .silent, changed := true }, events := [.silent], sweep := true } := by
  unfold applyConflict
  rw [if_neg h]
  exact outcome_of_state (x := { r with misses := limit, state := .silent }) (Ne.symm h) (.inr rfl) _

theorem applyConflict_of_silent (h : r.state = .silent) : applyConflict limit r
    = { record := { r with misses := limit }, events := [], sweep := false } := by
  have hsame : ({ r with misses := limit, state := .silent } : Record) = { r with misses := limit } := by rw [← h]
  unfold applyConflict
  rw [if_pos h, hsame]
  exact outcome_of_same rfl rfl rfl rfl rfl

/-- R122, R123: what an IDENT reply writes in any case. -/
def Record.told (r : Record) (can : Bool) (lmin : Nat) : Record :=
  { r with misses := 0, capability := some can, lmin := min lmin 3000, confirmed := true }

theorem applyIdentity_of_replaced (h0 : r.uid ≠ 0) (h : r.uid ≠ uid) : applyIdentity uid can lmin r
    = { record := { r.told can lmin with uid := uid, m := 1000, fault := none, state := .active, changed := true }
        events := [.replaced], sweep := true } := by
  unfold applyIdentity
  dsimp only
  rw [if_neg (not_or.2 ⟨h0, h⟩), outcome, marked_of_changed (.inr (.inr (Ne.symm h)))]
  have hasks : ∀ x, asksSweep r x ([LineEvent.replaced].contains .replaced) = true := fun x => Bool.or_true _
  rw [hasks]
  rfl

/-- R122: a record that an IDENT reply has confirmed. -/
def Record.known (r : Record) (uid : Nat) (can : Bool) (lmin : Nat) : Record :=
  { r.told can lmin with
    uid := uid
    state := if r.state = .probation ∨ r.state = .silent then .active else r.state
    fault := if r.state = .silent then none else r.fault }

theorem identified_told (hv : r.state ≠ .vacant) (hr : r.state ≠ .retiring) :
    { identified (r.told can lmin) with uid := uid } = r.known uid can lmin := by
  obtain ⟨state⟩ := r
  cases state
  case vacant => exact absurd rfl hv
  case retiring => exact absurd rfl hr
  all_goals rfl

theorem marked_known : marked r (r.known uid can lmin) = { r.known uid can lmin with
    changed := r.changed || decide (r.uid ≠ uid ∨ r.state = .probation ∨ r.state = .silent) } := by
  by_cases h : r.uid ≠ uid ∨ r.state = .probation ∨ r.state = .silent
  · rw [decide_eq_true h, Bool.or_true]
    refine marked_of_changed ?_
    obtain h | h | h := h
    · exact .inr (.inr (Ne.symm h))
    · exact .inl (by simp [Record.known, h])
    · exact .inl (by simp [Record.known, h])
  · rw [decide_eq_false h, Bool.or_false]
    obtain ⟨huid, hprobation, hsilent⟩ := by simpa only [not_or, not_not] using h
    exact marked_of_same (by simp [Record.known, hprobation, hsilent]) (by simp [Record.known, hsilent])
      (by simp [Record.known, huid])

theorem asksSweep_known : asksSweep r (r.known uid can lmin) false
    = decide (r.capability ≠ some can ∨ r.lmin ≠ min lmin 3000 ∨ r.state = .probation ∨ r.state = .silent) := by
  by_cases h : r.state = .probation ∨ r.state = .silent
  · rw [decide_eq_true (.inr (.inr h))]
    obtain h | h := h <;> simp [asksSweep, stateAsks, Record.known, RecordState.countsDark, h]
  · obtain ⟨hprobation, hsilent⟩ := not_or.1 h
    rw [Bool.eq_iff_iff]
    simp [asksSweep, stateAsks, reasonAsks, identAsks, Record.known, Record.told, hprobation, hsilent]

theorem applyIdentity_of_known (h : r.uid = 0 ∨ r.uid = uid) (hv : r.state ≠ .vacant) (hr : r.state ≠ .retiring) :
    applyIdentity uid can lmin r
      = { record := { r.known uid can lmin with
            changed := r.changed || decide (r.uid ≠ uid ∨ r.state = .probation ∨ r.state = .silent) }
          events := []
          sweep := decide (r.capability ≠ some can ∨ r.lmin ≠ min lmin 3000 ∨ r.state = .probation ∨ r.state = .silent) } := by
  unfold applyIdentity
  refine (if_pos h).trans ?_
  rw [← marked_known, ← asksSweep_known, ← identified_told hv hr]
  rfl

end

/-- Settles O51: the three outcomes of an IDENT reply, committed by the completion. -/
theorem identRepliesConfirmReplaceOrConflict : Obligations.IdentRepliesConfirmReplaceOrConflict := by
  intro s l x got asked chars n uid lmin can hfound hr hf hreply r taken told becomes
  have ⟨_, hlaw, _, hat⟩ := hfound
  obtain ⟨hnonVacant, -⟩ := Record.at_iff.1 hat
  have hv : r.state ≠ .vacant := Record.nonVacant_iff.1 hnonVacant
  have hforget : x.frame ≠ .forget := by rw [hf]; nofun
  have htaken : s.uidElsewhere n uid = true ↔ taken := State.uidElsewhere_iff hlaw.1
  have hident : applyReply (s.line l).missLimit (s.uidElsewhere n) x.frame (acceptReply x.frame x.address got) r
      = applyIdent (s.line l).missLimit (s.uidElsewhere n uid) uid can lmin r := by
    rw [hf, hreply]
    rfl
  have commits : ∀ (a : Applied) (event : Option LineEvent) (asks : Prop),
      applyIdent (s.line l).missLimit (s.uidElsewhere n uid) uid can lmin r = a → a.events = event.toList →
      (a.sweep = true ↔ asks) → becomes a.record event asks := by
    rintro ⟨r', events, sweep⟩ event asks happly rfl hasks
    exact completes_of_standing hfound hforget hr chars (hident.trans happly) hasks
  have hconflict : r.uid ≠ uid → taken → applyIdent (s.line l).missLimit (s.uidElsewhere n uid) uid can lmin r
      = applyConflict (s.line l).missLimit r := fun h ht => if_pos ⟨h, htaken.2 ht⟩
  have hidentity : r.uid = uid ∨ ¬ taken → applyIdent (s.line l).missLimit (s.uidElsewhere n uid) uid can lmin r
      = applyIdentity uid can lmin r := fun h => if_neg fun ⟨hne, ht⟩ => h.elim hne (· (htaken.1 ht))
  refine ⟨fun h ht => ⟨fun hs => ?_, fun hs => ?_⟩, fun h => ?_, fun h0 h ht => ?_⟩
  · exact commits _ (some .silent) True ((hconflict h ht).trans (applyConflict_of_falls hs)) rfl (iff_of_true rfl trivial)
  · exact commits _ none False ((hconflict h ht).trans (applyConflict_of_silent hs)) rfl (iff_of_false nofun id)
  · have hknown : r.uid = 0 ∨ r.uid = uid := h.elim .inr fun h => .inl h.1
    exact commits _ none _ ((hidentity (h.imp_right And.right)).trans (applyIdentity_of_known hknown hv hr)) rfl
      decide_eq_true_iff
  · exact commits _ (some .replaced) True ((hidentity (.inr ht)).trans (applyIdentity_of_replaced h0 h)) rfl
      (iff_of_true rfl trivial)

end Sys2Proof.Machine
end

section
/-! SUPPORT. FORGET, discarded completions and completions for no record (R118, R126, R142), and the line and the walk that a
completion leaves (R103, R106, R118). -/

namespace Sys2Proof.Machine

/-! ## Results that change no record -/

section

variable {s : State} {l : Line} {x : Exchange} {got asked : List Byte}

theorem resultApplied_of_forgotten (hlaw : RosterLaw s) {n : Nat} (hat : (s.record n).at l x.address = true)
    (hf : x.frame = .forget) (hr : (s.record n).state = .retiring) (reply : Option DriverReply) :
    ResultApplied l none (fun p => True ∧ inFootprint s p n = true ∧ (s.portal p).mode ≠ .halted) s (applyResult l x reply s)
      ∧ RecordWritten n (.vacant true) s (applyResult l x reply s) ∧ (applyResult l x reply s).line l = s.line l := by
  have hn := State.lt_of_nonVacant hlaw.1 (Record.at_iff.1 hat).1
  have hcommit := ResultApplied.commit hlaw l n (.vacant true) none true
  rw [applyResult_of_forget (hlaw.lookup_eq_some.2 hat) hf, if_pos hr]
  refine ⟨hcommit.congr fun p => and_congr_left fun _ => iff_of_true rfl trivial,
    (recordWritten_setRecord hlaw.1 hn _).of_roster (roster_commitApplied l n applyForgotten s), ?_⟩
  exact line_commitApplied l n applyForgotten s l

theorem applyResult_of_discarded (hlaw : RosterLaw s) {n : Nat} (hat : (s.record n).at l x.address = true)
    (h : x.frame = .forget ∨ (s.record n).state = .retiring) (hnot : x.frame = .forget → (s.record n).state ≠ .retiring)
    (reply : Option DriverReply) : applyResult l x reply s = s := by
  have hlookup := hlaw.lookup_eq_some.2 hat
  by_cases hf : x.frame = .forget
  · rw [applyResult_of_forget hlookup hf, if_neg (hnot hf)]
  · exact applyResult_of_retiring hlookup hf (h.resolve_left hf) reply

/-- The line controller with its stray entry filled. -/
def strayTold (x : Exchange) (reply : Option DriverReply) (c : LineCtl) : LineCtl :=
  match x.frame, reply with
  | .identify, some (.ident uid can lmin) =>
    { c with strays := c.strays.map fun e => if e.address = x.address then filledStray uid can lmin e else e }
  | _, _ => c

theorem strayTold_of_ident {reply : Option DriverReply} {uid lmin : Nat} {can : Bool} (hf : x.frame = .identify)
    (hr : reply = some (.ident uid can lmin)) (c : LineCtl) : strayTold x reply c
      = { c with strays := c.strays.map fun e => if e.address = x.address then filledStray uid can lmin e else e } := by
  unfold strayTold
  rw [hf, hr]

theorem strayTold_of_other {reply : Option DriverReply}
    (h : ∀ uid can lmin, x.frame = .identify → reply ≠ some (.ident uid can lmin)) (c : LineCtl) : strayTold x reply c = c := by
  unfold strayTold
  split
  next uid can lmin hf => exact absurd rfl (h uid can lmin hf)
  · rfl

theorem applyResult_of_free (hlaw : RosterLaw s) (hfree : ∀ n, (s.record n).at l x.address = false) (reply : Option DriverReply) :
    ResultApplied l none (fun _ => False) s (applyResult l x reply s)
      ∧ (applyResult l x reply s).roster = s.roster
      ∧ (applyResult l x reply s).line l = strayTold x reply (s.line l) := by
  have unchanged := ResultApplied.unchanged hlaw.1 l
  rw [applyResult_of_none ((State.lookup_eq_none hlaw.1).2 hfree)]
  by_cases hf : x.frame = .identify
  · rw [if_pos hf]
    unfold strayIdent
    split
    next uid can lmin =>
      rw [strayTold_of_ident hf rfl]
      exact ⟨unchanged.setLine _, State.setLine_roster .., State.line_setLine_self ..⟩
    next hother =>
      rw [strayTold_of_other fun uid can lmin _ => hother uid can lmin]
      exact ⟨unchanged, rfl, rfl⟩
  · rw [if_neg hf, strayTold_of_other fun _ _ _ h => absurd h hf]
    exact ⟨unchanged, rfl, rfl⟩

end

/-! ## The walk that a completion leaves (R100, R103, R106) -/

/-- The walk of the portal whose exchange has completed. -/
theorem settledWalk_follows {s t : State} {p : Fin 4} {l : Line} {o : Origin} (ho : o = .cursor p) (w : Walk) :
    (settledWalk t p (movedWalk s p l o w)).cls = w.cls
      ∧ CursorCompletes s t p l (w.cursor l) ((settledWalk t p (movedWalk s p l o w)).cursor l)
      ∧ ∀ k, k ≠ l → CursorFollows t p k (w.cursor k) ((settledWalk t p (movedWalk s p l o w)).cursor k) := by
  refine ⟨movedWalk_cls s p l o w, ?_, fun k hk => ?_⟩
  · rw [settledWalk_cursor, movedWalk_cursor, if_pos ⟨ho, rfl⟩]
    exact cursorCompletes_settledCursor ..
  · rw [settledWalk_cursor, movedWalk_cursor, if_neg fun h => hk h.2]
    exact cursorFollows_settledCursor ..

/-- Settles O52: what vacates, what is discarded, and what at most fills a stray entry. -/
theorem forgetVacatesAndOtherCompletionsAreDiscarded : Obligations.ForgetVacatesAndOtherCompletionsAreDiscarded := by
  intro s l x got asked chars hs hlaw hx
  have ⟨_, _, _, hfootprints⟩ := hlaw
  refine ⟨fun n hat => ⟨fun hf hr => ?_, fun h hnot => ?_⟩, fun hfree => ?_⟩
  · obtain ⟨happlied, hwritten, -⟩ := resultApplied_of_forgotten hlaw hat hf hr (acceptReply x.frame x.address got)
    obtain ⟨t, ht⟩ := happlied.completed hs hfootprints hx chars rfl
    exact ⟨t, ht.completes hwritten⟩
  · have hsame := applyResult_of_discarded hlaw hat h hnot (acceptReply x.frame x.address got)
    have happlied := (ResultApplied.unchanged hlaw.1 l).congr (asked' := fun p => False ∧ inFootprint s p n = true
      ∧ (s.portal p).mode ≠ .halted) fun p => by rw [false_and]
    obtain ⟨t, ht⟩ := happlied.completed hs hfootprints hx chars hsame
    exact ⟨t, ht.completes ⟨rfl, fun _ _ => rfl⟩⟩
  · obtain ⟨happlied, hroster, hline⟩ := applyResult_of_free hlaw hfree (acceptReply x.frame x.address got)
    obtain ⟨t, hframe, hsameRoster, hfreed, -, hnotAsked, hran⟩ := happlied.completed hs hfootprints hx chars rfl
    refine ⟨t, hframe, hsameRoster.trans hroster, fun p => hnotAsked p id, fun hnone => ?_, fun p w ho hw => ?_⟩
    · rw [hfreed hnone, hline]
      generalize acceptReply x.frame x.address got = reply
      by_cases hident : ∃ uid can lmin, x.frame = .identify ∧ reply = some (.ident uid can lmin)
      · obtain ⟨uid, can, lmin, hf, rfl⟩ := hident
        rw [strayTold_of_ident hf rfl, hf]
        rfl
      · push Not at hident
        rw [strayTold_of_other hident]
        split
        next uid can lmin hf => exact absurd rfl (hident uid can lmin hf)
        · rfl
    · obtain ⟨o, howed, hran⟩ := hran p w hw
      obtain rfl : o = (s.sweep p).owed := Bool.eq_iff_iff.2 (by rw [howed, or_false])
      obtain ⟨hcls, hcursor, hothers⟩ := settledWalk_follows (s := s) (t := t) (l := l) ho w
      refine ⟨_, hcls, hcursor, hothers, hran.on, fun hpassed => ⟨hran.done hpassed,
        fun hends => (hran.ended hpassed hends).1, fun hmode ho => ?_⟩⟩
      exact (hran.again hpassed hmode ho).of_eq rfl (hsameRoster.trans hroster).symm rfl

/-! ## The end of a completion without a request -/

/-- What asks for no sweep: the shown fields stay. -/
def Record.Still (old new : Record) : Prop :=
  new.state = old.state ∧ new.fault = old.fault ∧ new.uid = old.uid ∧ new.lmin = old.lmin ∧ new.capability = old.capability

theorem marked_still {r x : Record} : r.Still (marked r x) ↔ r.Still x := by
  unfold marked
  split <;> exact Iff.rfl

theorem outcome_of_still {r x : Record} (event : Option LineEvent) (hreplaced : event = some .replaced → x.uid ≠ r.uid)
    (h : r.Still x) : (outcome r x event.toList).sweep = false := by
  obtain ⟨hstate, hfault, huid, hlmin, hcapability⟩ := h
  have hnot : event.toList.contains .replaced = false := by
    rw [Bool.eq_false_iff]
    intro hmem
    cases event with
    | none => nomatch hmem
    | some e => exact hreplaced (by simpa [eq_comm] using hmem) huid
  show asksSweep r x (event.toList.contains .replaced) = false
  rw [hnot]
  simp [asksSweep, stateAsks, reasonAsks, identAsks, hstate, hfault, hcapability, hlmin]

/-- Every reply and every miss is an outcome with one event at most. -/
theorem applyReply_outcome (limit : Nat) (taken : Nat → Bool) (f : LineFrame) (reply : Option DriverReply) (r : Record) :
    ∃ (x : Record) (event : Option LineEvent), applyReply limit taken f reply r = outcome r x event.toList
      ∧ (event = some .replaced → x.uid ≠ r.uid) := by
  have quiet : ∀ x, ∃ (y : Record) (event : Option LineEvent), outcome r x [] = outcome r y event.toList
      ∧ (event = some .replaced → y.uid ≠ r.uid) := fun x => ⟨x, none, rfl, nofun⟩
  have told : ∀ x e, e ≠ LineEvent.replaced → ∃ (y : Record) (event : Option LineEvent),
      outcome r x [e] = outcome r y event.toList ∧ (event = some .replaced → y.uid ≠ r.uid) := fun x e he =>
    ⟨x, some e, rfl, fun h => absurd (Option.some.inj h) he⟩
  have fault : ∀ k, ∃ (y : Record) (event : Option LineEvent), applyFault k r = outcome r y event.toList
      ∧ (event = some .replaced → y.uid ≠ r.uid) := fun k => by
    unfold applyFault
    split
    · exact quiet _
    · exact told _ _ nofun
  unfold applyReply
  split
  case h_1 =>
    unfold applyMiss
    split
    · split
      · exact told _ _ nofun
      · exact quiet _
    · exact quiet _
  case h_2 | h_3 => exact quiet _
  case h_4 | h_5 => exact quiet _
  case h_6 k | h_8 k => exact fault k
  case h_7 uid can lmin =>
    unfold applyIdent
    split
    · unfold applyConflict
      split
      · exact quiet _
      · exact told _ _ nofun
    · unfold applyIdentity
      dsimp only
      split
      · exact quiet _
      next h => exact ⟨_, some .replaced, rfl, fun _ he => h (.inr he.symm)⟩
  case h_9 => exact quiet _
  case h_10 => exact quiet _

theorem applyReply_of_still {limit : Nat} {taken : Nat → Bool} {f : LineFrame} {reply : Option DriverReply} {r : Record}
    (h : r.Still (applyReply limit taken f reply r).record) : (applyReply limit taken f reply r).sweep = false := by
  obtain ⟨y, event, hy, hreplaced⟩ := applyReply_outcome limit taken f reply r
  rw [hy] at h ⊢
  exact outcome_of_still event hreplaced (marked_still.1 h)

/-- R120, R139: a reply that returns its address to the service set. -/
theorem any_returnsToService {reply : Option DriverReply} :
    reply.any returnsToService = true ↔ reply = some .ackMore ∨ ∃ news, reply = some (.news true news) := by
  cases reply with
  | none => simp
  | some r => cases r <;> simp [returnsToService]

theorem any_returnsToService_of_forget (a : Nat) (got : List Byte) :
    ¬ (acceptReply .forget a got).any returnsToService = true := by
  cases hr : acceptReply .forget a got with
  | none => nofun
  | some r =>
    obtain ⟨_, _, _, -, -, hread⟩ := acceptReply_eq_some.1 hr
    obtain ⟨rfl, -⟩ := readReply_forget.1 hread
    nofun

/-- Any completion of an exchange whose record is found. -/
theorem completed_of_found {s : State} {l : Line} {x : Exchange} {got asked : List Byte} {n : Nat}
    (hfound : FoundAt s l x got asked n) (chars : List Byte) :
    ∃ event asks u t, Completed s l x asked chars event asks u t
      ∧ (∀ p, asks p → ¬ (s.record n).Still (t.record n))
      ∧ u.line l = if (acceptReply x.frame x.address got).any returnsToService = true ∧ (s.record n).state ≠ .retiring then
          { s.line l with service := offered (s.line l).service x.address } else s.line l := by
  obtain ⟨hs, hlaw, hx, hat⟩ := hfound
  have ⟨_, _, _, hfootprints⟩ := hlaw
  by_cases hforget : x.frame = .forget ∧ (s.record n).state = .retiring
  · obtain ⟨hf, hr⟩ := hforget
    obtain ⟨happlied, hwritten, hline⟩ := resultApplied_of_forgotten hlaw hat hf hr (acceptReply x.frame x.address got)
    obtain ⟨t, ht⟩ := happlied.completed hs hfootprints hx chars rfl
    refine ⟨_, _, _, t, ht, fun p _ hstill => ?_, by rw [hline, if_neg fun h => h.2 hr]⟩
    obtain ⟨hrecord, -⟩ := hwritten.of_roster ht.roster
    obtain ⟨hstate, -⟩ := hstill
    rw [hrecord, hr] at hstate
    nomatch hstate
  by_cases hdiscarded : x.frame = .forget ∨ (s.record n).state = .retiring
  · have hsame := applyResult_of_discarded hlaw hat hdiscarded (fun hf hr => hforget ⟨hf, hr⟩) (acceptReply x.frame x.address got)
    obtain ⟨t, ht⟩ := (ResultApplied.unchanged hlaw.1 l).completed hs hfootprints hx chars hsame
    refine ⟨_, _, _, t, ht, fun p h => h.elim, ?_⟩
    rw [if_neg]
    rintro ⟨hmore, hr⟩
    rw [hdiscarded.resolve_right hr] at hmore
    exact any_returnsToService_of_forget _ _ hmore
  · obtain ⟨hf, hr⟩ := not_or.1 hdiscarded
    obtain ⟨y, event, hy, -⟩ :=
      applyReply_outcome (s.line l).missLimit (s.uidElsewhere n) x.frame (acceptReply x.frame x.address got) (s.record n)
    have hstill := applyReply_of_still (limit := (s.line l).missLimit) (taken := s.uidElsewhere n) (f := x.frame)
      (reply := acceptReply x.frame x.address got) (r := s.record n)
    rw [hy] at hstill
    obtain ⟨happlied, hwritten, hline⟩ := resultApplied_of_standing hlaw hat hf hr hy
    obtain ⟨t, ht⟩ := happlied.completed hs hfootprints hx chars rfl
    refine ⟨_, _, _, t, ht, fun p h hs => ?_, ?_⟩
    · obtain ⟨hsweep, -⟩ := h
      obtain ⟨hrecord, -⟩ := hwritten.of_roster ht.roster
      rw [hrecord] at hs
      exact absurd (hsweep.symm.trans (hstill hs)) nofun
    · rw [hline]
      exact if_congr (and_iff_left hr).symm rfl rfl

/-- Settles O53. -/
theorem completionFreesTheLineAndMovesItsCursor : Obligations.CompletionFreesTheLineAndMovesItsCursor := by
  intro s l x got asked chars n hfound hnone c more returns
  obtain ⟨event, asks, u, t, ht, hstills, hline⟩ := completed_of_found hfound chars
  have hfreed := ht.line hnone
  rw [hline, offered_eq] at hfreed
  obtain ⟨⟨hexec, -⟩, -, -, -, -, hran⟩ := ht
  have hmore : (acceptReply x.frame x.address got).any returnsToService = true ↔ more := any_returnsToService
  refine ⟨t, hexec, fun h => ?_, fun h => ?_, fun p w ho hw => ?_⟩
  · obtain ⟨hasks, hr, hnew, hroom⟩ := h
    rw [hfreed, if_pos ⟨hmore.2 hasks, hr⟩, if_neg (not_or.2 ⟨hnew, Nat.not_le.2 hroom⟩)]
  · rw [hfreed]
    by_cases hasks : (acceptReply x.frame x.address got).any returnsToService = true ∧ (s.record n).state ≠ .retiring
    · have hfull : x.address ∈ c.service ∨ 32 ≤ c.service.length := by
        by_contra hroom
        obtain ⟨hnew, hlength⟩ := not_or.1 hroom
        exact h ⟨hmore.1 hasks.1, hasks.2, hnew, Nat.not_le.1 hlength⟩
      rw [if_pos hasks, if_pos hfull]
    · rw [if_neg hasks]
  · intro old new still done ended again
    obtain ⟨o, howed, hran⟩ := hran p w hw
    have hstill : still → o = (s.sweep p).owed := fun h => by
      refine Bool.eq_iff_iff.2 (howed.trans (or_iff_left fun hasks => hstills p hasks h))
    have hkept : (s.sweep p).owed = true → o = true := fun h => howed.2 (.inl h)
    obtain ⟨hcls, hcursor, hothers⟩ := settledWalk_follows (s := s) (t := t) (l := l) ho w
    refine ⟨_, hcls, hcursor, hothers, fun hon => ?_, fun hpassed => ⟨hran.done hpassed, fun hmode => hran.ended hpassed (.inl hmode),
      fun hmode => ⟨fun h => hran.again hpassed hmode (hkept h), fun h => ⟨fun hs => ?_, ?_⟩⟩⟩⟩
    · obtain ⟨hsweep, hportal, hdone⟩ := hran.on hon
      rw [hsweep]
      exact ⟨rfl, rfl, hportal, hdone, hkept, hstill⟩
    · exact hran.ended hpassed (.inr ((hstill hs).trans h))
    · cases ho' : o with
      | false => exact .inl (hran.ended hpassed (.inr ho'))
      | true => exact .inr (hran.again hpassed hmode ho')

end Sys2Proof.Machine
end

section
/-! SUPPORT. What the evaluations of RESTART and of the release of RESET_N leave of a unit that stands at its cleared values
(R13, R16, R31, R49 to R51, R168, R169). -/

namespace Sys2Proof.Machine

/-! ## Marks that are handed over from cleared ones -/

/-- Each class pends exactly while it holds, as it does while only conditions have been handed over since the marks were
cleared. -/
def MarksAgree (s : State) : Prop := ∀ c, (s.noticeClass c).pending = (s.noticeClass c).holds

namespace MarksAgree

variable {s : State}

theorem handCondition (h : MarksAgree s) (c : Fin 32) (b : Bool) : MarksAgree (handCondition c b s) := fun k => by
  rw [handCondition_eq]
  by_cases hk : k = c
  · subst hk
    rw [State.noticeClass_setNoticeClass_self]
    dsimp only
    rw [h k, Bool.or_not_self, Bool.and_true]
  · rw [State.noticeClass_setNoticeClass_of_ne _ _ _ _ hk]
    exact h k

theorem setPortal (h : MarksAgree s) (p : Fin 4) (x : Portal) : MarksAgree (s.setPortal p x) := h

theorem evalStageShort (h : MarksAgree s) (p : Fin 4) : MarksAgree (evalStageShort p s) := by
  unfold Machine.evalStageShort
  dsimp only
  split
  · exact h
  · exact (h.setPortal p _).handCondition _ _

theorem handPhotometry (h : MarksAgree s) (p : Fin 4) (old new : Condition) : MarksAgree (handPhotometry p old new s) := by
  unfold Machine.handPhotometry
  split
  · exact h.handCondition _ true
  · split
    · exact h.handCondition _ false
    · exact h

theorem evalOwnCondition (h : MarksAgree s) (p : Fin 4) : MarksAgree (evalOwnCondition p s) := by
  unfold Machine.evalOwnCondition
  dsimp only
  split
  · exact h
  · exact ((h.setPortal p _).handPhotometry p _ _).evalStageShort p

theorem evalCondition (h : MarksAgree s) (p : Fin 4) : MarksAgree (evalCondition p s) := by
  unfold Machine.evalCondition
  dsimp only
  split
  · exact h.evalOwnCondition p
  · exact forEach_induction _ (h.evalOwnCondition p) fun q _ _ ht => ht.evalOwnCondition q

theorem evaluateAll (h : MarksAgree s) : MarksAgree (evaluateAll s) :=
  forEach_induction _ (forEach_induction _ h fun p _ _ ht => ht.evalCondition p) fun p _ _ ht => ht.evalStageShort p

end MarksAgree

/-! ## Cleared units -/

/-- What RESTART and a power-on reset leave before anything is evaluated: no portal has an ONLINE meter, every portal is
UNSET and HALTED, no sweep has run, and no notice pends or holds. -/
structure Cleared (s : State) : Prop where
  offline : ∀ p, anyOwn s p .online = false
  portal : ∀ p, (s.portal p).condition = .unset ∧ (s.portal p).lf = none ∧ (s.portal p).mode = .halted
  sweep : ∀ p, s.sweep p = .powerOn
  classes : ∀ c, (s.noticeClass c).pending = false ∧ (s.noticeClass c).holds = false
  marks : MarksBut [] s
  wf : rosterWf s.roster = true
  swept : SweepsLawful s

/-! ## What the evaluations keep -/

theorem meters_evaluateAll (s : State) : (evaluateAll s).meters = s.meters :=
  ((onlyPhotometry_evaluateAll s).writes (ts := [.portals, .notices])).meters

theorem portal_evaluateAll (s : State) (p : Fin 4) : (evaluateAll s).portal p = { s.portal p with
    condition := ((evaluateAll s).portal p).condition, lf := ((evaluateAll s).portal p).lf,
    stageShort := ((evaluateAll s).portal p).stageShort } := (onlyPhotometry_evaluateAll s).portal p

theorem roster_evaluateAll (s : State) : (evaluateAll s).roster = s.roster :=
  ((onlyPhotometry_evaluateAll s).writes (ts := [.portals, .notices])).roster

namespace Cleared

variable {s : State}

theorem entered (h : Cleared s) : PhotometryEntered s (evaluateAll s) :=
  photometryEntered_evaluateAll fun _ q _ =>
    iff_of_false (by rw [(h.portal q).1]; nofun) (by rw [h.offline]; nofun)

/-- R13: no portal is LIVE and so none BORROWED. -/
theorem condition (h : Cleared s) (p : Fin 4) : ((evaluateAll s).portal p).condition
    = if anyOwn s p .awaiting then .unset else .fallback := by
  obtain ⟨hsettled, -⟩ := photometryEntered_iff.1 h.entered
  have hany : ∀ q st, anyOwn (evaluateAll s) q st = anyOwn s q st := anyOwn_congr (meters_evaluateAll s)
  have hlive : ¬ leaderLive (evaluateAll s) p = true := fun hl => by
    obtain ⟨q, -, hq⟩ := leaderLive_iff.1 hl
    have := (hsettled q).live_iff.1 hq
    rw [hany, h.offline] at this
    nomatch this
  rw [hsettled p, conditionNow, hany, hany, h.offline, if_neg nofun, if_neg hlive]

/-- R14, R16: Lf is Lfb in FALLBACK, and absent in UNSET. -/
theorem lf (h : Cleared s) (p : Fin 4) : ((evaluateAll s).portal p).lf
    = if anyOwn s p .awaiting then none else some (s.portal p).active.lfb := by
  obtain ⟨hcondition, hlf, -⟩ := h.portal p
  obtain ⟨-, hentry⟩ := photometryEntered_iff.1 h.entered
  obtain ⟨hsame, hchanged⟩ := hentry p
  have hnow := h.condition p
  split
  next haw =>
    rw [if_pos haw] at hnow
    rw [(hsame (hnow.trans hcondition.symm)).1, hlf]
  next haw =>
    rw [if_neg haw] at hnow
    rw [(hchanged (by rw [hnow, hcondition]; nofun)).1, hnow, Portal.lfEntered, hlf, Option.getD_none, Nat.zero_max]

theorem mode_evaluateAll (h : Cleared s) (p : Fin 4) : ((evaluateAll s).portal p).mode = .halted := by
  rw [portal_evaluateAll]
  exact (h.portal p).2.2

theorem marksAgree (h : Cleared s) : MarksAgree (evaluateAll s) :=
  MarksAgree.evaluateAll fun c => by rw [(h.classes c).1, (h.classes c).2]

theorem sweep_evaluateAll (h : Cleared s) (p : Fin 4) : (evaluateAll s).sweep p = .powerOn :=
  (((onlyPhotometry_evaluateAll s).writes (ts := [.portals, .notices])).sweep p).trans (h.sweep p)

theorem sweepsLawful_evaluateAll (h : Cleared s) : SweepsLawful (evaluateAll s) :=
  reads_sweepsLawful.keeps (ts := [.portals, .notices]) (onlyPhotometry_evaluateAll _).writes (by decide) h.swept

theorem eventPending_evaluateAll (h : Cleared s) {c : Fin 32} (hc : isCondition c = false) :
    ((evaluateAll s).noticeClass c).pending = false := by
  rw [h.marksAgree c, ← Bool.not_eq_true, h.marks.evaluateAll.holds c List.not_mem_nil]
  exact not_conditionHolds_of_event hc

end Cleared

/-! ## The examination of EMERG_N -/

/-- A portal that the examination of EMERG_N puts into EMERGENCY (R49). -/
def Examined (s : State) (p : Fin 4) : Prop := s.emergN = s.straps.getLsbD 3 ∧ (s.portal p).enters

theorem onlyEmergency_examineEmergN (s : State) : OnlyEmergency (Examined s) s (examineEmergN s) := by
  unfold examineEmergN
  split
  next ha => exact (onlyEmergency_enterAll s).mono fun p hp => ⟨emergAsserted_iff.1 ha, hp⟩
  · exact .refl s

theorem examineEmergN_of_examined {s : State} {p : Fin 4} (h : Examined s p) : examineEmergN s = enterAll s :=
  if_pos (emergAsserted_iff.2 h.1)

theorem entersEmergency_examineEmergN {s : State} (hw : rosterWf s.roster = true) (hlaw : SweepsLawful s) {p : Fin 4}
    (h : Examined s p) : EntersEmergency p s (examineEmergN s) := by
  rw [examineEmergN_of_examined h]
  exact entersEmergency_enterAll hw hlaw h.2

/-- A sweep that is IDLE as at power-on, with its SWEEP_DONE not pending. -/
def SweepClear (s : State) (p : Fin 4) : Prop :=
  s.sweep p = .powerOn ∧ (s.noticeClass (sweepDoneClass p)).pending = false

/-- SWEEP_DONE pends exactly with the sweep-done flag. -/
def SweepTold (s : State) (p : Fin 4) : Prop := (s.noticeClass (sweepDoneClass p)).pending = (s.sweep p).done

theorem sweepTold_startSweep {s : State} {p : Fin 4} (h : SweepClear s p) (cls : SweepClass) :
    SweepTold (startSweep cls p s) p := by
  obtain ⟨hsweep, hpending⟩ := h
  have hbegun := sweep_beginSweep cls p s
  unfold startSweep SweepTold
  rw [endIfPassed_of_not_owed (by rw [hbegun, hsweep]; rfl)]
  split
  · rw [sweep_closeSweep, closeSweep_pending]
  · rw [hbegun, beginSweep_noticeClass]
    exact hpending

theorem sweepTold_enterEmergency {s : State} {p : Fin 4} (h : SweepClear s p) : SweepTold (enterEmergency p s) p := by
  have hidle : (s.sweep p).running = none := by rw [h.1]; rfl
  have hasked : requestEmergencySweep p (s.setPortal p (s.portal p).inEmergency)
      = startSweep .emergency p (s.setPortal p (s.portal p).inEmergency) := by
    unfold requestEmergencySweep
    split
    · rfl
    next w hw => exact nomatch hidle.symm.trans hw
  have htold : SweepTold _ p := sweepTold_startSweep (s := s.setPortal p (s.portal p).inEmergency) h .emergency
  rw [← hasked] at htold
  unfold enterEmergency handEvent SweepTold
  rw [handTrue_cases, State.noticeClass_setNoticeClass_of_ne _ _ _ _ (modeSettledClass_ne_sweepDoneClass p p).symm,
    State.noticeClass_setNoticeClass_of_ne _ _ _ _ (emergencyClass_ne_sweepDoneClass p p).symm]
  exact htold

theorem sweepTold_examineEmergN {s : State} (h : ∀ p, SweepClear s p) (p : Fin 4) : SweepTold (examineEmergN s) p := by
  have told : ∀ {t : State} {q : Fin 4}, SweepClear t q → SweepTold t q := fun ⟨hsweep, hpending⟩ => by
    rw [SweepTold, hsweep, hpending]
    rfl
  have kept : ∀ {q k : Fin 4} {t : State}, k ≠ q → (enterIfEnabled q t).sweep k = t.sweep k
      ∧ (enterIfEnabled q t).noticeClass (sweepDoneClass k) = t.noticeClass (sweepDoneClass k) := fun {q k t} hk =>
    ⟨(onlyEmergency_enterIfEnabled q t).sweep hk, (onlyEmergency_enterIfEnabled q t).noticeClass hk (.inr (.inr rfl))⟩
  unfold examineEmergN
  split
  · refine forEach_each (P := SweepClear) (Q := SweepTold) (f := enterIfEnabled) allPortals nodup_allPortals
      (fun q t ht => ?_) (fun q k t hk ht => ?_) (fun q k t hk ht => ?_) (fun q _ => h q) p (mem_allPortals p)
    · by_cases hq : (t.portal q).enters
      · rw [enterIfEnabled_of_enters hq]
        exact sweepTold_enterEmergency ht
      · rw [enterIfEnabled_of_not_enters hq]
        exact told ht
    · obtain ⟨hsweep, hclass⟩ := kept (t := t) hk
      rw [SweepClear, hsweep, hclass]
      exact ht
    · obtain ⟨hsweep, hclass⟩ := kept (t := t) hk
      rw [SweepTold, hsweep, hclass]
      exact ht
  · exact told (h p)

/-! ## A unit that has been evaluated and examined from cleared values -/

/-- The state that RESTART's and the release's rules reach from cleared values. -/
def evaluated (s : State) : State := examineEmergN (evaluateAll s)

theorem roster_evaluated (s : State) : (evaluated s).roster = s.roster :=
  (onlyEmergency_examineEmergN _).roster.trans (roster_evaluateAll s)

theorem plans_evaluated (s : State) : (evaluated s).plans = s.plans :=
  (onlyEmergency_examineEmergN _).plans.trans ((onlyPhotometry_evaluateAll s).writes (ts := [.portals, .notices])).plans

theorem portal_of_not_examined {s : State} {p : Fin 4} (hp : ¬ Examined (evaluateAll s) p) :
    (evaluated s).portal p = (evaluateAll s).portal p := (onlyEmergency_examineEmergN _).portal hp

namespace Cleared

variable {s : State} {p : Fin 4}

theorem examined_iff (h : Cleared s) :
    Examined (evaluateAll s) p ↔ s.emergN = s.straps.getLsbD 3 ∧ (s.portal p).emergencyEnable = true := by
  have hwrites := (onlyPhotometry_evaluateAll s).writes (ts := [.portals, .notices])
  have hmode : ((evaluateAll s).portal p).mode ≠ .emergency := by
    rw [h.mode_evaluateAll]
    nofun
  unfold Examined Portal.enters
  rw [hwrites.emergN, hwrites.outer.straps, and_iff_left hmode, portal_evaluateAll]

theorem entersEmergency (h : Cleared s) (hp : Examined (evaluateAll s) p) :
    EntersEmergency p (evaluateAll s) (evaluated s) :=
  entersEmergency_examineEmergN (by rw [roster_evaluateAll]; exact h.wf) h.sweepsLawful_evaluateAll hp

theorem portal_of_examined (h : Cleared s) (hp : Examined (evaluateAll s) p) :
    (evaluated s).portal p = ((evaluateAll s).portal p).emergencyOf .halted := by
  obtain ⟨hportal, -⟩ := h.entersEmergency hp
  exact hportal .halted (h.mode_evaluateAll p)

theorem sweep_of_not_examined (h : Cleared s) (hp : ¬ Examined (evaluateAll s) p) : (evaluated s).sweep p = .powerOn :=
  ((onlyEmergency_examineEmergN _).sweep hp).trans (h.sweep_evaluateAll p)

theorem sweepPlaced (h : Cleared s) (hp : Examined (evaluateAll s) p) :
    SweepPlaced p .emergency none (evaluated s) (evaluated s) := by
  obtain ⟨-, -, -, -, hplaced⟩ := h.entersEmergency hp
  rw [h.sweep_evaluateAll] at hplaced
  exact hplaced.of_eq (onlyEmergency_examineEmergN _).roster (onlyEmergency_examineEmergN _).plans

theorem marksBut_evaluated (h : Cleared s) : MarksBut [] (evaluated s) := by
  unfold evaluated examineEmergN
  split
  · exact h.marks.evaluateAll.enterAll
  · exact h.marks.evaluateAll

theorem holds_iff (h : Cleared s) (c : Fin 32) :
    ((evaluated s).noticeClass c).holds = true ↔ ConditionHolds (evaluated s) c :=
  h.marksBut_evaluated.holds c List.not_mem_nil

theorem sweepTold (h : Cleared s) (p : Fin 4) : SweepTold (evaluated s) p :=
  sweepTold_examineEmergN (fun q => ⟨h.sweep_evaluateAll q, h.eventPending_evaluateAll (isCondition_sweepDoneClass q)⟩) p

/-- R143: what pends is what holds, and the events of the entries into EMERGENCY. -/
theorem pending_iff (h : Cleared s) (c : Fin 32) : ((evaluated s).noticeClass c).pending = true ↔
    ConditionHolds (evaluated s) c ∨ (∃ p, c = modeSettledClass p ∧ Examined (evaluateAll s) p)
      ∨ ∃ p, c = sweepDoneClass p ∧ ((evaluated s).sweep p).done = true := by
  by_cases hdone : ∃ p, c = sweepDoneClass p
  · obtain ⟨p, rfl⟩ := hdone
    rw [h.sweepTold p]
    refine ⟨fun hd => .inr (.inr ⟨p, rfl, hd⟩), ?_⟩
    rintro (hc | ⟨q, hq, -⟩ | ⟨q, hq, hd⟩)
    · exact absurd hc (not_conditionHolds_of_event (isCondition_sweepDoneClass p))
    · exact absurd hq.symm (modeSettledClass_ne_sweepDoneClass q p)
    · rwa [sweepDoneClass_inj.1 hq]
  by_cases hemergency : ∃ p, c = emergencyClass p ∧ Examined (evaluateAll s) p
  · obtain ⟨p, rfl, hp⟩ := hemergency
    obtain ⟨-, hholds, hpending, -⟩ := h.entersEmergency hp
    refine iff_of_true (hpending ?_) (.inl ((h.holds_iff _).1 hholds))
    rw [← Bool.not_eq_true, h.marks.evaluateAll.holds _ List.not_mem_nil, conditionHolds_emergency, h.mode_evaluateAll]
    nofun
  by_cases hsettled : ∃ p, c = modeSettledClass p ∧ Examined (evaluateAll s) p
  · obtain ⟨p, rfl, hp⟩ := hsettled
    obtain ⟨-, -, -, hpending, -⟩ := h.entersEmergency hp
    exact iff_of_true hpending (.inr (.inl ⟨p, rfl, hp⟩))
  have hkept : (evaluated s).noticeClass c = (evaluateAll s).noticeClass c := by
    obtain ⟨-, -, hclasses⟩ := onlyEmergency_iff.1 (onlyEmergency_examineEmergN (evaluateAll s))
    obtain ⟨-, -, hsame⟩ := hclasses c
    exact hsame fun p hp => ⟨fun e => hemergency ⟨p, e, hp⟩, fun e => hsettled ⟨p, e, hp⟩, fun e => hdone ⟨p, e⟩⟩
  rw [or_iff_left fun ho => ho.elim hsettled fun ⟨p, hp, _⟩ => hdone ⟨p, hp⟩, ← h.holds_iff, hkept, h.marksAgree c]

theorem pending_iff_of_condition (h : Cleared s) {c : Fin 32} (hc : isCondition c = true) :
    ((evaluated s).noticeClass c).pending = true ↔ ConditionHolds (evaluated s) c := by
  rw [h.pending_iff, or_iff_left]
  rintro (⟨p, rfl, -⟩ | ⟨p, rfl, -⟩)
  · rw [isCondition_modeSettledClass] at hc
    nomatch hc
  · rw [isCondition_sweepDoneClass] at hc
    nomatch hc

theorem pending_modeSettled (h : Cleared s) (p : Fin 4) :
    ((evaluated s).noticeClass (modeSettledClass p)).pending = true ↔ Examined (evaluateAll s) p := by
  rw [h.pending_iff]
  constructor
  · rintro (hc | ⟨q, hq, hp⟩ | ⟨q, hq, -⟩)
    · exact absurd hc (not_conditionHolds_of_event (isCondition_modeSettledClass p))
    · rwa [modeSettledClass_inj.1 hq]
    · exact absurd hq (modeSettledClass_ne_sweepDoneClass p q)
  · exact fun hp => .inr (.inl ⟨p, rfl, hp⟩)

theorem not_holds_of_event (h : Cleared s) {c : Fin 32} (hc : isCondition c = false) :
    ¬ ((evaluated s).noticeClass c).holds = true := by
  rw [h.holds_iff]
  exact not_conditionHolds_of_event hc

/-- A class that no portal's condition, entry or sweep is told by, with no stray waiting, is as it was. -/
theorem unmarked (h : Cleared s) {c : Fin 32} (hcondition : ¬ ConditionHolds (evaluated s) c)
    (hsettled : ∀ p, c ≠ modeSettledClass p) (hdone : ∀ p, c ≠ sweepDoneClass p) :
    ((evaluated s).noticeClass c).pending = false ∧ ((evaluated s).noticeClass c).holds = false := by
  rw [← Bool.not_eq_true, ← Bool.not_eq_true, h.pending_iff, h.holds_iff]
  exact ⟨fun ho => ho.elim hcondition fun ho => ho.elim (fun ⟨p, hp, _⟩ => hsettled p hp) fun ⟨p, hp, _⟩ => hdone p hp,
    hcondition⟩

end Cleared

end Sys2Proof.Machine
end

section
/-! SUPPORT. RESTART, block by block, with the evaluations that end it (R168). -/

namespace Sys2Proof.Machine

theorem Writes.masked {ts : List Table} {s t : State} (h : Writes ts s t) (c : Fin 32) (hn : .settings ∉ ts := by decide) :
    (t.noticeClass c).masked = (s.noticeClass c).masked := by
  have hsettings := congrArg (fun x => x.2.2[c].2) (h.kept .settings hn)
  simpa [Notices.settings, State.noticeClass] using hsettings

theorem Writes.autoFinish {ts : List Table} {s t : State} (h : Writes ts s t) (hn : .settings ∉ ts := by decide) :
    t.notices.autoFinish = s.notices.autoFinish := congrArg (fun x => x.2.1) (h.kept .settings hn)

theorem writes_evaluated (s : State) : Writes [.portals, .sweeps, .notices] s (evaluated s) :=
  (onlyPhotometry_evaluateAll s).writes.trans (writes_examineEmergN _)

theorem shortHolds_of_unset {s : State} {p : Fin 4} (h : (s.portal p).lf = none) : shortHolds s p = false := by
  simp [shortHolds, Portal.stageIsShort, h]

theorem portalClass_lt (p : Fin 4) (k : Fin 6) : (portalClass p k).val < 24 := by revert p k; decide

theorem not_conditionHolds_of_line {s : State} (hstrays : ∀ l, (s.line l).strays = []) {c : Fin 32} (hc : 24 ≤ c.val) :
    ¬ ConditionHolds s c := by
  rintro (⟨p, rfl, -⟩ | ⟨p, rfl, -⟩ | ⟨p, rfl, -⟩ | ⟨l, -, hl⟩)
  · exact absurd (portalClass_lt p 0) (Nat.not_lt.2 hc)
  · exact absurd (portalClass_lt p 5) (Nat.not_lt.2 hc)
  · exact absurd (portalClass_lt p 2) (Nat.not_lt.2 hc)
  · exact hl (hstrays l)

theorem Writes.lastPolled {ts : List Table} {s t : State} (h : Writes ts s t) (hn : .polls ∉ ts := by decide) :
    t.lastPolled = s.lastPolled := congrArg Prod.fst (h.kept .polls hn)

theorem Writes.snapshotOf {ts : List Table} {s t : State} (h : Writes ts s t) (p : Fin 4)
    (hn : .snapshots ∉ ts := by decide) : t.snapshotOf p = s.snapshotOf p := congrArg (·[p]) (h.kept .snapshots hn)

/-! ## The values before the evaluations -/

/-- The portal has a meter. -/
def HasMeter (s : State) (p : Fin 4) : Prop := ∃ m q, (s.meter m).site = some q ∧ q.portal = p

theorem restartedMeter_of_none {s : State} {x : Meter} (h : x.site = none) : restartedMeter s x = x := by
  unfold restartedMeter
  rw [h]

theorem restartedMeter_of_some {s : State} {x : Meter} {q : MeterSite} (h : x.site = some q) :
    restartedMeter s x = { site := some q, state := .awaiting, reading := none, status := none, lost := false,
                           hold := some (s.portal q.portal).active.hold, due := true } := by
  unfold restartedMeter
  rw [h]

/-- Every configured entry is AWAITING. -/
theorem anyOwn_restartValues {s : State} {p : Fin 4} {st : MeterState} :
    anyOwn (restartValues s) p st = true ↔ HasMeter s p ∧ st = .awaiting := by
  rw [anyOwn_iff]
  constructor
  · rintro ⟨m, q, hq, hp, hst⟩
    rw [meter_restartValues] at hq hst
    cases hsite : (s.meter m).site with
    | none =>
      rw [restartedMeter_of_none hsite, hsite] at hq
      nomatch hq
    | some r =>
      rw [restartedMeter_of_some hsite] at hq hst
      exact ⟨⟨m, q, hsite.trans hq, hp⟩, hst.symm⟩
  · rintro ⟨⟨m, q, hsite, hp⟩, rfl⟩
    refine ⟨m, q, ?_, hp, ?_⟩ <;> rw [meter_restartValues, restartedMeter_of_some hsite]

theorem roster_restartValues (s : State) : (restartValues s).roster = (restartRoster s).roster :=
  ((writes_evaluated (restartValues s)).roster).symm.trans (roster_restart s)

theorem cleared_restartValues {s : State} (hw : rosterWf s.roster = true) : Cleared (restartValues s) where
  offline p := by
    rw [← Bool.not_eq_true, anyOwn_restartValues]
    exact fun ⟨_, h⟩ => nomatch h
  portal p := by
    rw [portal_restartValues]
    exact ⟨rfl, rfl, rfl⟩
  sweep := sweep_restartValues s
  classes c := by
    rw [noticeClass_restartValues]
    exact ⟨rfl, rfl⟩
  marks := marksBut_restartValues s
  wf := by
    rw [roster_restartValues]
    exact rosterWf_restartRoster hw
  swept p := by
    rw [SweepLawAt, sweep_restartValues]
    exact ⟨nofun, fun _ => rfl⟩

/-! ## A portal controller (R18, R35, R55, R49) -/

/-- R13: a portal after RESTART's evaluations: UNSET while it has a meter, which is AWAITING, and else in FALLBACK. -/
def Portal.restartedIn (x : Portal) (condition : Condition) (lf : Option Nat) (short : Bool) : Portal :=
  { x.restarted with condition := condition, lf := lf, stageShort := short }

theorem portal_evaluateAll_restartValues {s : State} (hw : rosterWf s.roster = true) (p : Fin 4) :
    ∃ condition lf short, (evaluateAll (restartValues s)).portal p = (s.portal p).restartedIn condition lf short
      ∧ (HasMeter s p → condition = .unset ∧ lf = none)
      ∧ (¬ HasMeter s p → condition = .fallback ∧ lf = some (s.portal p).active.lfb) := by
  have hclear := cleared_restartValues hw
  have haw : anyOwn (restartValues s) p .awaiting = true ↔ HasMeter s p := by
    rw [anyOwn_restartValues, and_iff_left rfl]
  have hportal := portal_evaluateAll (restartValues s) p
  have hrest := portal_restartValues s p
  rw [hclear.condition p, hclear.lf p, hrest] at hportal
  refine ⟨_, _, _, hportal, fun h => ?_, fun h => ?_⟩
  · rw [← haw] at h
    rw [if_pos h, if_pos h]
    exact ⟨rfl, rfl⟩
  · rw [← haw] at h
    rw [if_neg h, if_neg h]
    exact ⟨rfl, rfl⟩

/-- R50: the examination of EMERG_N puts the portal into EMERGENCY. -/
def EntersAtRestart (s : State) (p : Fin 4) : Prop :=
  s.emergN = s.straps.getLsbD 3 ∧ (s.portal p).emergencyEnable = true

theorem examined_restartValues {s : State} (hw : rosterWf s.roster = true) (p : Fin 4) :
    Examined (evaluateAll (restartValues s)) p ↔ EntersAtRestart s p := by
  have hwrites := writes_restartValues s
  have henable : ((restartValues s).portal p).emergencyEnable = (s.portal p).emergencyEnable := by
    rw [portal_restartValues]
    rfl
  rw [(cleared_restartValues hw).examined_iff, hwrites.emergN, hwrites.outer.straps, henable, EntersAtRestart]

theorem levels_emergencyOf (x : Portal) (back : ReturnMode) (i : Fin 6) : (x.emergencyOf back).levels[i] = 10000 := by
  match i with
  | 0 | 1 | 2 | 3 | 4 | 5 => rfl

theorem refreshTimer_emergencyOf (x : Portal) (back : ReturnMode) :
    (x.emergencyOf back).refreshTimer = some (x.emergencyOf back).ramp.refresh := rfl

section

variable {s : State} {p : Fin 4}

theorem sweepStarted_restart (hw : rosterWf s.roster = true) (h : EntersAtRestart s p) :
    SweepStarted p .emergency (evaluated (restartValues s)) (evaluated (restartValues s)) := by
  rw [← examined_restartValues hw] at h
  have hclear := cleared_restartValues hw
  refine ⟨?_, hclear.sweepPlaced h⟩
  rw [hclear.portal_of_examined h]
  exact refreshTimer_emergencyOf ..

/-- The portal's blocks after RESTART, in the order of the obligation. -/
theorem portal_restart (hw : rosterWf s.roster = true) (p : Fin 4) :
    let t := evaluated (restartValues s)
    let x := s.portal p
    ((t.portal p).active, (t.portal p).pendingProfile) = (x.active, x.pendingProfile)
      ∧ ((t.portal p).manual, (t.portal p).ramp) = (x.manual, x.ramp)
      ∧ ((t.portal p).leader, (t.portal p).emergencyEnable) = (x.leader, x.emergencyEnable)
      ∧ (t.portal p).pendingMode = none ∧ (t.portal p).rampTimer = none
      ∧ (HasMeter s p → (t.portal p).condition = .unset ∧ (t.portal p).lf = none)
      ∧ (¬ HasMeter s p → (t.portal p).condition = .fallback ∧ (t.portal p).lf = some x.active.lfb)
      ∧ (EntersAtRestart s p → (t.portal p).mode = .emergency ∧ (t.portal p).returnMode = some .halted
          ∧ (∀ i : Fin 6, (t.portal p).levels[i] = 10000) ∧ SweepStarted p .emergency t t)
      ∧ (¬ EntersAtRestart s p → (t.portal p).mode = .halted ∧ (t.portal p).returnMode = none
          ∧ (t.portal p).levels = x.levels ∧ (t.portal p).refreshTimer = none
          ∧ t.sweep p = { running := none, owed := false, done := false }) := by
  intro t x
  have hclear := cleared_restartValues hw
  obtain ⟨condition, lf, short, hportal, hunset, hfallback⟩ := portal_evaluateAll_restartValues hw p
  by_cases h : EntersAtRestart s p
  · have hentered : t.portal p = (x.restartedIn condition lf short).emergencyOf .halted :=
      (hclear.portal_of_examined ((examined_restartValues hw p).2 h)).trans (by rw [hportal])
    rw [hentered]
    exact ⟨rfl, rfl, rfl, rfl, rfl, hunset, hfallback,
      fun _ => ⟨rfl, rfl, levels_emergencyOf _ _, sweepStarted_restart hw h⟩, fun hn => absurd h hn⟩
  · have hnot := (examined_restartValues hw p).not.2 h
    have hkept : t.portal p = x.restartedIn condition lf short := (portal_of_not_examined hnot).trans hportal
    rw [hkept]
    exact ⟨rfl, rfl, rfl, rfl, rfl, hunset, hfallback, fun hp => absurd hp h,
      fun _ => ⟨rfl, rfl, rfl, rfl, hclear.sweep_of_not_examined hnot⟩⟩

/-! ## The notice unit (R158, R16, R31, R51) -/

/-- The marks of a class. -/
def MarksAre (x : NoticeClass) (pending holds : Prop) : Prop := (x.pending = true ↔ pending) ∧ (x.holds = true ↔ holds)

theorem Cleared.marksAre_condition (h : Cleared s) {c : Fin 32} (hc : isCondition c = true) {P : Prop}
    (hP : ConditionHolds (evaluated s) c ↔ P) : MarksAre ((evaluated s).noticeClass c) P P :=
  ⟨(h.pending_iff_of_condition hc).trans hP, (h.holds_iff c).trans hP⟩

theorem Cleared.marksAre_event (h : Cleared s) {c : Fin 32} (hc : isCondition c = false) {P : Prop}
    (hP : ((evaluated s).noticeClass c).pending = true ↔ P) : MarksAre ((evaluated s).noticeClass c) P False :=
  ⟨hP, iff_of_false (h.not_holds_of_event hc) id⟩

theorem meterLostClass_ne_modeSettledClass (p q : Fin 4) : meterLostClass p ≠ modeSettledClass q := by revert p q; decide
theorem meterLostClass_ne_sweepDoneClass (p q : Fin 4) : meterLostClass p ≠ sweepDoneClass q := by revert p q; decide

theorem marks_restart (hw : rosterWf s.roster = true) (p : Fin 4) :
    let t := evaluated (restartValues s)
    MarksAre (t.noticeClass (photometryClass p)) (¬ HasMeter s p) (¬ HasMeter s p)
      ∧ MarksAre (t.noticeClass (meterLostClass p)) False False
      ∧ MarksAre (t.noticeClass (stageShortClass p)) (shortHolds t p = true) (shortHolds t p = true)
      ∧ MarksAre (t.noticeClass (sweepDoneClass p)) ((t.sweep p).done = true) False
      ∧ MarksAre (t.noticeClass (modeSettledClass p)) (EntersAtRestart s p) False
      ∧ MarksAre (t.noticeClass (emergencyClass p)) (EntersAtRestart s p) (EntersAtRestart s p) := by
  intro t
  have h := cleared_restartValues hw
  obtain ⟨-, -, -, -, -, hunset, hfallback, henters, hstays⟩ := portal_restart hw p
  refine ⟨h.marksAre_condition (isCondition_photometryClass p) ?_, ?_,
    h.marksAre_condition (isCondition_stageShortClass p) conditionHolds_stageShort,
    h.marksAre_event (isCondition_sweepDoneClass p) (by rw [h.sweepTold p]),
    h.marksAre_event (isCondition_modeSettledClass p) ((h.pending_modeSettled p).trans (examined_restartValues hw p)),
    h.marksAre_condition (isCondition_emergencyClass p) ?_⟩
  · rw [conditionHolds_photometry]
    by_cases hm : HasMeter s p
    · rw [(hunset hm).1]
      exact iff_of_false nofun (not_not_intro hm)
    · rw [(hfallback hm).1]
      exact iff_of_true rfl hm
  · obtain ⟨hpending, hholds⟩ := h.unmarked (not_conditionHolds_of_event (isCondition_meterLostClass p))
      (meterLostClass_ne_modeSettledClass p) (meterLostClass_ne_sweepDoneClass p)
    exact h.marksAre_event (isCondition_meterLostClass p) (by rw [hpending]; exact iff_of_false nofun id)
  · rw [conditionHolds_emergency]
    by_cases he : EntersAtRestart s p
    · exact iff_of_true (henters he).1 he
    · rw [(hstays he).1]
      exact iff_of_false nofun he

theorem lineMarks_restart (hw : rosterWf s.roster = true) {c : Fin 32} (hc : 24 ≤ c.val) :
    ((evaluated (restartValues s)).noticeClass c).pending = false
      ∧ ((evaluated (restartValues s)).noticeClass c).holds = false := by
  refine (cleared_restartValues hw).unmarked (not_conditionHolds_of_line (fun l => ?_) hc) (fun p e => ?_) fun p e => ?_
  · rw [(writes_evaluated _).line, line_restartValues]
    rfl
  · subst e
    exact absurd (portalClass_lt p 4) (Nat.not_lt.2 hc)
  · subst e
    exact absurd (portalClass_lt p 3) (Nat.not_lt.2 hc)

theorem stack_restartNotices (s : State) : (restartNotices s).notices.stack = [] := by
  simp only [restartNotices]

theorem autoFinish_restartNotices (s : State) : (restartNotices s).notices.autoFinish = s.notices.autoFinish := by
  simp only [restartNotices]
  exact forEach_induction (P := fun t => t.notices.autoFinish = s.notices.autoFinish) allClasses rfl fun _ _ _ ht => ht

theorem settings_restart (s : State) :
    (∀ c, ((evaluated (restartValues s)).noticeClass c).priority = (s.noticeClass c).priority
        ∧ ((evaluated (restartValues s)).noticeClass c).masked = (s.noticeClass c).masked)
      ∧ (evaluated (restartValues s)).notices.stack = []
      ∧ (evaluated (restartValues s)).notices.autoFinish = s.notices.autoFinish := by
  have hevaluated := writes_evaluated (restartValues s)
  have hvalues := writes_restartValues_of_notices s
  refine ⟨fun c => ?_, ?_, ?_⟩
  · rw [hevaluated.priority, hevaluated.masked, noticeClass_restartValues]
    exact ⟨rfl, rfl⟩
  · rw [hevaluated.stack, hvalues.stack, stack_restartNotices]
  · rw [hevaluated.autoFinish, hvalues.autoFinish, autoFinish_restartNotices]

theorem lastPolled_restart (s : State) : (evaluated (restartValues s)).lastPolled = none := by
  have blocks := ((((writes_restartPortals (restartMeters (restartNotices s))).mono
    (ts := [.portals, .roster, .sweeps, .lines, .snapshots, .notices])).trans (writes_restartRoster _).mono).trans
    (writes_restartSweeps _).mono).trans (writes_restartLines _).mono
  exact ((blocks.trans (writes_restartSnapshots _).mono).trans (writes_evaluated _).mono).lastPolled

theorem snapshotOf_restart (s : State) (p : Fin 4) :
    (evaluated (restartValues s)).snapshotOf p = { photo := none, output := none } := by
  rw [(writes_evaluated _).snapshotOf, snapshotOf_restartValues]

end

/-! ## The command -/

/-- Settles O12. -/
theorem restartResetsOperationAndKeepsConfiguration : Obligations.RestartResetsOperationAndKeepsConfiguration := by
  intro s hs hw
  have hvalues := writes_restartValues s
  have hevaluated := writes_evaluated (restartValues s)
  have hmarksLaw := marksLaw_iff.2 (cleared_restartValues hw).marksBut_evaluated
  obtain ⟨hsettings, hstack, hauto⟩ := settings_restart s
  refine ⟨evaluated (restartValues s),
    .of_done rfl hs (rfl : restartCommand s = _) (hevaluated.outer.port.trans hvalues.outer.port),
    hevaluated.outer.straps.trans hvalues.outer.straps, hevaluated.emergN.trans hvalues.emergN,
    fun p => (hevaluated.plan p).trans (hvalues.plan p), poll_restart s, lastPolled_restart s, fun m => ?_, fun p => ?_,
    fun n => ?_, fun l => ?_, fun c => ?_, hstack, hauto, snapshotOf_restart s⟩
  case refine_1 =>
    rw [hevaluated.meter, meter_restartValues]
    split
    next hsite => exact restartedMeter_of_none hsite
    next q hsite => exact restartedMeter_of_some hsite
  case refine_2 =>
    obtain ⟨hprofiles, hramp, hcoupling, hpendingMode, hrampTimer, hunset, hfallback, henters, hstays⟩ := portal_restart hw p
    obtain ⟨hportals, -⟩ := hmarksLaw
    obtain ⟨-, -, -, hshort⟩ := hportals p
    exact ⟨hprofiles, hramp, hcoupling, hpendingMode, hrampTimer, hunset, hfallback, henters, hstays, hshort,
      fun hm => shortHolds_of_unset (hunset hm).2, marks_restart hw p⟩
  case refine_3 =>
    rw [hevaluated.record, State.record, roster_restartValues, ← State.record]
    exact record_restartRoster hw n
  case refine_4 =>
    rw [hevaluated.line, line_restartValues]
    rfl
  case refine_5 =>
    obtain ⟨hpriority, hmasked⟩ := hsettings c
    exact ⟨hpriority, hmasked, lineMarks_restart hw⟩

end Sys2Proof.Machine
end

section
/-! SUPPORT. The release of RESET_N (R169, R49, R162). -/

namespace Sys2Proof.Machine

/-- The state that the release of RESET_N evaluates: the power-on values, with the straps and EMERG_N sampled. -/
def sampled (straps : BitVec 4) (emergN : Bool) (rest : List Instr) : State :=
  { State.reset with resetN := true, straps := straps, emergN := emergN, pending := rest }

/-- R169: a portal that has no meter and has been evaluated. -/
def Portal.lit (x : Portal) : Portal := { x with condition := .fallback, lf := some 8000 }

theorem onlyEmergency_of_frames {E : Fin 4 → Prop} {s t u : State} (h : OnlyPhotometry s t) (k : OnlyEmergency E t u) :
    u = { s with portals := u.portals, sweeps := u.sweeps, notices := { s.notices with classes := u.notices.classes } }
      ∧ ∀ c, u.noticeClass c = { s.noticeClass c with
          pending := (u.noticeClass c).pending, holds := (u.noticeClass c).holds } := by
  obtain ⟨ps, cs, rfl, -, hclasses⟩ := h
  obtain ⟨hu, -, kclasses⟩ := onlyEmergency_iff.1 k
  refine ⟨hu, fun c => ?_⟩
  obtain ⟨hc, -⟩ := hclasses c
  obtain ⟨kc, -⟩ := kclasses c
  rw [kc]
  exact congrArg (fun x : NoticeClass => { x with
    pending := (u.noticeClass c).pending, holds := (u.noticeClass c).holds }) hc

section

variable {straps : BitVec 4} {emergN : Bool} {rest : List Instr}

theorem anyOwn_reset (p : Fin 4) (st : MeterState) : anyOwn State.reset p st = false := by
  revert p
  cases st <;> decide

theorem anyOwn_sampled (p : Fin 4) (st : MeterState) : anyOwn (sampled straps emergN rest) p st = false :=
  (anyOwn_congr (s := State.reset) rfl p st).trans (anyOwn_reset p st)

theorem portal_reset (p : Fin 4) : State.reset.portal p = .powerOn := by
  revert p
  decide

theorem portal_sampled (p : Fin 4) : (sampled straps emergN rest).portal p = .powerOn := portal_reset p

theorem cleared_sampled : Cleared (sampled straps emergN rest) where
  offline p := anyOwn_sampled p .online
  portal p := by
    rw [portal_sampled]
    exact ⟨rfl, rfl, rfl⟩
  sweep p := by
    show State.reset.sweep p = .powerOn
    revert p
    decide
  classes c := by
    show (State.reset.noticeClass c).pending = false ∧ (State.reset.noticeClass c).holds = false
    revert c
    decide
  marks := marksBut_reset.frame (fun _ hc => hc) (fun _ => rfl) marksBut_reset.pends (fun _ => rfl) fun _ _ => Iff.rfl
  wf := rfl
  swept p := (show SweepLawAt State.reset p from (sweepLaw_iff _).1 (sweepLaw_of_check (by decide)) p).of_kept rfl rfl rfl

theorem examined_sampled (p : Fin 4) :
    Examined (evaluateAll (sampled straps emergN rest)) p ↔ emergN = straps.getLsbD 3 := by
  rw [cleared_sampled.examined_iff, portal_sampled]
  exact and_iff_left rfl

theorem shortHolds_of_no_plan {s : State} {p : Fin 4} (h : s.plan p = none) : shortHolds s p = false := by
  simp only [shortHolds, List.any_eq_false]
  intro i _
  rw [stageCount, h]
  unfold Portal.stageIsShort
  split
  · nofun
  · simp

theorem plan_reset (p : Fin 4) : State.reset.plan p = none := by
  revert p
  decide

theorem state_meter_reset (m : Fin 8) : (State.reset.meter m).state = .unconfigured := by
  revert m
  decide

theorem portal_evaluateAll_sampled (p : Fin 4) :
    (evaluateAll (sampled straps emergN rest)).portal p = Portal.powerOn.lit := by
  have hclear := cleared_sampled (straps := straps) (emergN := emergN) (rest := rest)
  have hshort : ((evaluateAll (sampled straps emergN rest)).portal p).stageShort = false := by
    have hplan := ((onlyPhotometry_evaluateAll (sampled straps emergN rest)).writes (ts := [.portals, .notices])).plan p
    rw [hclear.marks.evaluateAll.result, ← Bool.not_eq_true, hclear.marks.evaluateAll.holds _ List.not_mem_nil,
      conditionHolds_stageShort, shortHolds_of_no_plan (hplan.trans (plan_reset p))]
    nofun
  rw [portal_evaluateAll, hshort, hclear.condition, hclear.lf, anyOwn_sampled, portal_sampled]
  rfl

theorem portal_released (p : Fin 4) : (evaluated (sampled straps emergN rest)).portal p
    = if emergN = straps.getLsbD 3 then Portal.powerOn.lit.emergencyOf .halted else Portal.powerOn.lit := by
  split
  next h =>
    rw [cleared_sampled.portal_of_examined ((examined_sampled p).2 h), portal_evaluateAll_sampled]
  next h => rw [portal_of_not_examined ((examined_sampled p).not.2 h), portal_evaluateAll_sampled]

theorem sweep_released (p : Fin 4) : (evaluated (sampled straps emergN rest)).sweep p
    = { running := none, owed := false, done := decide (emergN = straps.getLsbD 3) } := by
  by_cases h : emergN = straps.getLsbD 3
  · have hnone : ∀ l n, ¬ EligibleAt (evaluated (sampled straps emergN rest)) p l n := fun l n ⟨hn, _⟩ => by
      rw [State.record, roster_evaluated] at hn
      cases l <;> exact nomatch hn
    obtain ⟨-, hended⟩ := cleared_sampled.sweepPlaced ((examined_sampled (rest := rest) p).2 h)
    obtain ⟨hsweep, -⟩ := hended fun l => ⟨fun ⟨_, hw, _⟩ => (nomatch hw), hnone l⟩
    rw [hsweep, decide_eq_true h]
  · rw [cleared_sampled.sweep_of_not_examined ((examined_sampled p).not.2 h), decide_eq_false h]
    rfl

theorem conditionHolds_released (c : Fin 32) : ConditionHolds (evaluated (sampled straps emergN rest)) c
    ↔ ∃ p, c = photometryClass p ∨ emergN = straps.getLsbD 3 ∧ c = emergencyClass p := by
  have hportal := portal_released (straps := straps) (emergN := emergN) (rest := rest)
  constructor
  · rintro (⟨p, hc, -⟩ | ⟨p, hc, hmode⟩ | ⟨p, -, hshort⟩ | ⟨l, -, hl⟩)
    · exact ⟨p, .inl hc⟩
    · refine ⟨p, .inr ⟨by_contra fun hn => ?_, hc⟩⟩
      rw [hportal, if_neg hn] at hmode
      nomatch hmode
    · rw [shortHolds_of_no_plan (by rw [State.plan, plans_evaluated]; exact plan_reset p)] at hshort
      nomatch hshort
    · rw [(writes_evaluated _).line] at hl
      cases l <;> exact absurd rfl hl
  · rintro ⟨p, rfl | ⟨ha, rfl⟩⟩
    · rw [conditionHolds_photometry, hportal]
      split <;> rfl
    · rw [conditionHolds_emergency, hportal, if_pos ha]
      rfl

theorem holds_released (c : Fin 32) : ((evaluated (sampled straps emergN rest)).noticeClass c).holds = true
    ↔ ∃ p, c = photometryClass p ∨ emergN = straps.getLsbD 3 ∧ c = emergencyClass p := by
  rw [cleared_sampled.holds_iff, conditionHolds_released]

theorem pending_released (c : Fin 32) : ((evaluated (sampled straps emergN rest)).noticeClass c).pending = true
    ↔ ∃ p, c = photometryClass p
        ∨ emergN = straps.getLsbD 3 ∧ (c = emergencyClass p ∨ c = modeSettledClass p ∨ c = sweepDoneClass p) := by
  simp only [cleared_sampled.pending_iff, conditionHolds_released, examined_sampled, sweep_released, decide_eq_true_iff]
  constructor
  · rintro (⟨p, hp | ⟨ha, hp⟩⟩ | ⟨p, hp, ha⟩ | ⟨p, hp, ha⟩)
    · exact ⟨p, .inl hp⟩
    · exact ⟨p, .inr ⟨ha, .inl hp⟩⟩
    · exact ⟨p, .inr ⟨ha, .inr (.inl hp)⟩⟩
    · exact ⟨p, .inr ⟨ha, .inr (.inr hp)⟩⟩
  · rintro ⟨p, hp | ⟨ha, hp | hp | hp⟩⟩
    · exact .inl ⟨p, .inl hp⟩
    · exact .inl ⟨p, .inr ⟨ha, hp⟩⟩
    · exact .inr (.inl ⟨p, hp, ha⟩)
    · exact .inr (.inr ⟨p, hp, ha⟩)

end

/-- The state that the release of RESET_N leaves. -/
def released (straps : BitVec 4) (emergN csN : Bool) (rest : List Instr) : State :=
  { evaluated (sampled straps emergN rest) with
    port := { State.reset.port with ready := true, ignoring := !csN } }

theorem withPort_released {t : State} (h : t.port = State.reset.port) (csN : Bool) :
    { t with port := { t.port with ready := true, held := none, preparing := none, ignoring := !csN } }
      = { t with port := { State.reset.port with ready := true, ignoring := !csN } } := by
  rw [h]
  rfl

theorem exec_resetNRelease {s : State} (hr : s.resetN = false) (hlaw : ResetLaw s) (straps : BitVec 4) (emergN csN : Bool) :
    exec (.resetNRelease straps { emergN := emergN, csN := csN }) s = .next (released straps emergN csN s.pending) := by
  have hsampled : { s with resetN := true, straps := straps, emergN := emergN } = sampled straps emergN s.pending := by
    rw [hlaw hr]
    rfl
  have hexec : exec (.resetNRelease straps { emergN := emergN, csN := csN }) s
      = .next (resetReleased straps { emergN := emergN, csN := csN } s) :=
    congrArg Host.Outcome.next (if_neg (by rw [hr]; nofun))
  rw [hexec, resetReleased_eq, poweredUp, hsampled]
  have hport : (examineEmergN (evaluateAll (sampled straps emergN s.pending))).port = State.reset.port :=
    (writes_evaluated _).outer.port
  rw [released, evaluated]
  generalize examineEmergN (evaluateAll (sampled straps emergN s.pending)) = e at hport ⊢
  exact congrArg Host.Outcome.next (withPort_released hport csN)

/-- Settles O11. -/
theorem releaseOfResetStartsThePart : Obligations.ReleaseOfResetStartsThePart := by
  intro s straps emergN csN hr hlaw asserted
  obtain ⟨hframe, hclass⟩ := onlyEmergency_of_frames (onlyPhotometry_evaluateAll (sampled straps emergN s.pending))
    (onlyEmergency_examineEmergN _)
  have hexec := exec_resetNRelease hr hlaw straps emergN csN
  have hportal := portal_released (straps := straps) (emergN := emergN) (rest := s.pending)
  have hsweep := sweep_released (straps := straps) (emergN := emergN) (rest := s.pending)
  have hpending := pending_released (straps := straps) (emergN := emergN) (rest := s.pending)
  have hholds := holds_released (straps := straps) (emergN := emergN) (rest := s.pending)
  rw [released] at hexec
  rw [← evaluated] at hframe hclass
  generalize evaluated (sampled straps emergN s.pending) = e at *
  refine ⟨_, hexec, ?_, fun p => ?_, fun c => ⟨hclass c, hpending c, hholds c⟩, congrArg State.resetN hframe,
    congrArg State.straps hframe, congrArg State.emergN hframe, rfl, rfl, rfl, rfl, fun p => ?_, fun l => ?_,
    congrArg State.roster hframe, fun p => (congrArg (State.plan · p) hframe).trans (plan_reset p), fun m => ?_⟩
  · exact congrArg (fun t : State => { t with port := { State.reset.port with ready := true, ignoring := !csN } }) hframe
  · rw [portal_reset]
    exact hportal p
  · have hshown := hportal p
    refine ⟨?_, ?_, ?_, (hholds _).2 ⟨p, .inl rfl⟩, (hpending _).2 ⟨p, .inl rfl⟩, ?_, ?_, hsweep p⟩
    case refine_5 =>
      rw [Bool.eq_iff_iff, decide_eq_true_iff]
      refine (hpending _).trans ⟨?_, fun ha => ⟨p, .inr ⟨ha, .inl rfl⟩⟩⟩
      rintro ⟨q, hq | ⟨ha, -⟩⟩
      · exact absurd hq.symm (photometryClass_ne_emergencyClass q p)
      · exact ha
    all_goals
      rw [portal_withPort, hshown]
      split <;> rfl
  · exact (congrArg (fun t : State => (t.line l).state) hframe).trans (by cases l <;> rfl)
  · exact (congrArg (fun t : State => (t.meter m).state) hframe).trans (state_meter_reset m)

end Sys2Proof.Machine
end
